-- ==== Sys2Proof/Word.lean ====
section
/-! DEFINITION. The word types of the part and the keyed collection its state is made of. -/

namespace Sys2Proof

/-- A byte; the lowest address of a multi-byte value holds bits [7:0] (R5). -/
abbrev Byte := BitVec 8

/-- A 64-bit register or memory word. -/
abbrev Word := BitVec 64

/-- An FW40 value or a 40-bit lane (R80, R71). -/
abbrev Fw := BitVec 40

/-- The eight lanes of a token or a lane register. -/
abbrev Lanes := Vector Fw 8

/-- A finite map from numbers, as a list of pairs with the keys rising; a key that is not listed is absent. -/
structure KMap (α : Type) where
  items : List (Nat × α) := []
  deriving DecidableEq, Repr, Inhabited

end Sys2Proof
end

