-- ==== Sys2Proof/Machine/Map.lean ====
section
/-! DEFINITION. Reading and writing the keyed collections of the state, and the list and bit helpers the other
files of the machine use. -/

namespace Sys2Proof

/-- The value at a key, if one is listed. -/
def KMap.find? {α : Type} (m : KMap α) (k : Nat) : Option α :=
  (m.items.find? (fun p => p.1 == k)).map Prod.snd

/-- The value at a key, or a stated one where none is listed. -/
def KMap.getD {α : Type} (m : KMap α) (k : Nat) (d : α) : α := (m.find? k).getD d

/-- Insertion that keeps the keys rising and replaces an equal key. -/
def insertKey {α : Type} (k : Nat) (v : α) : List (Nat × α) → List (Nat × α)
  | [] => [(k, v)]
  | p :: ps =>
    if k < p.1 then (k, v) :: p :: ps
    else if k = p.1 then (k, v) :: ps
    else p :: insertKey k v ps

/-- The map with one key set. -/
def KMap.set {α : Type} (m : KMap α) (k : Nat) (v : α) : KMap α := ⟨insertKey k v m.items⟩

/-- The map without one key. -/
def KMap.erase {α : Type} (m : KMap α) (k : Nat) : KMap α := ⟨m.items.filter (fun p => p.1 != k)⟩

/-- The map with one key's value changed by a function, from a stated value where the key is absent. -/
def KMap.upd {α : Type} (m : KMap α) (k : Nat) (d : α) (f : α → α) : KMap α := m.set k (f (m.getD k d))

/-- Every value changed by a function of its key and value. -/
def KMap.mapVals {α β : Type} (m : KMap α) (f : Nat → α → β) : KMap β :=
  ⟨m.items.map (fun p => (p.1, f p.1 p.2))⟩

/-- The pairs whose key and value pass a test. -/
def KMap.keep {α : Type} (m : KMap α) (f : Nat → α → Bool) : KMap α :=
  ⟨m.items.filter (fun p => f p.1 p.2)⟩

/-- Keys, rising. -/
def KMap.keys {α : Type} (m : KMap α) : List Nat := m.items.map Prod.fst

/-- Values, by rising key. -/
def KMap.vals {α : Type} (m : KMap α) : List α := m.items.map Prod.snd

/-- Whether some pair passes a test. -/
def KMap.anyP {α : Type} (m : KMap α) (f : Nat → α → Bool) : Bool := m.items.any (fun p => f p.1 p.2)

/-- A map with the keys 0, 1, 2 and so on for a list's items. -/
def KMap.ofList {α : Type} (l : List α) : KMap α := ⟨l.zipIdx.map (fun p => (p.2, p.1))⟩

/-- Replace item n of a list. -/
def listSet {α : Type} (l : List α) (n : Nat) (v : α) : List α := l.set n v

/-- Remove item n of a list. -/
def listDrop {α : Type} (l : List α) (n : Nat) : List α := l.eraseIdx n

/-- Bits [hi:lo] of a number (R4). -/
def fld (w hi lo : Nat) : Nat := w / 2 ^ lo % 2 ^ (hi + 1 - lo)

/-- Bit i of a number. -/
def bitOf (w i : Nat) : Bool := w / 2 ^ i % 2 == 1

/-- Bits [hi:lo] of a word as a number. -/
def Word.fld (w : Word) (hi lo : Nat) : Nat := Sys2Proof.fld w.toNat hi lo

/-- The signed reading of the low n bits of a number. -/
def signed (n w : Nat) : Int :=
  let m := w % 2 ^ n
  if m < 2 ^ (n - 1) then (m : Int) else (m : Int) - (2 : Int) ^ n

/-- Ceiling of a quotient. -/
def ceilDiv (a b : Nat) : Nat := (a + b - 1) / b

/-- The least multiple of b at or above a. -/
def roundUp (a b : Nat) : Nat := ceilDiv a b * b

/-- n little-endian bytes of a number (R5). -/
def leBytes : Nat → Nat → List Byte
  | 0, _ => []
  | n + 1, v => BitVec.ofNat 8 v :: leBytes n (v / 256)

/-- The number that little-endian bytes hold (R5). -/
def leNat : List Byte → Nat
  | [] => 0
  | b :: bs => b.toNat + 256 * leNat bs

/-- Consecutive groups of n items; a short group ends the list. `fuel` bounds their count. -/
def chunksFuel {α : Type} (n : Nat) : Nat → List α → List (List α)
  | 0, _ => []
  | _ + 1, [] => []
  | fuel + 1, l => l.take n :: chunksFuel n fuel (l.drop n)

/-- Consecutive groups of n items of a list. -/
def chunksOf {α : Type} (n : Nat) (l : List α) : List (List α) := chunksFuel n l.length l

/-- Bytes as little-endian 64-bit words. -/
def wordsOf (l : List Byte) : List Word := (chunksOf 8 l).map (fun c => BitVec.ofNat 64 (leNat c))

/-- 64-bit words as little-endian bytes. -/
def bytesOf (l : List Word) : List Byte := l.flatMap (fun w => leBytes 8 w.toNat)

/-- A word with bits [hi:lo] replaced. -/
def Word.put (w : Word) (hi lo v : Nat) : Word :=
  let n := w.toNat
  let m := 2 ^ (hi + 1 - lo)
  BitVec.ofNat 64 (n - (n / 2 ^ lo % m) * 2 ^ lo + (v % m) * 2 ^ lo)

/-- A 64-bit word of a number. -/
def wd (n : Nat) : Word := BitVec.ofNat 64 n

/-- Least set index below n at which a test holds. DESIGN CHOICE (log 9). -/
def firstBelow (n : Nat) (f : Nat → Bool) : Option Nat := (List.range n).find? f

/-- The mask word of a list of bit numbers. -/
def maskOf (n : Nat) (l : List Nat) : BitVec n := l.foldl (fun m i => m ||| BitVec.ofNat n (2 ^ i)) 0

end Sys2Proof
end

