-- ==== Sys2Proof/Syntax.lean ====
section
/-! DEFINITION. The instruction set as plain syntax: one constructor for each row of the opcode table. Tile-core words
carry the fields of R164 as numbers, cell slots the fields of R150 with the trigger word of R157, front-end commands the
eight words of R303, register writes nothing (their value stands in the state's focus), and the remaining rows, which have
no encoding, the operands that say where the event happens. -/

namespace Sys2Proof

/-- The operand fields of a cell slot's operation word (R150) and its whole trigger word (R157). -/
structure CellF where
  srcA : Nat
  srcB : Nat
  dstA : Nat
  dstB : Nat
  tagAct : Nat
  trig : Nat
  deriving DecidableEq, Repr, Inhabited

/-- A submission entry (R303) with the queue it was read from: VI, submission queue, and words W0 to W7. -/
structure Entry where
  vi : Nat
  sq : Nat
  w0 : Word
  w1 : Word
  w2 : Word
  w3 : Word
  w4 : Word
  w5 : Word
  w6 : Word
  w7 : Word
  deriving DecidableEq, Repr, Inhabited

/-- A host access at BAR2 (R372): function, port, offset, and either the bytes written or the count read. `flag` is
steering tag 0xFE under TPH (R147), `poison` a poisoned TLP (R440). -/
structure BarAccess where
  vi : Nat
  port : Nat
  off : Nat
  write : Bool
  len : Nat
  data : List Byte
  flag : Bool
  poison : Bool
  deriving DecidableEq, Repr, Inhabited

/-- A message of the link time master (R380): a Sync taken at the port, its Follow_Up with the master's stamp, and the
Delay_Resp that answers the slave's own request, with the master's; stamps in 1/16 ns. -/
inductive PtpMsg where
  | sync
  | followUp (t1 : Word)
  | delayResp (t4 : Word)
  deriving DecidableEq, Repr, Inhabited

/-- One constructor per row of spec/opcode_table.json, in the order tile-core words, cell slots, submission
entries, register writes, events. A register write's row has no operand of its own: the function, port, offset and
value stand in the focus of the state, as the write that is being performed. -/
inductive Instr where
  /-- ADD, R237: Tile core adds ra and rb modulo 2^64 into rd. -/
  | add (d a b : Nat)
  /-- SUB, R237: Tile core subtracts rb from ra into rd. -/
  | sub (d a b : Nat)
  /-- MUL, R237: Tile core writes the low 64 bits of ra times rb. -/
  | mul (d a b : Nat)
  /-- MULH, R237: Tile core writes the high 64 bits of the signed product. -/
  | mulh (d a b : Nat)
  /-- MULHU, R237: Tile core writes the high 64 bits of the unsigned product. -/
  | mulhu (d a b : Nat)
  /-- DIV, R237: Tile core writes the signed quotient truncated toward zero, with defined edge cases. -/
  | div (d a b : Nat)
  /-- DIVU, R237: Tile core writes the unsigned quotient. -/
  | divu (d a b : Nat)
  /-- REM, R237: Tile core writes the signed remainder with the sign of ra. -/
  | rem (d a b : Nat)
  /-- REMU, R237: Tile core writes the unsigned remainder. -/
  | remu (d a b : Nat)
  /-- AND, R237: Tile core writes ra AND rb. -/
  | and (d a b : Nat)
  /-- OR, R237: Tile core writes ra OR rb. -/
  | or (d a b : Nat)
  /-- XOR, R237: Tile core writes ra XOR rb. -/
  | xor (d a b : Nat)
  /-- ANDN, R237: Tile core writes ra AND NOT rb. -/
  | andn (d a b : Nat)
  /-- SHL, R237: Tile core shifts ra left by rb, giving 0 for counts of 64 or more. -/
  | shl (d a b : Nat)
  /-- SHR, R237: Tile core shifts ra logically right by rb. -/
  | shr (d a b : Nat)
  /-- SAR, R237: Tile core shifts ra arithmetically right by Min(rb, 63). -/
  | sar (d a b : Nat)
  /-- ROT, R237: Tile core rotates ra left by rb mod 64. -/
  | rot (d a b : Nat)
  /-- CLZ, R237: Tile core counts the leading zeros of ra. -/
  | clz (d a : Nat)
  /-- POPC, R237: Tile core counts the set bits of ra. -/
  | popc (d a : Nat)
  /-- CSEQ, R237: Tile core writes 1 if ra equals rb, else 0. -/
  | cseq (d a b : Nat)
  /-- CSNE, R237: Tile core writes 1 if ra differs from rb, else 0. -/
  | csne (d a b : Nat)
  /-- CSLT, R237: Tile core writes 1 if ra is signed-less than rb. -/
  | cslt (d a b : Nat)
  /-- CSLE, R237: Tile core writes 1 if ra is signed-less-or-equal to rb. -/
  | csle (d a b : Nat)
  /-- CSLTU, R237: Tile core writes 1 if ra is unsigned-less than rb. -/
  | csltu (d a b : Nat)
  /-- CSLEU, R237: Tile core writes 1 if ra is unsigned-less-or-equal to rb. -/
  | csleu (d a b : Nat)
  /-- ADDS, R237: Tile core writes ra plus rb shifted left by s. -/
  | adds (d a b s : Nat)
  /-- MIN, R237: Tile core writes the signed minimum of ra and rb. -/
  | min (d a b : Nat)
  /-- MAX, R237: Tile core writes the signed maximum of ra and rb. -/
  | max (d a b : Nat)
  /-- ADDI, R238: Tile core adds the sign-extended immediate to ra. -/
  | addi (d a i : Nat)
  /-- ANDI, R238: Tile core ANDs ra with the immediate. -/
  | andi (d a i : Nat)
  /-- ORI, R238: Tile core ORs ra with the immediate. -/
  | ori (d a i : Nat)
  /-- XORI, R238: Tile core XORs ra with the immediate. -/
  | xori (d a i : Nat)
  /-- SHLI, R238: Tile core shifts ra left by an immediate count 0-63. -/
  | shli (d a i : Nat)
  /-- SHRI, R238: Tile core shifts ra logically right by an immediate count 0-63. -/
  | shri (d a i : Nat)
  /-- SARI, R238: Tile core shifts ra arithmetically right by an immediate count 0-63. -/
  | sari (d a i : Nat)
  /-- CSLTI, R238: Tile core writes 1 if ra is signed-less than the immediate. -/
  | cslti (d a i : Nat)
  /-- CSEQI, R238: Tile core writes 1 if ra equals the immediate. -/
  | cseqi (d a i : Nat)
  /-- LI, R238: Tile core loads the sign-extended immediate into rd. -/
  | li (d i : Nat)
  /-- KLD, R239: Tile core reads a uniform register of its set into a g register. -/
  | kld (g k : Nat)
  /-- KST, R239: Tile core writes a g register into a uniform register at commit. -/
  | kst (g k : Nat)
  /-- KMOV, R239: Tile core copies one uniform register to another at commit. -/
  | kmov (a b : Nat)
  /-- SKIP, R240: Tile core skips n words of the body when the condition on ga holds. -/
  | skip (c g n : Nat)
  /-- EXIT, R240: Tile core takes the block's exit to another block when the condition holds. -/
  | exit (c g n : Nat)
  /-- END, R241: Tile core ends the instance at commit, freeing its registers and slot. -/
  | endI
  /-- SNUL, R242: Tile core produces an LSID with no store. -/
  | snul (l : Nat)
  /-- GNUL, R242: Tile core counts a g register as written without changing it. -/
  | gnul (d : Nat)
  /-- PFX, R165: Tile core extends the immediate or displacement of the following word. -/
  | pfx (h : Nat)
  /-- LD_B, R243: Tile core loads one byte sign-extended. -/
  | ldB (d a l i : Nat)
  /-- LD_H, R243: Tile core loads two bytes sign-extended. -/
  | ldH (d a l i : Nat)
  /-- LD_W, R243: Tile core loads four bytes sign-extended. -/
  | ldW (d a l i : Nat)
  /-- LD, R243: Tile core loads eight bytes. -/
  | ld (d a l i : Nat)
  /-- LD_BU, R243: Tile core loads one byte zero-extended. -/
  | ldBu (d a l i : Nat)
  /-- LD_HU, R243: Tile core loads two bytes zero-extended. -/
  | ldHu (d a l i : Nat)
  /-- LD_WU, R243: Tile core loads four bytes zero-extended. -/
  | ldWu (d a l i : Nat)
  /-- ST_B, R243: Tile core stores one byte at commit. -/
  | stB (s a l i : Nat)
  /-- ST_H, R243: Tile core stores two bytes at commit. -/
  | stH (s a l i : Nat)
  /-- ST_W, R243: Tile core stores four bytes at commit. -/
  | stW (s a l i : Nat)
  /-- ST, R243: Tile core stores eight bytes at commit. -/
  | st (s a l i : Nat)
  /-- LD_ACQ, R244: Tile core performs an 8-byte acquire load at a scope, with the tile-cache action. -/
  | ldAcq (d a l c i : Nat)
  /-- ST_REL, R244: Tile core performs an 8-byte release store at commit, with write-back. -/
  | stRel (s a l c i : Nat)
  /-- FEN_ACQ, R244: Tile core places an acquire fence at an LSID position. -/
  | fenAcq (l c : Nat)
  /-- FEN_REL, R244: Tile core places a release fence at an LSID position. -/
  | fenRel (l c : Nat)
  /-- AMO_ADD, R245: Tile core atomically adds rb to memory at commit and returns the old value. -/
  | amoAdd (q d a l b c w : Nat)
  /-- AMO_MIN, R245: Tile core atomically takes the signed minimum. -/
  | amoMin (q d a l b c w : Nat)
  /-- AMO_MAX, R245: Tile core atomically takes the signed maximum. -/
  | amoMax (q d a l b c w : Nat)
  /-- AMO_AND, R245: Tile core atomically ANDs rb into memory. -/
  | amoAnd (q d a l b c w : Nat)
  /-- AMO_OR, R245: Tile core atomically ORs rb into memory. -/
  | amoOr (q d a l b c w : Nat)
  /-- AMO_XOR, R245: Tile core atomically XORs rb into memory. -/
  | amoXor (q d a l b c w : Nat)
  /-- AMO_XCHG, R245: Tile core atomically exchanges rb with memory. -/
  | amoXchg (q d a l b c w : Nat)
  /-- AMO_CAS, R245: Tile core atomically compares with rd and writes rb on match. -/
  | amoCas (q d a l b c w : Nat)
  /-- BLKT, R56: Tile core blocks a route tag at commit. -/
  | blkt (t : Nat)
  /-- UBLKT, R56: Tile core unblocks a route tag at commit, releasing its queued arrivals in order. -/
  | ublkt (t : Nat)
  /-- SEND, R246: Tile core raises an arrival with a message on a tag of a tile of the placement. -/
  | send (d a t : Nat)
  /-- SEND_BO, R246: Tile core adds a count to a barrier object of a tile of the placement. -/
  | sendBo (d a b : Nat)
  /-- BOSET, R246: Tile core sets a barrier object's target and tag and disarms it. -/
  | boset (a t b : Nat)
  /-- BOSET_CLR, R246: Tile core sets a barrier object's target and tag, disarms it and clears its count. -/
  | bosetClr (a t b : Nat)
  /-- BOARM, R246: Tile core arms a barrier object and compares its count in the commit cycle. -/
  | boarm (b : Nat)
  /-- SPAWN, R247: Tile core creates a token record to a route entry and increments the set's join counter. -/
  | spawn (p r i : Nat)
  /-- JOIN, R248: Tile core arms a tag for one arrival when the set's join counter reaches zero. -/
  | join (t : Nat)
  /-- RFWD, R249: Tile core forwards a row's record to its next hop at commit. -/
  | rfwd (a : Nat)
  /-- RFWD_RET, R249: Tile core retires a row's record to the null route. -/
  | rfwdRet (a : Nat)
  /-- STRM, R251: Tile core issues a stream to an address generator from a four-word specification. -/
  | strm (a t n : Nat)
  /-- STRM_TEMPLATE, R251: Tile core issues a stream whose words 0 and 3 come from an AGT template. -/
  | strmTemplate (a t p n : Nat)
  /-- SBAR, R260: Tile core places a barrier marker in the queues of the named address generators. -/
  | sbar (r t m : Nat)
  /-- CFGL, R261: Tile core loads the operator's configuration into the tile's cells. -/
  | cfgl (t d c m : Nat)
  /-- CFGBANK, R262: Tile core requests a mode change of a tile-store bank. -/
  | cfgbank (t m b : Nat)
  /-- CTSW, R263: Tile core swaps an address generator's active and standby code tables. -/
  | ctsw (a : Nat)
  /-- EQW, R264: Tile core writes an engine queue register at commit. -/
  | eqw (a n : Nat)
  /-- EQW_PORT, R264: Tile core binds cells' command ports to an engine queue at commit. -/
  | eqwPort (a n : Nat)
  /-- COPY, R296: Tile core issues a byte copy to the copy engine. -/
  | copy (a t n : Nat)
  /-- PUBL, R297: Tile core issues a publish that swaps a buffer's base and writes its flag. -/
  | publ (a t n : Nat)
  /-- MV, R280: Tile core issues a matrix-vector product on the fabric or cellar path. -/
  | mv (a t n : Nat)
  /-- SCOUT, R284: Tile core issues sketch scoring that writes a key-tile mask register. -/
  | scout (a t n : Nat)
  /-- ATTN, R286: Tile core issues attention over keys, producing merged triples per query row. -/
  | attn (a t n : Nat)
  /-- IRED_GATHER_SUM, R289: Tile core issues a gather-sum of table rows into bags on the cellar engines. -/
  | iredGatherSum (a t n : Nat)
  /-- IRED_GATHER_MAX, R289: Tile core issues a gather-max of table rows into bags. -/
  | iredGatherMax (a t n : Nat)
  /-- IRED_ATOMIC, R290: Tile core issues a memory-side atomic to the cellar engine of the address's channel. -/
  | iredAtomic (a t n : Nat)
  /-- COLL_TRI, R292: Tile core issues a collective merge of attention triples. -/
  | collTri (a t n : Nat)
  /-- COLL_SUM, R292: Tile core issues a collective element-wise sum. -/
  | collSum (a t n : Nat)
  /-- COLL_MAX, R292: Tile core issues a collective element-wise maximum. -/
  | collMax (a t n : Nat)
  /-- COLL_GATH, R292: Tile core issues a collective gather. -/
  | collGath (a t n : Nat)
  /-- COLL_SMP, R295: Tile core issues a sharded sampling over the parties' candidate lists. -/
  | collSmp (a t n : Nat)
  /-- SAMPLE, R294: Tile core issues a draw of one token from a shard of logits, or its candidate list. -/
  | sample (a t n : Nat)
  /-- WBUILD, R299: Tile core issues a copy of weight pages with CRC checks. -/
  | wbuild (a t n : Nat)
  /-- WSWITCH, R300: Tile core issues a change of a stage's current weight generation. -/
  | wswitch (a t n : Nat)
  /-- PROMO, R126: Tile core issues promotion of a handle entry from the attic into HBM. -/
  | promo (a t n : Nat)
  /-- PROMO_DEMOTE, R127: Tile core issues demotion of a handle entry into the attic. -/
  | promoDemote (a t n : Nat)
  /-- TNOW, R266: Tile core reads device time. -/
  | tnow (d : Nat)
  /-- THOLD, R266: Tile core arms a timed arrival on a tag at a device time. -/
  | thold (a t : Nat)
  /-- CSRR, R267: Tile core reads a system register. -/
  | csrr (d c : Nat)
  /-- CSRW, R267: Tile core writes a system register that has no row of its own. -/
  | csrw (a c : Nat)
  /-- SYSC, R268: Tile core posts a request to the active front-end complex at commit. -/
  | sysc (a t c : Nat)
  /-- ERET, R269: Handler resumes a trapped instance at its block start. -/
  | eret (a : Nat)
  /-- ERET_ABORT, R269: Handler ends a trapped instance without committing its block. -/
  | eretAbort (a : Nat)
  /-- TRAP, R269: Tile core traps its block with cause software. -/
  | trap (c : Nat)
  /-- HALT, R270: Tile core halts after its current block. -/
  | halt
  /-- LCUGO_WRITE, R234: A CSRW to LCUGO starts a loop-control body with an iteration count. -/
  | lcugoWrite (a body : Nat)
  /-- CSWEEPT_WRITE, R234: A CSRW to CSWEEPT from the anchor tile starts a region sweep at commit. -/
  | csweeptWrite (a : Nat)
  /-- CTE_WRITE, R128: A CSRW writes a standby code-table entry of an address generator. -/
  | cteWrite (a ag e : Nat)
  /-- CELL_ADD, R185: Cell adds two 32-bit lane values. -/
  | cellAdd (f : CellF)
  /-- CELL_SUB, R185: Cell subtracts lane values. -/
  | cellSub (f : CellF)
  /-- CELL_MUL, R185: Cell writes the low 32 bits of the product. -/
  | cellMul (f : CellF)
  /-- CELL_MULH, R185: Cell writes the high 32 bits of the signed product. -/
  | cellMulh (f : CellF)
  /-- CELL_AND, R185: Cell ANDs lane values. -/
  | cellAnd (f : CellF)
  /-- CELL_OR, R185: Cell ORs lane values. -/
  | cellOr (f : CellF)
  /-- CELL_XOR, R185: Cell XORs lane values. -/
  | cellXor (f : CellF)
  /-- CELL_ANDN, R185: Cell writes a AND NOT b. -/
  | cellAndn (f : CellF)
  /-- CELL_SHL, R185: Cell shifts lanes left. -/
  | cellShl (f : CellF)
  /-- CELL_SHR, R185: Cell shifts lanes logically right. -/
  | cellShr (f : CellF)
  /-- CELL_SAR, R185: Cell shifts lanes arithmetically right. -/
  | cellSar (f : CellF)
  /-- CELL_ROT, R185: Cell rotates lanes left. -/
  | cellRot (f : CellF)
  /-- CELL_MIN, R185: Cell takes the signed minimum per lane. -/
  | cellMin (f : CellF)
  /-- CELL_MAX, R185: Cell takes the signed maximum per lane. -/
  | cellMax (f : CellF)
  /-- MINU, R185: Cell takes the unsigned minimum per lane. -/
  | minu (f : CellF)
  /-- MAXU, R185: Cell takes the unsigned maximum per lane. -/
  | maxu (f : CellF)
  /-- CELL_CLZ, R185: Cell counts leading zeros per lane. -/
  | cellClz (f : CellF)
  /-- CELL_POPC, R185: Cell counts set bits per lane. -/
  | cellPopc (f : CellF)
  /-- BPERM, R188: Cell selects bytes or nibbles from a whole token by per-lane selectors. -/
  | bperm (f : CellF)
  /-- PACK, R185: Cell packs two 16-bit halves into a lane. -/
  | pack (f : CellF)
  /-- SEL, R186: Cell selects whole lanes by a predicate. -/
  | sel (n : Nat) (f : CellF)
  /-- CEQ, R187: Cell compares lanes for equality into a predicate or control output. -/
  | ceq (f : CellF)
  /-- CNE, R187: Cell compares lanes for inequality. -/
  | cne (f : CellF)
  /-- CLT, R187: Cell compares lanes signed less-than. -/
  | clt (f : CellF)
  /-- CLE, R187: Cell compares lanes signed less-or-equal. -/
  | cle (f : CellF)
  /-- CLTU, R187: Cell compares lanes unsigned less-than. -/
  | cltu (f : CellF)
  /-- CLEU, R187: Cell compares lanes unsigned less-or-equal. -/
  | cleu (f : CellF)
  /-- FADD, R189: Cell adds FW40 lanes with one rounding. -/
  | fadd (f : CellF)
  /-- FSUB, R189: Cell subtracts FW40 lanes. -/
  | fsub (f : CellF)
  /-- FMUL, R189: Cell multiplies FW40 lanes, applying a bound scale. -/
  | fmul (f : CellF)
  /-- FMA, R189: Cell computes a times b plus c with one rounding. -/
  | fma (f : CellF)
  /-- FMS, R189: Cell computes a times b minus c with one rounding. -/
  | fms (f : CellF)
  /-- FMIN, R190: Cell takes the FW40 minimum. -/
  | fmin (f : CellF)
  /-- FMAX, R190: Cell takes the FW40 maximum. -/
  | fmax (f : CellF)
  /-- FAMN, R191: Cell takes the minimum of a sum and a bound with one rounding. -/
  | famn (f : CellF)
  /-- FABS, R192: Cell clears the sign of FW40 lanes. -/
  | fabs (f : CellF)
  /-- FNEG, R192: Cell inverts the sign of FW40 lanes. -/
  | fneg (f : CellF)
  /-- FRCP, R193: Cell computes the correctly rounded reciprocal. -/
  | frcp (f : CellF)
  /-- FRSQ, R193: Cell computes the correctly rounded reciprocal square root. -/
  | frsq (f : CellF)
  /-- FEXP2, R194: Cell computes CEXP2 of ToQ824 of its operand. -/
  | fexp2 (f : CellF)
  /-- FLOG2, R195: Cell computes the correctly rounded base-2 logarithm. -/
  | flog2 (f : CellF)
  /-- FRND, R196: Cell rounds FW40 lanes to integral values. -/
  | frnd (f : CellF)
  /-- FCEQ, R197: Cell compares FW40 lanes for equality. -/
  | fceq (f : CellF)
  /-- FCLT, R197: Cell compares FW40 lanes less-than. -/
  | fclt (f : CellF)
  /-- FCLE, R197: Cell compares FW40 lanes less-or-equal. -/
  | fcle (f : CellF)
  /-- FCUN, R197: Cell tests FW40 lanes for unordered operands. -/
  | fcun (f : CellF)
  /-- FCVTI, R198: Cell converts FW40 to a 32-bit integer lane. -/
  | fcvti (f : CellF)
  /-- ICVTF, R198: Cell converts a signed integer lane to FW40. -/
  | icvtf (f : CellF)
  /-- UCVTF, R198: Cell converts an unsigned integer lane to FW40. -/
  | ucvtf (f : CellF)
  /-- LSHL, R199: Cell shifts a token down one lane across a boundary with another token. -/
  | lshl (f : CellF)
  /-- LSHR, R199: Cell shifts a token up one lane across a boundary with another token. -/
  | lshr (f : CellF)
  /-- LBC, R200: Cell broadcasts the lowest executing lane to all lanes. -/
  | lbc (f : CellF)
  /-- LRED_ADD, R201: Cell reduces executing lanes by integer add over a fixed tree. -/
  | lredAdd (f : CellF)
  /-- LRED_MIN, R201: Cell reduces executing lanes by signed minimum. -/
  | lredMin (f : CellF)
  /-- LRED_MAX, R201: Cell reduces executing lanes by signed maximum. -/
  | lredMax (f : CellF)
  /-- LRED_FADD, R201: Cell reduces executing lanes by FADD over a fixed tree. -/
  | lredFadd (f : CellF)
  /-- LRED_FMIN, R201: Cell reduces executing lanes by FMIN. -/
  | lredFmin (f : CellF)
  /-- LRED_FMAX, R201: Cell reduces executing lanes by FMAX. -/
  | lredFmax (f : CellF)
  /-- SCAN_ADD, R202: Cell computes an inclusive integer prefix sum. -/
  | scanAdd (f : CellF)
  /-- SCAN_MAX, R202: Cell computes an inclusive signed prefix maximum. -/
  | scanMax (f : CellF)
  /-- SCAN_FADD, R202: Cell computes an inclusive FW40 prefix sum. -/
  | scanFadd (f : CellF)
  /-- SCAN_FMAX, R202: Cell computes an inclusive FW40 prefix maximum. -/
  | scanFmax (f : CellF)
  /-- QAPP, R203: Cell appends executing lanes to a tile-window queue with one atomic header update. -/
  | qapp (f : CellF)
  /-- MOV, R208: Cell moves all 40 bits of each lane unchanged. -/
  | mov (f : CellF)
  /-- LIT, R208: Cell writes a sign-extended immediate, optionally plus the lane number. -/
  | lit (f : CellF)
  /-- STEER, R209: Cell routes lanes to two destinations by a predicate. -/
  | steer (f : CellF)
  /-- STEER_CTL, R209: Cell routes a whole token to one of two destinations by a control token. -/
  | steerCtl (f : CellF)
  /-- MERGE, R210: Cell takes one of two heads as a control token selects. -/
  | merge (f : CellF)
  /-- CTOK, R212: Cell sends a control token of an immediate value. -/
  | ctok (f : CellF)
  /-- CREC, R212: Cell pops a control token into a predicate. -/
  | crec (f : CellF)
  /-- DROP, R211: Cell performs only its trigger's pops and done action. -/
  | drop (f : CellF)
  /-- TAG, R208: Cell moves lanes and sets the token tag from an operand. -/
  | tag (f : CellF)
  /-- DONE, R211: Cell returns a done token to a loop body. -/
  | done (f : CellF)
  /-- LDS_I, R213: Cell loads integer elements from its tile window per lane. -/
  | ldsI (f : CellF)
  /-- LDS_F, R213: Cell loads FW40 containers from its tile window per lane. -/
  | ldsF (f : CellF)
  /-- STS_I, R213: Cell stores integer elements to its tile window per lane. -/
  | stsI (f : CellF)
  /-- STS_F, R213: Cell stores FW40 containers to its tile window per lane. -/
  | stsF (f : CellF)
  /-- UPD_ADD, R216: Cell sends a wrapping add update per lane to an owner cell. -/
  | updAdd (f : CellF)
  /-- UPD_FADD, R216: Cell sends an FW40 add update per lane to an owner cell. -/
  | updFadd (f : CellF)
  /-- UPD_MIN, R216: Cell sends a signed minimum update per lane. -/
  | updMin (f : CellF)
  /-- UPD_MAX, R216: Cell sends a signed maximum update per lane. -/
  | updMax (f : CellF)
  /-- UPD_OR, R216: Cell sends an OR update per lane. -/
  | updOr (f : CellF)
  /-- UPD_TAS, R216: Cell sends a test-and-set update per lane. -/
  | updTas (f : CellF)
  /-- OWN, R215: Cell claims or releases an owner range of the tile directory. -/
  | own (f : CellF)
  /-- ORDT, R219: Cell requests an ordering token after its earlier memory firings. -/
  | ordt (f : CellF)
  /-- SYSM, R220: Cell enables systolic mode with a descriptor. -/
  | sysm (f : CellF)
  /-- SYSM_OFF, R220: Cell ends systolic mode when no beat is in progress. -/
  | sysmOff (f : CellF)
  /-- LDSW, R223: Cell loads a row or scales into its shadow weight plane, or forwards when full. -/
  | ldsw (f : CellF)
  /-- PSWP, R224: Cell exchanges active and shadow weight planes. -/
  | pswp (f : CellF)
  /-- SCL, R225: Cell binds sources to scale latches, optionally resetting them. -/
  | scl (f : CellF)
  /-- TMRG, R226: Cell merges two streamed attention triples. -/
  | tmrg (f : CellF)
  /-- ECMD, R227: Cell sends a 40-byte command to its bound engine queue. -/
  | ecmd (f : CellF)
  /-- CSWEEP, R229: The region's north-west cell starts a configuration sweep. -/
  | csweep (f : CellF)
  /-- CELL_TRAP, R230: Cell traps with cause software and a code. -/
  | cellTrap (f : CellF)
  /-- CELL_HALT, R230: Cell halts after its trigger's pops. -/
  | cellHalt (f : CellF)
  /-- FLGR, R231: Cell reads its sticky flags into lanes. -/
  | flgr (f : CellF)
  /-- FLGC, R231: Cell clears sticky flags by a mask. -/
  | flgc (f : CellF)
  /-- REGISTER, R306: Front end registers an RCB and, for operators, validates and stores the image. -/
  | register (e : Entry)
  /-- PLACE, R311: Front end assigns an operator a region, banks and a hamper slot. -/
  | place (e : Entry)
  /-- INJECT, R308: Front end sends host records to a route entry of a job. -/
  | inject (e : Entry)
  /-- WBUILD_COMMAND, R303: Front end runs WBUILD for a job from a submission entry. -/
  | wbuildCommand (e : Entry)
  /-- WSWITCH_COMMAND, R303: Front end runs WSWITCH for a job from a submission entry. -/
  | wswitchCommand (e : Entry)
  /-- COPY_COMMAND, R303: Front end runs COPY for a job from a submission entry. -/
  | copyCommand (e : Entry)
  /-- TIMED, R326: Front end holds an embedded command until a device time. -/
  | timed (e : Entry)
  /-- QUERY_TILE_STATES, R309: QUERY kind 0 writes the state of every physical tile. -/
  | queryTileStates (e : Entry)
  /-- QUERY_PLACEMENT, R309: QUERY kind 1 writes an operator's placement record. -/
  | queryPlacement (e : Entry)
  /-- QUERY_RCB_USAGE, R309: QUERY kind 2 writes an RCB's usage words. -/
  | queryRcbUsage (e : Entry)
  /-- QUERY_TIME, R309: QUERY kind 3 writes device time. -/
  | queryTime (e : Entry)
  /-- UNPLACE, R315: Front end removes a placement and releases its resources. -/
  | unplace (e : Entry)
  /-- SQ_DOORBELL, R373: A write to SQDB advances a submission tail as a completion flag, or disables the queue. -/
  | sqDoorbell
  /-- CQ_DOORBELL, R371: A write to CQDB frees completion entries and lets stopped queues start. -/
  | cqDoorbell
  /-- QUEUE_DESCRIPTOR_WRITE, R371: Writing word 1 of a queue descriptor enables or disables the queue. -/
  | queueDescriptorWrite
  /-- INVREQ_TRANSLATION, R375: An INVREQ of kind 1 requests invalidation of translations and windows. -/
  | invreqTranslation
  /-- INVREQ_HANDLE, R375: An INVREQ of kind 2 requests invalidation of handle entries. -/
  | invreqHandle
  /-- INVREQ_BOTH, R375: An INVREQ of kind 3 requests invalidation of both. -/
  | invreqBoth
  /-- VSROOT_WRITE, R374: A write to VSROOT changes the VI-stage root as a translation change. -/
  | vsrootWrite
  /-- HSROOT_WRITE, R374: A write to HSROOT changes the host-stage root as a translation change. -/
  | hsrootWrite
  /-- WINDOW_DESCRIPTOR_WRITE, R376: VI 0 writes a window descriptor, refused or accepted under R110. -/
  | windowDescriptorWrite
  /-- VICTL_WRITE, R376: VI 0 enables, disables or halts a VI's function and queues. -/
  | victlWrite
  /-- DOMCTL_RELEASE, R394: A DOMCTL write lifts the hold on a fault domain. -/
  | domctlRelease
  /-- DOMCTL_RESUME, R405: A DOMCTL write restarts every trapped instance of a domain. -/
  | domctlResume
  /-- DOMCTL_ABORT, R405: A DOMCTL write ends every trapped instance of a domain and retires orphaned rows. -/
  | domctlAbort
  /-- TILECMD_WITHDRAW, R398: TILECMD op 1 withdraws a tile, ejecting and unplacing its operators. -/
  | tilecmdWithdraw
  /-- TILECMD_ADMIT, R398: TILECMD op 2 admits a spare tile for placement. -/
  | tilecmdAdmit
  /-- TILECMD_RESTART, R398: TILECMD op 3 restarts a halted tile core. -/
  | tilecmdRestart
  /-- TADJ_SLEW, R381: A TADJ slew runs device time fast or slow until the amount is absorbed. -/
  | tadjSlew
  /-- TADJ_STEP, R381: A TADJ step adds a positive amount in one cycle, releasing passed holds. -/
  | tadjStep
  /-- ATTESTATION, R384: An ATTCTL write makes the active complex sign and write an attestation report. -/
  | attestation
  /-- LNKCTL_WRITE, R379: A write to LNKCTL enables or disables Renulun ports for training. -/
  | lnkctlWrite
  /-- FWCTL_START, R449: FWCTL op 1 starts a firmware update with verification and canary. -/
  | fwctlStart
  /-- FWCTL_COMMIT, R449: FWCTL op 2 commits the update now. -/
  | fwctlCommit
  /-- FWCTL_REVERT, R449: FWCTL op 3 reverts the update now. -/
  | fwctlRevert
  /-- REGISTER_WRITE, R369: A write to a register with no row of its own updates its field or is ignored. -/
  | registerWrite
  /-- CODE_TABLE_APPLY, R129: An address generator applies held entry writes and CTSWs once earlier streams end. -/
  | codeTableApply (tile ag : Nat)
  /-- TASK_LAUNCH, R327: An arrival starts a task instance 60 cycles later once the operator is loaded, a slot is free and
  the tag unblocked. -/
  | taskLaunch (tile tag : Nat)
  /-- THOLD_EXPIRY, R266: Device time reaching a THOLD's time raises its arrival. -/
  | tholdExpiry (tile idx : Nat)
  /-- SYSC_REPLY, R268: The front end's reply to a SYSC arrives on its tag. -/
  | syscReply (idx : Nat)
  /-- HAMPER_RECORD_ARRIVAL, R41: A record arrives at a hamper and is placed in the forming tile or a draft group. -/
  | hamperRecordArrival (idx : Nat)
  /-- HAMPER_ADMIT, R40: A record waiting in the die network enters the hamper as space frees. -/
  | hamperAdmit (pk : Nat)
  /-- HAMPER_TIMEOUT, R42: A forming tile's timeout expires and the tile closes. -/
  | hamperTimeout (pk : Nat)
  /-- DRAFT_GROUP_TIMEOUT, R41: A draft group still collecting after timeout is closed short and placed. -/
  | draftGroupTimeout (pk seqSlot : Nat)
  /-- HAMPER_FIRE, R46: A closed tile fires as a row group when a set index is free, loading uniform registers. -/
  | hamperFire (pk : Nat)
  /-- ROTATION_SLOT, R43: A rotation-fed operator's slot begins, firing up to boarding closed tiles on one plane. -/
  | rotationSlot (die : Nat)
  /-- ROUTE_TAG_DELIVERY, R250: A record sent to a route tag is delivered as a one-row firing when a set is free. -/
  | routeTagDelivery (idx : Nat)
  /-- HAMPER_STARVED, R428: A closed tile unfired after 65,536 µs writes a starved record. -/
  | hamperStarved (pk idx : Nat)
  /-- SCHEDULER_EVALUATION, R317: A freed region slot is evaluated and the highest-scoring operator loaded or restored. -/
  | schedulerEvaluation (anchor : Nat)
  /-- PREEMPTION, R323: The scheduler pre-empts a class 2 or 3 operator for class 0 work, evicting it if needed. -/
  | preemption (anchor : Nat)
  /-- SCALE_LATCH, R90: A scale token at a bound source is popped into its latch without a firing. -/
  | scaleLatch (tile cell latch : Nat)
  /-- SYSTOLIC_BEAT, R222: The systolic path accepts a beat and north partial and emits a partial. -/
  | systolicBeat (tile cell : Nat)
  /-- OWNER_UPDATE_APPLY, R217: An owner cell applies one arriving update and returns the old value. -/
  | ownerUpdateApply (tile cell : Nat)
  /-- ORDERING_TOKEN_EMIT, R219: An ordering token is emitted once every earlier memory firing of the cell is performed. -/
  | orderingTokenEmit (tile cell idx : Nat)
  /-- SPILL_RING_REFILL, R122: A token moves from a spill ring's head into its channel when the channel has space. -/
  | spillRingRefill (tile cell dir : Nat)
  /-- CELL_SWITCH, R63: A cell switches context when the sweep has reached it and, in drain mode, it is drained. -/
  | cellSwitch (tile cell : Nat)
  /-- LCU_RELEASE, R58: The loop-control unit releases the next iteration or ends the body after all done tokens. -/
  | lcuRelease (tile slot body : Nat)
  /-- DRAIN_STALL, R407: A drain switch pending 65,536 cycles writes a record. -/
  | drainStall (tile cell : Nat)
  /-- REGION_STALL, R408: A region with no firing or movement for 2^20 cycles writes a record. -/
  | regionStall (anchor : Nat)
  /-- STREAM_START, R257: A queued stream starts at its AG's queue head after popping its handoff token. -/
  | streamStart (tile ag : Nat)
  /-- STREAM_TRANSFER, R254: An address generator moves the next token or element group when the channel has space. -/
  | streamTransfer (tile ag : Nat)
  /-- STREAM_COMPLETION, R257: A stream completes, pushing its handoff token, ORing status and doing its done action. -/
  | streamCompletion (tile ag : Nat)
  /-- COMMAND_START, R275: An engine queue starts its head command after its handoff pop and the engine accepts it. -/
  | commandStart (tile slot q : Nat)
  /-- COMMAND_COMPLETION, R276: An engine command completes, pushing its handoff token and doing its done action. -/
  | commandCompletion (id : Nat)
  /-- PAGE_TIMEOUT, R417: A page-absent stall reaching page_timeout fails its access. -/
  | pageTimeout (id : Nat)
  /-- COLLECTIVE_RESULT, R432: A party holding all P contributions writes its result whole. -/
  | collectiveResult (id : Nat)
  /-- COLLECTIVE_TIMEOUT, R431: A party's collective clock expires and it completes with an error. -/
  | collectiveTimeout (id : Nat)
  /-- WSWITCH_DRAINED, R300: A WSWITCH completes when no old-generation record remains in the stage. -/
  | wswitchDrained (id : Nat)
  /-- SWITCH_WAITING, R435: A WSWITCH still waiting after 100 ms writes a record. -/
  | switchWaiting (id : Nat)
  /-- ENGINE_FAILED, R433: A cellar engine fails, writing a severity-3 record and ending work that needs it. -/
  | engineFailed (stack channel : Nat)
  /-- BANK_TRANSITION_COMPLETE, R117: A bank finishes its mode transition and its completion arrives. -/
  | bankTransitionComplete (tile bank : Nat)
  /-- CFGL_COMPLETE, R261: A configuration load finishes and its completion arrives. -/
  | cfglComplete (tile : Nat)
  /-- TIMED_LAUNCH, R326: Device time reaches a TIMED stamp and the embedded command starts. -/
  | timedLaunch (idx : Nat)
  /-- COMMAND_SERVICE, R304: The front end starts the next command of a served queue when its previous command has completed. -/
  | commandService (vi : Nat)
  /-- MSIX_MESSAGE, R371: A vector sends one coalesced MSI-X message after the rate interval. -/
  | msixMessage (vi vec : Nat)
  /-- INVALIDATION_COMPLETE, R375: An invalidation request completes and INVDONE reads its sequence. -/
  | invalidationComplete (vi : Nat)
  /-- BAR2_ACCESS, R372: A host access at BAR2 reaches the VI's device-virtual space through window and translation checks. -/
  | bar2Access (r : BarAccess)
  /-- COMPLETION_FLAG_FORWARD, R147: The ordering point forwards a completion flag once earlier writes are acknowledged. -/
  | completionFlagForward (port vi : Nat)
  /-- ACK_LOST, R441: A route's acknowledgement outstanding for 100 µs is counted lost. -/
  | ackLost (port vi : Nat)
  /-- HOST_READ_TIMEOUT, R440: A device read of host memory unanswered for 50 ms fails. -/
  | hostReadTimeout (vi sq : Nat)
  /-- HOST_PORT_DOWN, R440: A host port goes down and its host-memory queues are disabled. -/
  | hostPortDown (port : Nat)
  /-- LINK_TRAINED, R379: A Renulun port completes training and sets its LNKSTAT bit. -/
  | linkTrained (port : Nat)
  /-- LINK_TRAINING_LOST, R446: A Renulun port loses training and traffic reroutes. -/
  | linkTrainingLost (port : Nat)
  /-- FLIT_DROP, R445: An uncorrectable flit is dropped and its transactions fail. -/
  | flitDrop (port pkg : Nat)
  /-- REMOTE_TIMEOUT, R445: A remote access with no response within 20 µs fails. -/
  | remoteTimeout (port pkg : Nat)
  /-- ATTIC_LINK_DOWN, R444: An attic link goes down and later attic transfers fail. -/
  | atticLinkDown (link : Nat)
  /-- PTP_MESSAGE, R380: The link time slave takes a PTP message and corrects device time. -/
  | ptpMessage (m : PtpMsg)
  /-- TIME_SOURCE_LOST, R447: No Sync for 3 s clears time_locked and lets the counter run free. -/
  | timeSourceLost
  /-- TIME_RELOCK, R447: A master heard again is re-locked by slew or forward step. -/
  | timeRelock (off : Int)
  /-- THROTTLE, R386: Power over PCAP in 1 ms inserts idle cycles and sets throttle. -/
  | throttle (watts : Nat)
  /-- POWER_STATE_CHANGE, R386: A function enters D3hot or returns to D0, stopping or resuming queues. -/
  | powerStateChange (vi : Nat) (d3 : Bool)
  /-- BOOT, R382: At reset the boot ROMs verify and start firmware and bring the part to ready. -/
  | boot
  /-- SELF_TEST, R396: Every 60 s the active complex tests unplaced enabled tiles and spares. -/
  | selfTest (failed : List Nat)
  /-- CANARY_WINDOW_END, R449: The canary window ends and the update commits. -/
  | canaryWindowEnd
  /-- HEARTBEAT_LOST, R449: The standby misses heartbeats for 10 ms and the update reverts. -/
  | heartbeatLost
  /-- CANARY_COMMAND_HUNG, R449: A canary command in execution for 100 ms reverts the update. -/
  | canaryCommandHung
  /-- STANDBY_ASSERTION, R449: The standby raises an assertion and the update reverts. -/
  | standbyAssertion
  /-- COMPLEX_TAKEOVER, R450: The standby takes over 10 ms after the active complex fails, interrupting started commands. -/
  | complexTakeover
  /-- STANDBY_IMAGE_CHECKED, R449: The standby complex finishes checking and booting the new image, moving FWSTAT from
  verifying to canary (or refused) and taking the canary queues. -/
  | standbyImageChecked
  /-- POWER_BELOW_CAP, R386: Measured power falls below PCAP, idle-cycle insertion stops and DEVSTAT.throttle clears. -/
  | powerBelowCap (watts : Nat)
  /-- ROTATION_SLICE_DELIVERY, R321: The die's rotation slice delivers the next part of an operator's weight planes to its
  region when the region accepts it, ending the slot after the last plane. -/
  | rotationSliceDelivery (die : Nat)
  /-- COLLECTIVE_CONTRIBUTION, R291: A contribution from another party reaches a collective engine over the bridges or
  Renulun ring and is held and passed on along the ring. -/
  | collectiveContribution (id idx : Nat)
  deriving DecidableEq, Repr, Inhabited

/-- One entry of the agenda: the agent that moves next, or what the outside world does. The spec orders these only by the
promises of R66 (log 1). `core`, `cell` and `command` select a tile core, a cell and a front-end core, whose own state
holds the instruction; `ev` names an event of the table; `updMove` carries updates from a sender's output to an owner's
input (R424); `tick` lets cycles of the 940 MHz clock pass (R3). The other moves are the host interface: host software's
own memory, a driver's write of a handle entry (R119), a BAR0 register write (R369), an acknowledgement of a home die
(R147), ECC events (R396, R419, R420), the write-back of a die cache's sector (R115), and a contribution of a party on
another package (R291). -/
inductive Move where
  | core (tile : Nat)
  | cell (tile cell : Nat)
  | command (idx : Nat)
  | ev (i : Instr)
  | updMove (tile cell : Nat)
  | tick (cycles : Nat)
  | hostMem (vi addr : Nat) (data : List Byte)
  | handleWrite (vi idx : Nat) (w0 w1 w2 w3 : Word)
  | regWrite (vi port off : Nat) (v : Word)
  /-- A write of a BAR0 register whose TLP is poisoned (R440). -/
  | regPoison (vi port off : Nat)
  | ackWrite (port vi idx : Nat)
  | eccBad (key : Nat)
  | eccDie (key : Nat)
  | dieClean (key : Nat)
  /-- The next unit of a running command's work (R131, R145). -/
  | cmdWork (id : Nat)
  | eccCache (tile line sector : Nat)
  | corrected (unit idx : Nat)
  | remoteParty (vi job group p k idx : Nat) (data : List Word)
  /-- The command of TILECMD has finished (R398). -/
  | tilecmdDone
  /-- A read of a BAR0 register by the host (R369). -/
  | regRead (vi port off : Nat)
  /-- A read of a queue in host memory returns poison or an error completion, with its AER bit (R440). -/
  | hostReadError (vi sq bit : Nat)
  /-- Transfers in flight on an attic link meet poison or a time-out (R444). -/
  | atticTimeout (link : Nat)
  /-- The slave clock sends a Delay_Req on its port (R380). -/
  | ptpDelayReq
  /-- The senders of a tile that a full arrival store held go on (R52). -/
  | senders (tile : Nat)
  /-- The standby complex takes a copy of the state table (R301). -/
  | tableCopy
  deriving DecidableEq, Repr, Inhabited

end Sys2Proof
end

