-- ==== Sys2Proof/Machine/Encoding.lean ====
section
/-! DEFINITION. The encoding tables: the word of each tile-core instruction (R164 to R168, R237 to R271), the opcode
and the field rules of each cell instruction (R150 to R158, R170, R206, R207), and the register maps that decide
which system registers (R234) and which submission entries (R303) are well formed. -/

namespace Sys2Proof

/-- Why a word does not decode. The names follow the refusals of R170 and R303. -/
inductive DecodeError where
  | reservedOpcode | unusedField | badOperand | unusedSlot | triggerReserved | missingNeed
  | popWithoutNeed | badPredicate | badTagTest | badTagAction | badTrigger | badCommand
  deriving DecidableEq, Repr, Inhabited

/-- System registers that CSRR may name (R234); a write-only one reads zero. -/
def csrReadable (c : Nat) : Bool :=
  decide (c ≤ 3) || c == 0x10 || c == 0x40 || c == 0x41 || (decide (0x80 ≤ c) && decide (c ≤ 0x87)) ||
  (decide (0x90 ≤ c) && decide (c ≤ 0x97)) || (decide (0xA0 ≤ c) && decide (c ≤ 0xA3)) || c == 0xA8 ||
  (decide (0x100 ≤ c) && decide (c ≤ 0x17F)) || (decide (0x200 ≤ c) && decide (c ≤ 0x23F))

/-- System registers that CSRW may name and that have no row of their own (R234). -/
def csrWritable (c : Nat) : Bool :=
  c == 0x10 || (decide (0x80 ≤ c) && decide (c ≤ 0x87)) || (decide (0x90 ≤ c) && decide (c ≤ 0x97)) ||
  (decide (0x200 ≤ c) && decide (c ≤ 0x23F))

/-- A word of formats R, M, MQ and MA (R164). -/
def wordR (op d a b x : Nat) : Nat := op * 2 ^ 24 + d * 2 ^ 19 + a * 2 ^ 14 + b * 2 ^ 9 + x

/-- A word of formats I and IS (R164): the low 14 bits whole. -/
def wordI (op d a x : Nat) : Nat := op * 2 ^ 24 + d * 2 ^ 19 + a * 2 ^ 14 + x

/-- A word of format K (R164). -/
def wordK (op g a b : Nat) : Nat := op * 2 ^ 24 + g * 2 ^ 19 + a * 2 ^ 11 + b * 2 ^ 3

/-- A word of format B (R164). -/
def wordB (op c g n : Nat) : Nat := op * 2 ^ 24 + c * 2 ^ 20 + g * 2 ^ 15 + n

/-- The 32-bit word of a tile-core instruction, from the format tables of R164 to R168. -/
def coreWord : Instr → Option Nat
  | .add d a b => some (wordR 0x1 d a b 0)
  | .sub d a b => some (wordR 0x2 d a b 0)
  | .mul d a b => some (wordR 0x3 d a b 0)
  | .mulh d a b => some (wordR 0x4 d a b 0)
  | .mulhu d a b => some (wordR 0x5 d a b 0)
  | .div d a b => some (wordR 0x6 d a b 0)
  | .divu d a b => some (wordR 0x7 d a b 0)
  | .rem d a b => some (wordR 0x8 d a b 0)
  | .remu d a b => some (wordR 0x9 d a b 0)
  | .and d a b => some (wordR 0xa d a b 0)
  | .or d a b => some (wordR 0xb d a b 0)
  | .xor d a b => some (wordR 0xc d a b 0)
  | .andn d a b => some (wordR 0xd d a b 0)
  | .shl d a b => some (wordR 0xe d a b 0)
  | .shr d a b => some (wordR 0xf d a b 0)
  | .sar d a b => some (wordR 0x10 d a b 0)
  | .rot d a b => some (wordR 0x11 d a b 0)
  | .clz d a => some (wordI 0x12 d a (0))
  | .popc d a => some (wordI 0x13 d a (0))
  | .cseq d a b => some (wordR 0x14 d a b 0)
  | .csne d a b => some (wordR 0x15 d a b 0)
  | .cslt d a b => some (wordR 0x16 d a b 0)
  | .csle d a b => some (wordR 0x17 d a b 0)
  | .csltu d a b => some (wordR 0x18 d a b 0)
  | .csleu d a b => some (wordR 0x19 d a b 0)
  | .adds d a b s => some (wordR 0x1a d a b (s))
  | .min d a b => some (wordR 0x1b d a b 0)
  | .max d a b => some (wordR 0x1c d a b 0)
  | .addi d a i => some (wordI 0x20 d a (i))
  | .andi d a i => some (wordI 0x21 d a (i))
  | .ori d a i => some (wordI 0x22 d a (i))
  | .xori d a i => some (wordI 0x23 d a (i))
  | .shli d a i => some (wordI 0x24 d a (i))
  | .shri d a i => some (wordI 0x25 d a (i))
  | .sari d a i => some (wordI 0x26 d a (i))
  | .cslti d a i => some (wordI 0x27 d a (i))
  | .cseqi d a i => some (wordI 0x28 d a (i))
  | .li d i => some (wordI 0x29 d 0 (i))
  | .kld g k => some (wordK 0x30 g k 0)
  | .kst g k => some (wordK 0x31 g k 0)
  | .kmov a b => some (wordK 0x32 0 a b)
  | .skip c g n => some (wordB 0x38 c g n)
  | .exit c g n => some (wordB 0x39 c g n)
  | .endI => some (wordI 0x3a 0 0 (0))
  | .snul l => some (wordI 0x3b 0 0 (l))
  | .gnul d => some (wordI 0x3c d 0 (0))
  | .pfx h => some (0x3d * 2 ^ 24 + h)
  | .ldB d a l i => some (wordR 0x40 d a l (i))
  | .ldH d a l i => some (wordR 0x41 d a l (i))
  | .ldW d a l i => some (wordR 0x42 d a l (i))
  | .ld d a l i => some (wordR 0x43 d a l (i))
  | .ldBu d a l i => some (wordR 0x44 d a l (i))
  | .ldHu d a l i => some (wordR 0x45 d a l (i))
  | .ldWu d a l i => some (wordR 0x46 d a l (i))
  | .stB s a l i => some (wordR 0x48 s a l (i))
  | .stH s a l i => some (wordR 0x49 s a l (i))
  | .stW s a l i => some (wordR 0x4a s a l (i))
  | .st s a l i => some (wordR 0x4b s a l (i))
  | .ldAcq d a l c i => some (wordR 0x4c d a l (c * 64 + i))
  | .stRel s a l c i => some (wordR 0x4d s a l (c * 64 + i))
  | .fenAcq l c => some (wordR 0x4e 0 0 l (c * 64))
  | .fenRel l c => some (wordR 0x4f 0 0 l (c * 64))
  | .amoAdd q d a l b c w => some (wordR (0x60 + q) d a l (b * 16 + c * 2 + w))
  | .amoMin q d a l b c w => some (wordR (0x64 + q) d a l (b * 16 + c * 2 + w))
  | .amoMax q d a l b c w => some (wordR (0x68 + q) d a l (b * 16 + c * 2 + w))
  | .amoAnd q d a l b c w => some (wordR (0x6c + q) d a l (b * 16 + c * 2 + w))
  | .amoOr q d a l b c w => some (wordR (0x70 + q) d a l (b * 16 + c * 2 + w))
  | .amoXor q d a l b c w => some (wordR (0x74 + q) d a l (b * 16 + c * 2 + w))
  | .amoXchg q d a l b c w => some (wordR (0x78 + q) d a l (b * 16 + c * 2 + w))
  | .amoCas q d a l b c w => some (wordR (0x7c + q) d a l (b * 16 + c * 2 + w))
  | .blkt t => some (wordI 0x80 0 0 (t * 256))
  | .ublkt t => some (wordI 0x81 0 0 (t * 256))
  | .send d a t => some (wordI 0x82 d a (t * 256))
  | .sendBo d a b => some (wordI 0x82 d a (b + 128))
  | .boset a t b => some (wordI 0x83 0 a (t * 256 + b))
  | .bosetClr a t b => some (wordI 0x83 0 a (t * 256 + b + 32))
  | .boarm b => some (wordI 0x84 0 0 (b))
  | .spawn p r i => some (wordI 0x88 p r (i))
  | .join t => some (wordI 0x89 0 0 (t * 256))
  | .rfwd a => some (wordI 0x8a 0 a (0))
  | .rfwdRet a => some (wordI 0x8a 0 a (1))
  | .strm a t n => some (wordI 0x90 0 a (t * 256 + n))
  | .strmTemplate a t p n => some (wordI 0x90 0 a (t * 256 + p * 16 + n + 8))
  | .sbar r t m => some (wordI 0x91 r 0 (t * 256 + m))
  | .cfgl t d c m => some (wordI 0x92 0 0 (t * 256 + d * 64 + c * 16 + m))
  | .cfgbank t m b => some (wordI 0x93 0 0 (t * 256 + m * 16 + b))
  | .ctsw a => some (wordI 0x94 0 0 (a))
  | .eqw a n => some (wordI 0x98 0 a (n))
  | .eqwPort a n => some (wordI 0x98 0 a (n + 128))
  | .copy a t n => some (wordI 0x99 0 a (t * 256 + n))
  | .publ a t n => some (wordI 0x9a 0 a (t * 256 + n))
  | .mv a t n => some (wordI 0xa0 0 a (t * 256 + n))
  | .scout a t n => some (wordI 0xa1 0 a (t * 256 + n))
  | .attn a t n => some (wordI 0xa2 0 a (t * 256 + n))
  | .iredGatherSum a t n => some (wordI 0xa3 0 a (t * 256 + n))
  | .iredGatherMax a t n => some (wordI 0xa3 0 a (t * 256 + n))
  | .iredAtomic a t n => some (wordI 0xa3 0 a (t * 256 + n))
  | .collTri a t n => some (wordI 0xa4 0 a (t * 256 + n))
  | .collSum a t n => some (wordI 0xa5 0 a (t * 256 + n))
  | .collMax a t n => some (wordI 0xa6 0 a (t * 256 + n))
  | .collGath a t n => some (wordI 0xa7 0 a (t * 256 + n))
  | .collSmp a t n => some (wordI 0xa8 0 a (t * 256 + n))
  | .sample a t n => some (wordI 0xa9 0 a (t * 256 + n))
  | .wbuild a t n => some (wordI 0xaa 0 a (t * 256 + n))
  | .wswitch a t n => some (wordI 0xab 0 a (t * 256 + n))
  | .promo a t n => some (wordI 0xac 0 a (t * 256 + n))
  | .promoDemote a t n => some (wordI 0xac 0 a (t * 256 + n))
  | .tnow d => some (wordI 0xb0 d 0 (0))
  | .thold a t => some (wordI 0xb1 0 a (t))
  | .csrr d c => some (wordI 0xb8 d 0 (c))
  | .csrw a c => some (wordI 0xb9 0 a (c))
  | .sysc a t c => some (wordI 0xba 0 a (t * 256 + c))
  | .eret a => some (wordI 0xbb 0 a (0))
  | .eretAbort a => some (wordI 0xbb 0 a (1))
  | .trap c => some (wordI 0xbc 0 0 (c))
  | .halt => some (wordI 0xbd 0 0 (0))
  | .lcugoWrite a body => some (wordI 0xB9 0 a (0xA0 + body))
  | .csweeptWrite a => some (wordI 0xB9 0 a (0xA8))
  | .cteWrite a ag e => some (wordI 0xB9 0 a (0x100 + 16 * ag + e))
  | _ => none

/-- Field ranges of a tile-core instruction: the widths of R164 and the refusals of R170, R230 to R271. -/
def coreOk : Instr → Bool
  | .add d a b => decide (d < 32 ∧ a < 32 ∧ b < 32)
  | .sub d a b => decide (d < 32 ∧ a < 32 ∧ b < 32)
  | .mul d a b => decide (d < 32 ∧ a < 32 ∧ b < 32)
  | .mulh d a b => decide (d < 32 ∧ a < 32 ∧ b < 32)
  | .mulhu d a b => decide (d < 32 ∧ a < 32 ∧ b < 32)
  | .div d a b => decide (d < 32 ∧ a < 32 ∧ b < 32)
  | .divu d a b => decide (d < 32 ∧ a < 32 ∧ b < 32)
  | .rem d a b => decide (d < 32 ∧ a < 32 ∧ b < 32)
  | .remu d a b => decide (d < 32 ∧ a < 32 ∧ b < 32)
  | .and d a b => decide (d < 32 ∧ a < 32 ∧ b < 32)
  | .or d a b => decide (d < 32 ∧ a < 32 ∧ b < 32)
  | .xor d a b => decide (d < 32 ∧ a < 32 ∧ b < 32)
  | .andn d a b => decide (d < 32 ∧ a < 32 ∧ b < 32)
  | .shl d a b => decide (d < 32 ∧ a < 32 ∧ b < 32)
  | .shr d a b => decide (d < 32 ∧ a < 32 ∧ b < 32)
  | .sar d a b => decide (d < 32 ∧ a < 32 ∧ b < 32)
  | .rot d a b => decide (d < 32 ∧ a < 32 ∧ b < 32)
  | .clz d a => decide (d < 32 ∧ a < 32)
  | .popc d a => decide (d < 32 ∧ a < 32)
  | .cseq d a b => decide (d < 32 ∧ a < 32 ∧ b < 32)
  | .csne d a b => decide (d < 32 ∧ a < 32 ∧ b < 32)
  | .cslt d a b => decide (d < 32 ∧ a < 32 ∧ b < 32)
  | .csle d a b => decide (d < 32 ∧ a < 32 ∧ b < 32)
  | .csltu d a b => decide (d < 32 ∧ a < 32 ∧ b < 32)
  | .csleu d a b => decide (d < 32 ∧ a < 32 ∧ b < 32)
  | .adds d a b s => decide (d < 32 ∧ a < 32 ∧ b < 32 ∧ s < 4)
  | .min d a b => decide (d < 32 ∧ a < 32 ∧ b < 32)
  | .max d a b => decide (d < 32 ∧ a < 32 ∧ b < 32)
  | .addi d a i => decide (d < 32 ∧ a < 32 ∧ i < 16384)
  | .andi d a i => decide (d < 32 ∧ a < 32 ∧ i < 16384)
  | .ori d a i => decide (d < 32 ∧ a < 32 ∧ i < 16384)
  | .xori d a i => decide (d < 32 ∧ a < 32 ∧ i < 16384)
  | .shli d a i => decide (d < 32 ∧ a < 32 ∧ i < 64)
  | .shri d a i => decide (d < 32 ∧ a < 32 ∧ i < 64)
  | .sari d a i => decide (d < 32 ∧ a < 32 ∧ i < 64)
  | .cslti d a i => decide (d < 32 ∧ a < 32 ∧ i < 16384)
  | .cseqi d a i => decide (d < 32 ∧ a < 32 ∧ i < 16384)
  | .li d i => decide (d < 32 ∧ i < 16384)
  | .kld g k => decide (g < 32 ∧ k < 256 ∧ k ≤ 159)
  | .kst g k => decide (g < 32 ∧ k < 256 ∧ k ≤ 159)
  | .kmov a b => decide (a < 256 ∧ b < 256 ∧ a ≤ 159 ∧ b ≤ 159)
  | .skip c g n => decide (c < 16 ∧ g < 32 ∧ n < 32768 ∧ c ≤ 6 ∧ (c = 0 → g = 0) ∧ 1 ≤ n)
  | .exit c g n => decide (c < 16 ∧ g < 32 ∧ n < 32768 ∧ c ≤ 6 ∧ (c = 0 → g = 0))
  | .endI => true
  | .snul l => decide (l < 32)
  | .gnul d => decide (d < 32)
  | .pfx h => decide (h < 16777216)
  | .ldB d a l i => decide (d < 32 ∧ a < 32 ∧ l < 32 ∧ i < 512)
  | .ldH d a l i => decide (d < 32 ∧ a < 32 ∧ l < 32 ∧ i < 512)
  | .ldW d a l i => decide (d < 32 ∧ a < 32 ∧ l < 32 ∧ i < 512)
  | .ld d a l i => decide (d < 32 ∧ a < 32 ∧ l < 32 ∧ i < 512)
  | .ldBu d a l i => decide (d < 32 ∧ a < 32 ∧ l < 32 ∧ i < 512)
  | .ldHu d a l i => decide (d < 32 ∧ a < 32 ∧ l < 32 ∧ i < 512)
  | .ldWu d a l i => decide (d < 32 ∧ a < 32 ∧ l < 32 ∧ i < 512)
  | .stB s a l i => decide (s < 32 ∧ a < 32 ∧ l < 32 ∧ i < 512)
  | .stH s a l i => decide (s < 32 ∧ a < 32 ∧ l < 32 ∧ i < 512)
  | .stW s a l i => decide (s < 32 ∧ a < 32 ∧ l < 32 ∧ i < 512)
  | .st s a l i => decide (s < 32 ∧ a < 32 ∧ l < 32 ∧ i < 512)
  | .ldAcq d a l c i => decide (d < 32 ∧ a < 32 ∧ l < 32 ∧ c < 8 ∧ i < 64 ∧ c ≤ 4)
  | .stRel s a l c i => decide (s < 32 ∧ a < 32 ∧ l < 32 ∧ c < 8 ∧ i < 64 ∧ c ≤ 4)
  | .fenAcq l c => decide (l < 32 ∧ c < 8 ∧ c ≤ 4)
  | .fenRel l c => decide (l < 32 ∧ c < 8 ∧ c ≤ 4)
  | .amoAdd q d a l b c w => decide (q < 4 ∧ d < 32 ∧ a < 32 ∧ l < 32 ∧ b < 32 ∧ c < 8 ∧ w < 2 ∧ c ≤ 4)
  | .amoMin q d a l b c w => decide (q < 4 ∧ d < 32 ∧ a < 32 ∧ l < 32 ∧ b < 32 ∧ c < 8 ∧ w < 2 ∧ c ≤ 4)
  | .amoMax q d a l b c w => decide (q < 4 ∧ d < 32 ∧ a < 32 ∧ l < 32 ∧ b < 32 ∧ c < 8 ∧ w < 2 ∧ c ≤ 4)
  | .amoAnd q d a l b c w => decide (q < 4 ∧ d < 32 ∧ a < 32 ∧ l < 32 ∧ b < 32 ∧ c < 8 ∧ w < 2 ∧ c ≤ 4)
  | .amoOr q d a l b c w => decide (q < 4 ∧ d < 32 ∧ a < 32 ∧ l < 32 ∧ b < 32 ∧ c < 8 ∧ w < 2 ∧ c ≤ 4)
  | .amoXor q d a l b c w => decide (q < 4 ∧ d < 32 ∧ a < 32 ∧ l < 32 ∧ b < 32 ∧ c < 8 ∧ w < 2 ∧ c ≤ 4)
  | .amoXchg q d a l b c w => decide (q < 4 ∧ d < 32 ∧ a < 32 ∧ l < 32 ∧ b < 32 ∧ c < 8 ∧ w < 2 ∧ c ≤ 4)
  | .amoCas q d a l b c w => decide (q < 4 ∧ d < 32 ∧ a < 32 ∧ l < 32 ∧ b < 32 ∧ c < 8 ∧ w < 2 ∧ c ≤ 4)
  | .blkt t => decide (t < 64)
  | .ublkt t => decide (t < 64)
  | .send d a t => decide (d < 32 ∧ a < 32 ∧ t < 64)
  | .sendBo d a b => decide (d < 32 ∧ a < 32 ∧ b < 32)
  | .boset a t b => decide (a < 32 ∧ t < 64 ∧ b < 32)
  | .bosetClr a t b => decide (a < 32 ∧ t < 64 ∧ b < 32)
  | .boarm b => decide (b < 32)
  | .spawn p r i => decide (p < 32 ∧ r < 32 ∧ i < 256 ∧ i ≤ 254)
  | .join t => decide (t < 64)
  | .rfwd a => decide (a < 32)
  | .rfwdRet a => decide (a < 32)
  | .strm a t n => decide (a < 32 ∧ t < 64 ∧ n < 8 ∧ a ≤ 28)
  | .strmTemplate a t p n => decide (a < 32 ∧ t < 64 ∧ p < 16 ∧ n < 8 ∧ a ≤ 30)
  | .sbar r t m => decide (r < 2 ∧ t < 64 ∧ m < 256 ∧ 1 ≤ m ∧ (r = 0 → t = 0))
  | .cfgl t d c m => decide (t < 64 ∧ d < 2 ∧ c < 4 ∧ m < 16 ∧ bitOf m c = true)
  | .cfgbank t m b => decide (t < 64 ∧ m < 4 ∧ b < 16 ∧ 1 ≤ t ∧ m ≤ 2 ∧ b ≤ 11)
  | .ctsw a => decide (a < 8)
  | .eqw a n => decide (a < 32 ∧ n < 8)
  | .eqwPort a n => decide (a < 32 ∧ n < 8)
  | .copy a t n => decide (a < 32 ∧ t < 64 ∧ n < 8 ∧ a ≤ 27)
  | .publ a t n => decide (a < 32 ∧ t < 64 ∧ n < 8 ∧ a ≤ 27)
  | .mv a t n => decide (a < 32 ∧ t < 64 ∧ n < 8 ∧ a ≤ 27)
  | .scout a t n => decide (a < 32 ∧ t < 64 ∧ n < 8 ∧ a ≤ 27)
  | .attn a t n => decide (a < 32 ∧ t < 64 ∧ n < 8 ∧ a ≤ 27)
  | .iredGatherSum a t n => decide (a < 32 ∧ t < 64 ∧ n < 8 ∧ a ≤ 27)
  | .iredGatherMax a t n => decide (a < 32 ∧ t < 64 ∧ n < 8 ∧ a ≤ 27)
  | .iredAtomic a t n => decide (a < 32 ∧ t < 64 ∧ n < 8 ∧ a ≤ 27)
  | .collTri a t n => decide (a < 32 ∧ t < 64 ∧ n < 8 ∧ a ≤ 27)
  | .collSum a t n => decide (a < 32 ∧ t < 64 ∧ n < 8 ∧ a ≤ 27)
  | .collMax a t n => decide (a < 32 ∧ t < 64 ∧ n < 8 ∧ a ≤ 27)
  | .collGath a t n => decide (a < 32 ∧ t < 64 ∧ n < 8 ∧ a ≤ 27)
  | .collSmp a t n => decide (a < 32 ∧ t < 64 ∧ n < 8 ∧ a ≤ 27)
  | .sample a t n => decide (a < 32 ∧ t < 64 ∧ n < 8 ∧ a ≤ 27)
  | .wbuild a t n => decide (a < 32 ∧ t < 64 ∧ n < 8 ∧ a ≤ 27)
  | .wswitch a t n => decide (a < 32 ∧ t < 64 ∧ n < 8 ∧ a ≤ 27)
  | .promo a t n => decide (a < 32 ∧ t < 64 ∧ n < 8 ∧ a ≤ 27)
  | .promoDemote a t n => decide (a < 32 ∧ t < 64 ∧ n < 8 ∧ a ≤ 27)
  | .tnow d => decide (d < 32)
  | .thold a t => decide (a < 32 ∧ t < 64)
  | .csrr d c => decide (d < 32 ∧ c < 16384 ∧ csrReadable c = true)
  | .csrw a c => decide (a < 32 ∧ c < 16384 ∧ csrWritable c = true)
  | .sysc a t c => decide (a < 32 ∧ t < 64 ∧ c < 256)
  | .eret a => decide (a < 32)
  | .eretAbort a => decide (a < 32)
  | .trap c => decide (c < 256)
  | .halt => true
  | .lcugoWrite a body => decide (a < 32 ∧ body < 4)
  | .csweeptWrite a => decide (a < 32)
  | .cteWrite a ag e => decide (a < 32 ∧ ag < 8 ∧ e < 16)
  | _ => true

/-- The opcode (R155, R207) and the fields of a cell instruction. -/
def cellParts : Instr → Option (Nat × CellF)
  | .cellAdd f => some (0x01, f)
  | .cellSub f => some (0x02, f)
  | .cellMul f => some (0x03, f)
  | .cellMulh f => some (0x04, f)
  | .cellAnd f => some (0x05, f)
  | .cellOr f => some (0x06, f)
  | .cellXor f => some (0x07, f)
  | .cellAndn f => some (0x08, f)
  | .cellShl f => some (0x09, f)
  | .cellShr f => some (0x0A, f)
  | .cellSar f => some (0x0B, f)
  | .cellRot f => some (0x0C, f)
  | .cellMin f => some (0x0D, f)
  | .cellMax f => some (0x0E, f)
  | .minu f => some (0x0F, f)
  | .maxu f => some (0x10, f)
  | .cellClz f => some (0x11, f)
  | .cellPopc f => some (0x12, f)
  | .bperm f => some (0x13, f)
  | .pack f => some (0x14, f)
  | .sel n f => some (0x18 + n, f)
  | .ceq f => some (0x20, f)
  | .cne f => some (0x21, f)
  | .clt f => some (0x22, f)
  | .cle f => some (0x23, f)
  | .cltu f => some (0x24, f)
  | .cleu f => some (0x25, f)
  | .fadd f => some (0x30, f)
  | .fsub f => some (0x31, f)
  | .fmul f => some (0x32, f)
  | .fma f => some (0x33, f)
  | .fms f => some (0x34, f)
  | .fmin f => some (0x35, f)
  | .fmax f => some (0x36, f)
  | .famn f => some (0x37, f)
  | .fabs f => some (0x38, f)
  | .fneg f => some (0x39, f)
  | .frcp f => some (0x3A, f)
  | .frsq f => some (0x3B, f)
  | .fexp2 f => some (0x3C, f)
  | .flog2 f => some (0x3D, f)
  | .frnd f => some (0x3E, f)
  | .fceq f => some (0x40, f)
  | .fclt f => some (0x41, f)
  | .fcle f => some (0x42, f)
  | .fcun f => some (0x43, f)
  | .fcvti f => some (0x48, f)
  | .icvtf f => some (0x49, f)
  | .ucvtf f => some (0x4A, f)
  | .lshl f => some (0x60, f)
  | .lshr f => some (0x61, f)
  | .lbc f => some (0x62, f)
  | .lredAdd f => some (0x64, f)
  | .lredMin f => some (0x65, f)
  | .lredMax f => some (0x66, f)
  | .lredFadd f => some (0x67, f)
  | .lredFmin f => some (0x68, f)
  | .lredFmax f => some (0x69, f)
  | .scanAdd f => some (0x6C, f)
  | .scanMax f => some (0x6D, f)
  | .scanFadd f => some (0x6E, f)
  | .scanFmax f => some (0x6F, f)
  | .qapp f => some (0x70, f)
  | .mov f => some (0x80, f)
  | .lit f => some (0x81, f)
  | .steer f => some (0x82, f)
  | .steerCtl f => some (0x82, f)
  | .merge f => some (0x83, f)
  | .ctok f => some (0x84, f)
  | .crec f => some (0x85, f)
  | .drop f => some (0x86, f)
  | .tag f => some (0x87, f)
  | .done f => some (0x88, f)
  | .ldsI f => some (0x90, f)
  | .ldsF f => some (0x91, f)
  | .stsI f => some (0x92, f)
  | .stsF f => some (0x93, f)
  | .updAdd f => some (0x94, f)
  | .updFadd f => some (0x95, f)
  | .updMin f => some (0x96, f)
  | .updMax f => some (0x97, f)
  | .updOr f => some (0x98, f)
  | .updTas f => some (0x99, f)
  | .own f => some (0x9A, f)
  | .ordt f => some (0x9B, f)
  | .sysm f => some (0xA0, f)
  | .sysmOff f => some (0xA0, f)
  | .ldsw f => some (0xA1, f)
  | .pswp f => some (0xA2, f)
  | .scl f => some (0xA3, f)
  | .tmrg f => some (0xA4, f)
  | .ecmd f => some (0xB0, f)
  | .csweep f => some (0xC0, f)
  | .cellTrap f => some (0xC1, f)
  | .cellHalt f => some (0xC2, f)
  | .flgr f => some (0xC3, f)
  | .flgc f => some (0xC4, f)
  | _ => none

/-- What a field of the operation word may hold (R152, R154, R207). -/
inductive FieldKind where
  | src | head | headOr15 | lit | litOr15 | unused15 | unused31
  | data | dataOr31 | pc | pcOr31 | ctl | ctlOr31 | pred | predOr31 | lqOr31 | cmd | srcC
  | upTo (n : Nat) | oneOf (a b : Nat) | any
  deriving DecidableEq, Repr, Inhabited

/-- Whether a field value is one its kind allows. -/
def fieldOk (k : FieldKind) (v : Nat) : Bool :=
  match k with
  | .src => decide (v < 32)
  | .srcC => decide (v < 32)
  | .any => decide (v < 32)
  | .head => decide (8 ≤ v ∧ v ≤ 13)
  | .headOr15 => decide (8 ≤ v ∧ v ≤ 13) || v == 15
  | .lit => decide (16 ≤ v ∧ v ≤ 31)
  | .litOr15 => decide (16 ≤ v ∧ v ≤ 31) || v == 15
  | .unused15 => v == 15
  | .unused31 => v == 31
  | .data => decide (v ≤ 13)
  | .dataOr31 => decide (v ≤ 13) || v == 31
  | .pc => decide (16 ≤ v ∧ v ≤ 21)
  | .pcOr31 => decide (16 ≤ v ∧ v ≤ 21) || v == 31
  | .ctl => decide (20 ≤ v ∧ v ≤ 21)
  | .ctlOr31 => decide (20 ≤ v ∧ v ≤ 21) || v == 31
  | .pred => decide (16 ≤ v ∧ v ≤ 19)
  | .predOr31 => decide (16 ≤ v ∧ v ≤ 19) || v == 31
  | .lqOr31 => v == 12 || v == 13 || v == 31
  | .cmd => v == 14
  | .upTo n => decide (v ≤ n)
  | .oneOf a b => v == a || v == b

/-- Whether a field of this kind names a source that is read (R206); SCL's heads are bound, not read (log 23). -/
def FieldKind.isSource : FieldKind → Bool
  | .src => true
  | .srcC => true
  | .head => true
  | _ => false

/-- Whether a field of this kind names a destination (R206). -/
def FieldKind.isDest : FieldKind → Bool
  | .data => true
  | .dataOr31 => true
  | .pc => true
  | .pcOr31 => true
  | .ctl => true
  | .ctlOr31 => true
  | .pred => true
  | .predOr31 => true
  | .lqOr31 => true
  | .cmd => true
  | _ => false

/-- The kinds of the four operand fields of a cell instruction. -/
structure CellForm where
  a : FieldKind
  b : FieldKind
  da : FieldKind
  db : FieldKind
  deriving DecidableEq, Repr, Inhabited

/-- Form B of R154. -/
def formB : CellForm := ⟨.src, .src, .data, .dataOr31⟩
/-- Form U of R154. -/
def formU : CellForm := ⟨.src, .unused15, .data, .dataOr31⟩
/-- Form T of R154. -/
def formT : CellForm := ⟨.src, .src, .data, .srcC⟩
/-- Form P of R154 and R182: its destinations are predicates and control outputs only, where the table of R152 would also allow
data outputs; a data destination is refused (log 110). DEDUCED (log 110). -/
def formP : CellForm := ⟨.src, .src, .pc, .pcOr31⟩

/-- The operand form of each cell opcode (R155, R156, R207); `srcB` and `srcA` tell STEER's and SYSM's two forms
apart. A reserved opcode has none. DEDUCED (log 23). DEDUCED (log 110). -/
def cellForm (op : Nat) : Option CellForm :=
  match op with
  | 0x01 => some formB
  | 0x02 => some formB
  | 0x03 => some formB
  | 0x04 => some formB
  | 0x05 => some formB
  | 0x06 => some formB
  | 0x07 => some formB
  | 0x08 => some formB
  | 0x09 => some formB
  | 0x0A => some formB
  | 0x0B => some formB
  | 0x0C => some formB
  | 0x0D => some formB
  | 0x0E => some formB
  | 0x0F => some formB
  | 0x10 => some formB
  | 0x11 => some formU
  | 0x12 => some formU
  | 0x13 => some formB
  | 0x14 => some formB
  | 0x18 => some formB
  | 0x19 => some formB
  | 0x1A => some formB
  | 0x1B => some formB
  | 0x20 => some formP
  | 0x21 => some formP
  | 0x22 => some formP
  | 0x23 => some formP
  | 0x24 => some formP
  | 0x25 => some formP
  | 0x30 => some formB
  | 0x31 => some formB
  | 0x32 => some formB
  | 0x33 => some formT
  | 0x34 => some formT
  | 0x35 => some formB
  | 0x36 => some formB
  | 0x37 => some formT
  | 0x38 => some formU
  | 0x39 => some formU
  | 0x3A => some formU
  | 0x3B => some formU
  | 0x3C => some formU
  | 0x3D => some formU
  | 0x3E => some formU
  | 0x40 => some formP
  | 0x41 => some formP
  | 0x42 => some formP
  | 0x43 => some formP
  | 0x48 => some formU
  | 0x49 => some formU
  | 0x4A => some formU
  | 0x60 => some formB
  | 0x61 => some formB
  | 0x62 => some formU
  | 0x64 => some formU
  | 0x65 => some formU
  | 0x66 => some formU
  | 0x67 => some formU
  | 0x68 => some formU
  | 0x69 => some formU
  | 0x6C => some formU
  | 0x6D => some formU
  | 0x6E => some formU
  | 0x6F => some formU
  | 0x70 => some ⟨.src, .lit, .data, .unused31⟩
  | 0x80 => some formU
  | 0x81 => some ⟨.any, .any, .data, .oneOf 31 0⟩
  | 0x82 => some ⟨.src, .upTo 4, .dataOr31, .dataOr31⟩
  | 0x83 => some ⟨.src, .src, .data, .unused31⟩
  | 0x84 => some ⟨.upTo 1, .unused15, .ctl, .ctlOr31⟩
  | 0x85 => some ⟨.upTo 1, .unused15, .pred, .predOr31⟩
  | 0x86 => some ⟨.src, .unused15, .unused31, .unused31⟩
  | 0x87 => some ⟨.src, .src, .data, .dataOr31⟩
  | 0x88 => some ⟨.upTo 3, .unused15, .unused31, .unused31⟩
  | 0x90 => some ⟨.src, .upTo 4, .data, .dataOr31⟩
  | 0x91 => some ⟨.src, .unused15, .data, .dataOr31⟩
  | 0x92 => some ⟨.src, .src, .upTo 2, .unused31⟩
  | 0x93 => some ⟨.src, .src, .unused31, .unused31⟩
  | 0x94 => some ⟨.src, .src, .lqOr31, .unused31⟩
  | 0x95 => some ⟨.src, .src, .lqOr31, .unused31⟩
  | 0x96 => some ⟨.src, .src, .lqOr31, .unused31⟩
  | 0x97 => some ⟨.src, .src, .lqOr31, .unused31⟩
  | 0x98 => some ⟨.src, .src, .lqOr31, .unused31⟩
  | 0x99 => some ⟨.src, .src, .lqOr31, .unused31⟩
  | 0x9A => some ⟨.lit, .unused15, .unused31, .unused31⟩
  | 0x9B => some ⟨.unused15, .unused15, .data, .dataOr31⟩
  | 0xA0 => some ⟨.litOr15, .unused15, .unused31, .unused31⟩
  | 0xA1 => some ⟨.head, .unused15, .dataOr31, .unused31⟩
  | 0xA2 => some ⟨.unused15, .unused15, .unused31, .unused31⟩
  | 0xA3 => some ⟨.headOr15, .headOr15, .oneOf 31 0, .unused31⟩
  | 0xA4 => some ⟨.head, .head, .data, .dataOr31⟩
  | 0xB0 => some ⟨.src, .unused15, .cmd, .unused31⟩
  | 0xC0 => some ⟨.upTo 3, .upTo 1, .unused31, .unused31⟩
  | 0xC1 => some ⟨.any, .unused15, .unused31, .unused31⟩
  | 0xC2 => some ⟨.unused15, .unused15, .unused31, .unused31⟩
  | 0xC3 => some ⟨.unused15, .unused15, .data, .dataOr31⟩
  | 0xC4 => some ⟨.any, .unused15, .unused31, .unused31⟩
  | _ => none

/-- The trigger fields of R157. -/
def CellF.need (f : CellF) : Nat := fld f.trig 19 14
def CellF.pop (f : CellF) : Nat := fld f.trig 13 8
def CellF.predCare (f : CellF) : Nat := fld f.trig 27 24
def CellF.predVal (f : CellF) : Nat := fld f.trig 23 20
def CellF.allLanes (f : CellF) : Bool := bitOf f.trig 30
def CellF.tagTest (f : CellF) : Bool := bitOf f.trig 5
def CellF.tagVal (f : CellF) : Nat := fld f.trig 7 6
def CellF.ctl (f : CellF) : Bool := bitOf f.trig 4
def CellF.ctlVal (f : CellF) : Bool := bitOf f.trig 3
def CellF.prio (f : CellF) : Nat := fld f.trig 2 0
/-- The tag_action fields of R153. -/
def CellF.done (f : CellF) : Bool := bitOf f.tagAct 3
def CellF.explicit (f : CellF) : Bool := bitOf f.tagAct 2
def CellF.tagNum (f : CellF) : Nat := fld f.tagAct 1 0

/-- Whether a source select names a head that needs its need bit (R158) and lacks it. DEDUCED (log 23). -/
def needMissing (f : CellF) (k : FieldKind) (v : Nat) : Bool :=
  k.isSource && decide (8 ≤ v ∧ v ≤ 13) && !bitOf f.need (v - 8)

/-- Whether a source select names a head whose pop bit is set. -/
def popsHead (f : CellF) (v : Nat) : Bool := decide (8 ≤ v ∧ v ≤ 13) && bitOf f.pop (v - 8)

/-- Whether a field names a source or, for SCL, the head that it binds (R151, R207). -/
def FieldKind.names (k : FieldKind) : Bool := k.isSource || k == .headOr15

/-- The first rule of R170, R206 or R207 that a slot of this opcode breaks, if any. What depends on the tile's place
(a channel that reaches no neighbour) is checked where an image is registered. -/
def slotError (op : Nat) (f : CellF) : Option DecodeError :=
  match cellForm op with
  | none => some .reservedOpcode
  | some k =>
    if f.srcA ≥ 32 || f.srcB ≥ 32 || f.dstA ≥ 32 || f.dstB ≥ 32 || f.tagAct ≥ 16 || f.trig ≥ 2 ^ 32 then some .badOperand
    else if !bitOf f.trig 31 then some .unusedSlot
    else if fld f.trig 29 28 != 0 then some .triggerReserved
    else if !(fieldOk k.a f.srcA && fieldOk k.b f.srcB && fieldOk k.da f.dstA && fieldOk k.db f.dstB) then some .badOperand
    else if k.da.isDest && k.db.isDest && f.dstA == f.dstB && f.dstA != 31 then some .badOperand
    else if f.pop &&& f.need != f.pop then some .popWithoutNeed
    else if needMissing f k.a f.srcA || needMissing f k.b f.srcB || needMissing f k.db f.dstB then some .missingNeed
    else if f.predVal &&& f.predCare != f.predVal then some .badPredicate
    else if f.tagTest && !(k.a.names && decide (8 ≤ f.srcA ∧ f.srcA ≤ 13)) then some .badTagTest
    else if !f.explicit && f.tagNum != 0 then some .badTagAction
    else
      match op with
      | 0x82 => if f.srcB == 4 && (f.ctl || f.predCare != 0) then some .badTrigger else none
      | 0x83 => if popsHead f f.srcA || popsHead f f.srcB || f.ctl || f.predCare != 0 then some .badTrigger else none
      | 0x85 => if f.srcA == 0 && f.ctl then some .badTrigger else none
      | 0x87 => if f.explicit then some .badTagAction else none
      | 0x88 => if f.done then some .badTagAction else none
      | 0xA3 => if f.srcA == f.srcB && f.srcA != 15 then some .badOperand else none
      | 0xA4 =>
        if f.explicit || f.predCare != 0 then some .badTagAction
        else if !(popsHead f f.srcA && popsHead f f.srcB) then some .badTrigger else none
      | _ => none

/-- The extra condition that tells apart the rows that share an opcode: SEL's predicate number, STEER's and SYSM's
two forms. -/
def cellVariantOk : Instr → Bool
  | .sel n _ => decide (n < 4)
  | .steer f => decide (f.srcB ≠ 4)
  | .steerCtl f => decide (f.srcB = 4)
  | .sysm f => decide (f.srcA ≠ 15)
  | .sysmOff f => decide (f.srcA = 15)
  | _ => true

/-- The 64-bit slot of an opcode with its fields (R149, R150): the operation word above the trigger word. -/
def slotWord (op : Nat) (f : CellF) : Nat :=
  (op * 2 ^ 24 + f.srcA * 2 ^ 19 + f.srcB * 2 ^ 14 + f.dstA * 2 ^ 9 + f.dstB * 2 ^ 4 + f.tagAct) * 2 ^ 32 + f.trig

/-- The command code and query kind of a front-end row (R303, R309): op, and the kind for QUERY. -/
def entryParts : Instr → Option (Nat × Option Nat × Entry)
  | .register e => some (0x01, none, e)
  | .place e => some (0x02, none, e)
  | .inject e => some (0x03, none, e)
  | .wbuildCommand e => some (0x04, none, e)
  | .wswitchCommand e => some (0x05, none, e)
  | .copyCommand e => some (0x06, none, e)
  | .timed e => some (0x07, none, e)
  | .queryTileStates e => some (0x08, some 0, e)
  | .queryPlacement e => some (0x08, some 1, e)
  | .queryRcbUsage e => some (0x08, some 2, e)
  | .queryTime e => some (0x08, some 3, e)
  | .unplace e => some (0x09, none, e)
  | _ => none

/-- Whether a submission entry's unused words and reserved fields are zero for its command (R303): PLACE, TIMED, QUERY and
UNPLACE name no RCB in word 0, and QUERY's argument is that of its kind (R309). -/
def entryOk (op : Nat) (e : Entry) : Bool :=
  let z (l : List Word) : Bool := l.all (· == 0)
  e.w0.fld 55 44 == 0 &&
  (match op with
   | 1 => z [e.w5, e.w6, e.w7]
   | 2 => z [e.w5, e.w6, e.w7] && e.w0.fld 43 32 == 0
   | 3 => z [e.w5, e.w6, e.w7] && e.w3.fld 63 8 == 0
   | 4 => z [e.w6, e.w7] && e.w5.fld 63 32 == 0
   | 5 => z [e.w6, e.w7] && e.w5.fld 63 32 == 0
   | 6 => z [e.w6, e.w7] && e.w5.fld 63 32 == 0
   | 7 => z [e.w3, e.w4, e.w5, e.w6, e.w7] && e.w0.fld 43 32 == 0
   | 8 => z [e.w4, e.w5, e.w6, e.w7] && e.w0.fld 43 32 == 0 &&
       (e.w1 == 1 || (if e.w1 = 2 then e.w3.fld 63 12 == 0 else e.w3 == 0))
   | 9 => z [e.w2, e.w3, e.w4, e.w5, e.w6, e.w7] && e.w0.fld 43 32 == 0
   | _ => false)

/-- Whether an instruction is well formed: every field holds a value its encoding and R170 allow. The rows that
have no encoding carry only names of places, and any number is one of those. -/
def wfInstr (i : Instr) : Bool :=
  coreOk i && cellVariantOk i &&
  (match cellParts i with
   | some p => (slotError p.1 p.2).isNone
   | none => true) &&
  (match entryParts i with
   | some p => e3 p
   | none => true)
where
  e3 (p : Nat × Option Nat × Entry) : Bool :=
    entryOk p.1 p.2.2 && p.2.2.w0.fld 63 56 == p.1 &&
    (match p.2.1 with
     | some k => p.2.2.w1.toNat == k
     | none => true)

end Sys2Proof
end

