-- ==== Sys2Proof/Machine/Fw40.lean ====
section
/-! DEFINITION. FW40 (R80 to R82) and the exact arithmetic every unit computes with: values are read as exact
dyadic numbers, combined exactly, and rounded once. -/

namespace Sys2Proof.Machine

/-- Rounding modes in the coding of R27: 0 RNE, 1 RTZ, 2 RDN, 3 RUP. -/
inductive Rnd where
  | rne | rtz | rdn | rup
  deriving DecidableEq, Repr, Inhabited

/-- The rounding mode of a round field (R27). -/
def Rnd.ofField : Nat → Rnd
  | 0 => .rne
  | 1 => .rtz
  | 2 => .rdn
  | _ => .rup

/-- Five flags in the order of R87: invalid 4, divide 3, overflow 2, underflow 1, inexact 0. -/
abbrev Flags := BitVec 5

def flagInvalid : Flags := 16
def flagDivide : Flags := 8
def flagOverflow : Flags := 4
def flagUnderflow : Flags := 2
def flagInexact : Flags := 1

/-- A flag when a condition holds. -/
def flagIf (b : Bool) (f : Flags) : Flags := if b then f else 0

/-- An exact extended value: a signed zero, a non-zero magnitude man x 2^exp with a sign, an infinity, or a NaN. -/
inductive Ex where
  | zero (neg : Bool)
  | fin (neg : Bool) (man : Nat) (exp : Int)
  | inf (neg : Bool)
  | nan (signalling : Bool)
  deriving DecidableEq, Repr, Inhabited

/-- The default NaN of FW40 (R85). -/
def defaultNaN : Fw := 0x7FFC000000#40

/-- 1.0 in FW40 (R81). -/
def fwOne : Fw := 0x3FF8000000#40

/-- A zero of FW40. -/
def fwZero (neg : Bool) : Fw := if neg then 0x8000000000#40 else 0

/-- An infinity of FW40, canonical: bit 27 is set (R81). -/
def fwInf (neg : Bool) : Fw := if neg then 0xFFF8000000#40 else 0x7FF8000000#40

/-- The largest finite magnitude of FW40 (R81). -/
def fwMax (neg : Bool) : Fw := if neg then 0xFFEFFFFFFF#40 else 0x7FEFFFFFFF#40

/-- Reading an FW40 pattern (R81): a zero ignores sig, a normal is read with bit 27 set. -/
def Ex.ofFw (x : Fw) : Ex :=
  let n := x.toNat
  let neg := bitOf n 39
  let e := fld n 38 28
  let sig := fld n 27 0
  if e = 0 then .zero neg
  else if e = 2047 then
    if bitOf n 26 then .nan false
    else if fld n 25 0 = 0 then .inf neg
    else .nan true
  else .fin neg (2 ^ 27 + fld sig 26 0) ((e : Int) - 1050)

/-- Whether a pattern is a signalling NaN (R81). -/
def isSNaN (x : Fw) : Bool := Ex.ofFw x == .nan true

/-- Whether a pattern is a NaN (R81). -/
def isNaN (x : Fw) : Bool := match Ex.ofFw x with | .nan _ => true | _ => false

/-- The pattern of a normal number: sign, unbiased exponent of the leading bit, 28-bit significand. -/
def packFw (neg : Bool) (e : Int) (sig : Nat) : Fw :=
  BitVec.ofNat 40 ((if neg then 2 ^ 39 else 0) + (e + 1023).toNat * 2 ^ 28 + sig)

/-- Whether rounding a magnitude with quotient q, remainder r below 2^sh goes up (R82). -/
def roundsUp (mode : Rnd) (neg : Bool) (q r half : Nat) : Bool :=
  match mode with
  | .rne => decide (r > half) || (r == half && q % 2 == 1)
  | .rtz => false
  | .rdn => neg && r != 0
  | .rup => !neg && r != 0

/-- A magnitude man x 2^exp rounded to a multiple of 2^e: the multiple and whether it is inexact. -/
def roundTo (mode : Rnd) (neg : Bool) (man : Nat) (exp e : Int) : Nat × Bool :=
  if e ≤ exp then (man * 2 ^ (exp - e).toNat, false)
  else
    let sh := (e - exp).toNat
    let q := man / 2 ^ sh
    let r := man % 2 ^ sh
    (if roundsUp mode neg q r (2 ^ (sh - 1)) then q + 1 else q, r != 0)

/-- OverflowResult of R82. -/
def overflowResult (mode : Rnd) (neg : Bool) : Fw :=
  match mode, neg with
  | .rne, n => fwInf n
  | .rtz, n => fwMax n
  | .rdn, false => fwMax false
  | .rdn, true => fwInf true
  | .rup, false => fwInf false
  | .rup, true => fwMax true

/-- RoundFW40 (R82) of a non-zero magnitude with a sign. -/
def roundFw (mode : Rnd) (neg : Bool) (man : Nat) (exp : Int) : Fw × Flags :=
  let lead : Int := exp + (Nat.log2 man : Int)
  let r := roundTo mode neg man exp (lead - 27)
  let carry := r.1 == 2 ^ 28
  let sig := if carry then 2 ^ 27 else r.1
  let e := if carry then lead + 1 else lead
  if e > 1023 then (overflowResult mode neg, flagOverflow ||| flagInexact)
  else if e < -1022 then (fwZero neg, flagUnderflow ||| flagInexact)
  else (packFw neg e sig, flagIf r.2 flagInexact)

/-- An exact value as an FW40 result: RoundFW40 where it is finite and non-zero; a NaN is the default NaN (R85). -/
def Ex.toFw (mode : Rnd) : Ex → Fw × Flags
  | .zero neg => (fwZero neg, 0)
  | .fin neg man exp => roundFw mode neg man exp
  | .inf neg => (fwInf neg, 0)
  | .nan s => (defaultNaN, flagIf s flagInvalid)

/-- Exact product. A NaN or 0 x Inf gives a NaN; the flag of the second is `signalling`, as both raise invalid. -/
def Ex.mul : Ex → Ex → Ex
  | .nan s, .nan t => .nan (s || t)
  | .nan s, _ => .nan s
  | _, .nan s => .nan s
  | .inf _, .zero _ => .nan true
  | .zero _, .inf _ => .nan true
  | .inf a, .inf b => .inf (a != b)
  | .inf a, .fin b _ _ => .inf (a != b)
  | .fin a _ _, .inf b => .inf (a != b)
  | .zero a, .zero b => .zero (a != b)
  | .zero a, .fin b _ _ => .zero (a != b)
  | .fin a _ _, .zero b => .zero (a != b)
  | .fin a m e, .fin b n f => .fin (a != b) (m * n) (e + f)

/-- Exact negation. -/
def Ex.neg : Ex → Ex
  | .zero n => .zero (!n)
  | .fin n m e => .fin (!n) m e
  | .inf n => .inf (!n)
  | .nan s => .nan s

/-- The signed integer of a finite value in units of 2^e, for e at most its exponent; zero otherwise. -/
def Ex.units (e : Int) : Ex → Int
  | .fin neg m x => let v : Int := m * 2 ^ (x - e).toNat; if neg then -v else v
  | _ => 0

/-- The least exponent among finite terms, capped by a start value. -/
def minExp (l : List Ex) (start : Int) : Int :=
  l.foldl (fun a x => match x with | .fin _ _ e => min a e | _ => a) start

/-- Whether a value is a NaN. -/
def Ex.isNan : Ex → Bool
  | .nan _ => true
  | _ => false

/-- Whether a value is the infinity of a sign. -/
def Ex.isInf (neg : Bool) : Ex → Bool
  | .inf n => n == neg
  | _ => false

/-- The exact sum of a list with the zero signs of R82 and the special cases of R92 and R189: a NaN term gives a
NaN (signalling when one term is), opposite infinities a NaN that raises invalid, an infinity that infinity. -/
def exSum (mode : Rnd) (l : List Ex) : Ex :=
  if l.any Ex.isNan then .nan (l.any (· == .nan true))
  else if l.any (Ex.isInf true) && l.any (Ex.isInf false) then .nan true
  else if l.any (Ex.isInf true) then .inf true
  else if l.any (Ex.isInf false) then .inf false
  else
    let fins := l.filter (fun x => match x with | .fin .. => true | _ => false)
    match fins with
    | [] => .zero (!l.isEmpty && l.all (· == .zero true))
    | f :: _ =>
      let e := minExp l (match f with | .fin _ _ x => x | _ => 0)
      let s := fins.foldl (fun a x => a + x.units e) (0 : Int)
      if s = 0 then .zero (mode == .rdn) else .fin (decide (s < 0)) s.natAbs e

/-- Exact comparison of two values that are not NaNs: whether the first is below the second, zeros equal. -/
def Ex.lt (a b : Ex) : Bool :=
  match a, b with
  | .nan _, _ => false
  | _, .nan _ => false
  | .inf n, .inf m => n && !m
  | .inf n, _ => n
  | _, .inf m => !m
  | x, y =>
    let e := minExp [x, y] (minExp [x, y] 2000)
    decide (x.units e < y.units e)

/-- Exact equality of two values that are not NaNs, zeros equal. -/
def Ex.eqv (a b : Ex) : Bool := !a.isNan && !b.isNan && !a.lt b && !b.lt a

/-- The canonical form of a value that is not a NaN; a NaN becomes the default NaN (R183). -/
def canonFw (x : Fw) : Fw :=
  match Ex.ofFw x with
  | .zero n => fwZero n
  | .fin n m e => packFw n (e + 27) m
  | .inf n => fwInf n
  | .nan _ => defaultNaN

/-- FADD (R189). -/
def fadd (mode : Rnd) (a b : Fw) : Fw × Flags := (exSum mode [Ex.ofFw a, Ex.ofFw b]).toFw mode

/-- FSUB (R189). -/
def fsub (mode : Rnd) (a b : Fw) : Fw × Flags := (exSum mode [Ex.ofFw a, (Ex.ofFw b).neg]).toFw mode

/-- FMUL (R189), with the latched scales of R184 as further exact factors. -/
def fmul (mode : Rnd) (a sa b sb : Fw) : Fw × Flags :=
  let ops := [a, sa, b, sb]
  if ops.any isNaN then (defaultNaN, flagIf (ops.any isSNaN) flagInvalid)
  else (((Ex.ofFw a).mul (Ex.ofFw sa)).mul ((Ex.ofFw b).mul (Ex.ofFw sb))).toFw mode

/-- FMA and, with `sub`, FMS (R189): a NaN operand comes before 0 x Inf, so that a quiet NaN addend of an invalid
product raises nothing (first row of R189's table). -/
def fma (mode : Rnd) (sub : Bool) (a sa b sb c : Fw) : Fw × Flags :=
  let ops := [a, sa, b, sb, c]
  if ops.any isNaN then (defaultNaN, flagIf (ops.any isSNaN) flagInvalid)
  else
    let p := ((Ex.ofFw a).mul (Ex.ofFw sa)).mul ((Ex.ofFw b).mul (Ex.ofFw sb))
    let d := Ex.ofFw c
    (exSum mode [p, if sub then d.neg else d]).toFw mode

/-- Total order of R190: -0 is below +0. -/
def belowMin (a b : Fw) : Bool :=
  match Ex.ofFw a, Ex.ofFw b with
  | .zero n, .zero m => n && !m
  | x, y => x.lt y

/-- FMIN and, with `max`, FMAX (R190). -/
def fminmax (max : Bool) (a b : Fw) : Fw × Flags :=
  let fl := flagIf (isSNaN a || isSNaN b) flagInvalid
  let r :=
    if isNaN a then (if isNaN b then defaultNaN else canonFw b)
    else if isNaN b then canonFw a
    else if max then (if belowMin a b then canonFw b else canonFw a)
    else (if belowMin b a then canonFw b else canonFw a)
  (r, fl)

/-- FAMN (R191). -/
def famn (mode : Rnd) (a b c : Fw) : Fw × Flags :=
  let fs := flagIf (isSNaN a || isSNaN b || isSNaN c) flagInvalid
  let s := exSum mode [Ex.ofFw a, Ex.ofFw b]
  let opp := match Ex.ofFw a, Ex.ofFw b with | .inf n, .inf m => n != m | _, _ => false
  let f0 := fs ||| flagIf opp flagInvalid
  if s.isNan then (canonFw c, f0)
  else if isNaN c then let r := s.toFw mode; (r.1, r.2 ||| f0)
  else
    let zz := match s, Ex.ofFw c with | .zero n, .zero _ => n | _, _ => false
    if s.lt (Ex.ofFw c) || zz then let r := s.toFw mode; (r.1, r.2 ||| f0)
    else (canonFw c, f0)

/-- FABS (R192). -/
def fabs (a : Fw) : Fw :=
  match Ex.ofFw a with
  | .nan _ => defaultNaN
  | _ => canonFw a &&& 0x7FFFFFFFFF#40

/-- FNEG (R192). -/
def fneg (a : Fw) : Fw :=
  match Ex.ofFw a with
  | .nan _ => defaultNaN
  | _ => canonFw a ^^^ 0x8000000000#40

/-- The quotient of two magnitudes to at least 64 bits, with the remainder folded into the lowest bit, so that one
rounding of it is the rounding of the exact quotient. -/
def quotient (n d : Nat) : Nat × Int :=
  let k := 64 + Nat.log2 d
  let q := n * 2 ^ k / d
  let r := n * 2 ^ k % d
  (2 * q + (if r = 0 then 0 else 1), -(k : Int) - 1)

/-- IEEE division of FW40 values, rounded once (R104, R193). -/
def fdiv (mode : Rnd) (a b : Fw) : Fw × Flags :=
  match Ex.ofFw a, Ex.ofFw b with
  | .nan s, .nan t => (defaultNaN, flagIf (s || t) flagInvalid)
  | .nan s, _ => (defaultNaN, flagIf s flagInvalid)
  | _, .nan s => (defaultNaN, flagIf s flagInvalid)
  | .inf _, .inf _ => (defaultNaN, flagInvalid)
  | .zero _, .zero _ => (defaultNaN, flagInvalid)
  | .inf n, .zero m => (fwInf (n != m), 0)
  | .inf n, .fin m _ _ => (fwInf (n != m), 0)
  | .zero n, .inf m => (fwZero (n != m), 0)
  | .zero n, .fin m _ _ => (fwZero (n != m), 0)
  | .fin n _ _, .inf m => (fwZero (n != m), 0)
  | .fin n _ _, .zero m => (fwInf (n != m), flagDivide)
  | .fin n x e, .fin m y f =>
    let q := quotient x y
    roundFw mode (n != m) q.1 (q.2 + e - f)

/-- FRCP (R193). -/
def frcp (mode : Rnd) (a : Fw) : Fw × Flags := fdiv mode fwOne a

/-- The greatest n below 2^bits that passes a test which holds up to some point, by setting bits from the top. -/
def bitSearch (ok : Nat → Bool) : Nat → Nat → Nat
  | 0, acc => acc
  | b + 1, acc => bitSearch ok b (if ok (acc + 2 ^ b) then acc + 2 ^ b else acc)

/-- FRSQ (R193): the square root of 2^2k / m is bracketed by its integer part. -/
def frsq (mode : Rnd) (a : Fw) : Fw × Flags :=
  match Ex.ofFw a with
  | .nan s => (defaultNaN, flagIf s flagInvalid)
  | .zero n => (fwInf n, flagDivide)
  | .inf true => (defaultNaN, flagInvalid)
  | .inf false => (fwZero false, 0)
  | .fin true _ _ => (defaultNaN, flagInvalid)
  | .fin false m e =>
    let odd := e % 2 != 0
    let m' := if odd then 2 * m else m
    let e' := if odd then e - 1 else e
    let s := bitSearch (fun t => decide (t * t * m' ≤ 2 ^ 160)) 81 0
    let exact := s * s * m' == 2 ^ 160
    roundFw mode false (2 * s + (if exact then 0 else 1)) (-(e' / 2) - 81)

/-! ### Q8.24 and CEXP2 -/

/-- ToQ824 (R96) of an exact value, as a signed integer, and whether it raises invalid. -/
def toQ824 : Ex → Int × Flags
  | .zero _ => (0, 0)
  | .nan _ => (-2147483648, flagInvalid)
  | .inf true => (-2147483648, 0)
  | .inf false => (2147483647, 0)
  | .fin neg m e =>
    let r : Int := (roundTo .rne neg m e (-24)).1
    let v := if neg then -r else r
    (max (-2147483648) (min 2147483647 v), 0)

/-- The CEXP2 table T[i] = RNE(2^(i/256) x 2^30) (R97): the greatest r with r^256 at most 2^(i + 31 x 256) is the
integer part of twice the value. -/
def cexp2T (i : Nat) : Nat :=
  (bitSearch (fun r => decide (r ^ 256 ≤ 2 ^ (i + 7936))) 33 0 + 1) / 2

/-- CEXP2 (R98) of a signed 32-bit value. -/
def cexp2 (d : Int) : Fw × Flags :=
  if d = -2147483648 then (0, 0)
  else
    let n := d / 16777216
    let f := (d % 16777216).toNat
    let i := f / 65536
    let r := f % 65536
    let t := cexp2T i
    let y := t * 65536 + (cexp2T (i + 1) - t) * r
    roundFw .rne false y (n - 46)

/-- FEXP2 (R194). -/
def fexp2 (a : Fw) : Fw × Flags :=
  let q := toQ824 (Ex.ofFw a)
  let r := cexp2 q.1
  (r.1, r.2 ||| q.2)

/-- One bit of the base-2 logarithm of an interval [lo, hi] in units of 2^-256 within [1, 2): both ends are squared,
and halved when the square reaches 2. Where the ends disagree the bit is 0, which 256-bit ends never reach for
28-bit operands (log 20). DEDUCED (log 20). -/
def log2Bits : Nat → Nat → Nat → Nat → Nat
  | 0, _, _, acc => acc
  | n + 1, lo, hi, acc =>
    let l := lo * lo / 2 ^ 256
    let h := hi * hi / 2 ^ 256 + 1
    if l ≥ 2 ^ 257 then log2Bits n (l / 2) (h / 2 + 1) (2 * acc + 1)
    else log2Bits n l h (2 * acc)

/-- FLOG2 (R195): the result is rounded from 100 fraction bits of the logarithm and a sticky bit, which is the
correct rounding because no logarithm of a number other than a power of two is a dyadic number. DEDUCED (log 20). -/
def flog2 (mode : Rnd) (a : Fw) : Fw × Flags :=
  match Ex.ofFw a with
  | .nan s => (defaultNaN, flagIf s flagInvalid)
  | .zero _ => (fwInf true, flagDivide)
  | .inf true => (defaultNaN, flagInvalid)
  | .inf false => (fwInf false, 0)
  | .fin true _ _ => (defaultNaN, flagInvalid)
  | .fin false m e =>
    let k := e + 27
    if m = 2 ^ 27 then
      if k = 0 then (fwZero false, 0) else roundFw mode (decide (k < 0)) k.natAbs 0
    else
      let x := m * 2 ^ 229
      let l := log2Bits 100 x x 0
      let v : Int := k * 2 ^ 100 + l
      if v ≥ 0 then roundFw mode false (2 * v.toNat + 1) (-101)
      else roundFw mode true (2 * v.natAbs - 1) (-101)

/-- FRND (R196). -/
def frnd (mode : Rnd) (a : Fw) : Fw × Flags :=
  match Ex.ofFw a with
  | .nan s => (defaultNaN, flagIf s flagInvalid)
  | .fin n m e =>
    let r := roundTo mode n m e 0
    if r.1 = 0 then (fwZero n, flagIf r.2 flagInexact)
    else ((roundFw .rne n r.1 0).1, flagIf r.2 flagInexact)
  | _ => (canonFw a, 0)

/-- Float compares (R197): 0 FCEQ, 1 FCLT, 2 FCLE, 3 FCUN. -/
def fcmp (op : Nat) (a b : Fw) : Bool × Flags :=
  let nan := isNaN a || isNaN b
  let snan := isSNaN a || isSNaN b
  let x := Ex.ofFw a
  let y := Ex.ofFw b
  match op with
  | 0 => (x.eqv y, flagIf snan flagInvalid)
  | 1 => (x.lt y, flagIf nan flagInvalid)
  | 2 => (x.lt y || x.eqv y, flagIf nan flagInvalid)
  | _ => (nan, flagIf snan flagInvalid)

/-- FCVTI (R198). -/
def fcvti (mode : Rnd) (a : Fw) : Fw × Flags :=
  match Ex.ofFw a with
  | .nan _ => (0, flagInvalid)
  | .zero _ => (0, 0)
  | .inf n => (if n then 0x80000000#40 else 0x7FFFFFFF#40, flagInvalid)
  | .fin n m e =>
    let r := roundTo mode n m e 0
    let v : Int := if n then -(r.1 : Int) else r.1
    if v < -2147483648 then (0x80000000#40, flagInvalid)
    else if v > 2147483647 then (0x7FFFFFFF#40, flagInvalid)
    else (BitVec.ofNat 40 (BitVec.ofInt 32 v).toNat, flagIf r.2 flagInexact)

/-- An integer as an exact value; zero is +0. -/
def Ex.ofInt (v : Int) : Ex := if v = 0 then .zero false else .fin (decide (v < 0)) v.natAbs 0

/-- ICVTF (R198) of a lane's bits [31:0]. -/
def icvtf (mode : Rnd) (a : Fw) : Fw × Flags := (Ex.ofInt (signed 32 a.toNat)).toFw mode

/-- UCVTF (R198). -/
def ucvtf (mode : Rnd) (a : Fw) : Fw × Flags := (Ex.ofInt (a.toNat % 2 ^ 32 : Nat)).toFw mode

/-! ### Merge (R101) -/

/-- FusedPair of R101: a term whose factor is +0 is left out. -/
def fusedPair (a x b y : Fw) : Fw × Flags :=
  let ts := (if a = 0 then [] else [(Ex.ofFw a).mul (Ex.ofFw x)]) ++ (if b = 0 then [] else [(Ex.ofFw b).mul (Ex.ofFw y)])
  match ts with
  | [] => (0, 0)
  | ts =>
    let s := exSum .rne ts
    match s with
    | .nan _ => (defaultNaN, flagInvalid)
    | s => s.toFw .rne

/-- Max of R101, with Max(-0, +0) = +0. -/
def maxFw (a b : Fw) : Fw := (fminmax true a b).1

/-- The factor of one side of Merge: 1 where the side's maximum equals M, else CEXP2 of the exact difference. -/
def mergeFactor (m big : Fw) : Fw × Flags :=
  if (Ex.ofFw m).eqv (Ex.ofFw big) then (fwOne, 0)
  else
    let q := toQ824 (exSum .rne [Ex.ofFw m, (Ex.ofFw big).neg])
    let r := cexp2 q.1
    (r.1, r.2 ||| q.2)

/-- The head step of Merge (R101, R226): M, factors a and b, l, and whether a NaN maximum was met. -/
def mergeHead (m1 l1 m2 l2 : Fw) : (Fw × Fw × Fw × Fw × Bool) × Flags :=
  if isNaN m1 || isNaN m2 then ((defaultNaN, fwOne, fwOne, defaultNaN, true), flagInvalid)
  else
    let big := maxFw m1 m2
    let a := mergeFactor m1 big
    let b := mergeFactor m2 big
    let l := fusedPair a.1 l1 b.1 l2
    ((big, a.1, b.1, l.1, false), a.2 ||| b.2 ||| l.2)

/-- A triple as its containers: m, l, then v (R100). -/
abbrev Triple := List Fw

/-- The identity triple of head dimension d (R100). -/
def identityTriple (d : Nat) : Triple := fwInf true :: 0 :: List.replicate d 0

/-- Merge of two triples (R101). -/
def mergeTriple (x y : Triple) : Triple × Flags :=
  match x, y with
  | m1 :: l1 :: v1, m2 :: l2 :: v2 =>
    let h := mergeHead m1 l1 m2 l2
    let (big, a, b, l, nan) := h.1
    let vs := List.zipWith (fun p q => if nan then (defaultNaN, (0 : Flags)) else fusedPair a p b q) v1 v2
    (big :: l :: vs.map Prod.fst, vs.foldl (fun f r => f ||| r.2) h.2)
  | _, _ => (x, 0)

/-! ### Trees (R94) -/

/-- One round of PairTree: neighbours joined, an absent side giving the other. -/
def pairRound {α : Type} (comb : α → α → α × Flags) : List (Option α) → List (Option α) × Flags
  | [] => ([], 0)
  | [x] => ([x], 0)
  | x :: y :: rest =>
    let r := pairRound comb rest
    match x, y with
    | some a, some b => let c := comb a b; (some c.1 :: r.1, c.2 ||| r.2)
    | some a, none => (some a :: r.1, r.2)
    | none, z => (z :: r.1, r.2)

/-- PairTree (R94): rounds until one item is left; `fuel` is at least the number of rounds. -/
def pairTree {α : Type} (comb : α → α → α × Flags) : Nat → List (Option α) → Option α × Flags
  | 0, l => (l.head?.join, 0)
  | fuel + 1, l =>
    if l.length ≤ 1 then (l.head?.join, 0)
    else
      let r := pairRound comb l
      let s := pairTree comb fuel r.1
      (s.1, r.2 ||| s.2)

/-! ### Dot products (R91 to R94) -/

/-- The products of one chunk summed exactly and rounded once (ChunkSum, R91, R92): any NaN raises invalid. -/
def chunkSum (mode : Rnd) (ps : List Ex) : Fw × Flags :=
  match exSum mode ps with
  | .nan _ => (defaultNaN, flagInvalid)
  | s => s.toFw mode

/-- CanonicalDot over a list of chunks (R91). -/
def canonicalDot (mode : Rnd) (chunks : List (List Ex)) : Fw × Flags :=
  match chunks with
  | [] => (0, 0)
  | c :: cs =>
    cs.foldl (fun acc c =>
      let s := chunkSum mode c
      let r := fadd mode acc.1 s.1
      (r.1, acc.2 ||| s.2 ||| r.2)) (chunkSum mode c)

/-- Exact products of two scaled operand lists (R91). -/
def products (a b : List Ex) : List Ex := List.zipWith Ex.mul a b

/-- Dot (R91). -/
def dot (mode : Rnd) (a b : List Ex) : Fw × Flags := canonicalDot mode (chunksOf 32 (products a b))

/-- TreeDot in TREE(n) split (R94). -/
def treeDot (mode : Rnd) (n : Nat) (a b : List Ex) : Fw × Flags :=
  let cs := chunksOf 32 (products a b)
  let q := ceilDiv cs.length n
  let parts := (List.range n).map (fun i =>
    let p := (cs.drop (i * q)).take q
    if p.isEmpty then (none, (0 : Flags)) else let r := canonicalDot mode p; (some r.1, r.2))
  let t := pairTree (fadd mode) n (parts.map Prod.fst)
  (t.1.getD 0, parts.foldl (fun f p => f ||| p.2) t.2)

/-- Final normalisation (R104) of a triple: the outputs, the flags, and whether l was zero. -/
def normaliseTriple (t : Triple) : (Triple × Bool) × Flags :=
  match t with
  | m :: l :: v =>
    if (Ex.ofFw l).eqv (.zero false) then ((m :: l :: v.map (fun _ => 0), true), 0)
    else
      let vs := v.map (fun x => fdiv .rne x l)
      ((m :: l :: vs.map Prod.fst, false), vs.foldl (fun f r => f ||| r.2) 0)
  | t => ((t, false), 0)

end Sys2Proof.Machine
end

