-- ==== Sys2Proof/Machine/Formats.lean ====
section
/-! DEFINITION. Storage formats and their conversions (R68 to R79, R83 to R85): packing, decoding into lanes, and
storing from lanes. -/

namespace Sys2Proof.Machine

/-- Element bits of a format code (R68); 0 for a reserved code. -/
def elemBits (fmt : Nat) : Nat := [32, 16, 16, 4, 8, 32, 8, 6, 4, 64].getD fmt 0

/-- Whether a format code is assigned (R68). -/
def fmtAssigned (fmt : Nat) : Bool := decide (fmt < 10)

/-- Whether a format loads in float mode (R68). -/
def fmtFloat (fmt : Nat) : Bool := decide (fmt < 10) && fmt != 5

/-- Whether a format loads in integer mode (R68). -/
def fmtInt (fmt : Nat) : Bool := fmt == 3 || fmt == 4 || fmt == 5

/-- Element size in bytes, rounded up to a whole byte (R107). -/
def elemBytes (fmt : Nat) : Nat := ceilDiv (elemBits fmt) 8

/-- Bytes that n packed elements take (R69). -/
def packedBytes (fmt n : Nat) : Nat := ceilDiv (elemBits fmt * n) 8

/-- Element i of packed elements, as its raw bits (R69): all formats lie in one little-endian bit string. -/
def rawElem (fmt : Nat) (bytes : List Byte) (i : Nat) : Nat :=
  let b := elemBits fmt
  let lo := b * i
  fld (leNat ((bytes.drop (lo / 8)).take 9)) (lo % 8 + b - 1) (lo % 8)

/-- The raw elements of packed bytes (R69). -/
def rawElems (fmt n : Nat) (bytes : List Byte) : List Nat := (List.range n).map (rawElem fmt bytes)

/-- Raw elements packed into bytes (R69); bits past the last element are zero. -/
def packElems (fmt : Nat) (l : List Nat) : List Byte :=
  let b := elemBits fmt
  leBytes (packedBytes fmt l.length) (l.foldr (fun x acc => x % 2 ^ b + 2 ^ b * acc) 0)

/-- Exact reading of an IEEE 754 pattern with `eb` exponent and `fb` fraction bits (R70). -/
def ieeeEx (eb fb : Nat) (w : Nat) : Ex :=
  let neg := bitOf w (eb + fb)
  let e := fld w (eb + fb - 1) fb
  let f := fld w (fb - 1) 0
  let bias : Int := 2 ^ (eb - 1) - 1
  if e = 2 ^ eb - 1 then
    if f = 0 then .inf neg else .nan (!bitOf w (fb - 1))
  else if e = 0 then
    if f = 0 then .zero neg else .fin neg f (1 - bias - fb)
  else .fin neg (2 ^ fb + f) (e - bias - fb)

/-- Length of the run of equal leading bits of an m-bit field. -/
def runLength : Nat → Nat → Bool → Nat
  | 0, _, _ => 0
  | m + 1, w, b => if bitOf w m = b then 1 + runLength m w b else 0

/-- Exact reading of a tapered element whose magnitude field has m bits (R72): 7 for T8, 5 for T6. -/
def taperedEx (m : Nat) (w : Nat) : Ex :=
  let neg := bitOf w m
  let mag := fld w (m - 1) 0
  if mag = 0 then (if neg then .nan false else .zero false)
  else
    let ones := bitOf mag (m - 1)
    let r := runLength m mag ones
    let k : Int := if ones then (r : Int) - 1 else -(r : Int)
    let left := m - r - 1
    let hasE := decide (left ≥ 1)
    let e : Int := if hasE && bitOf mag (left - 1) then 1 else 0
    let wf := if hasE then left - 1 else 0
    let f := mag % 2 ^ wf
    .fin neg (2 ^ wf + f) (2 * k + e - wf)

/-- Exact value of a raw element in float mode with the code table of its address generator (R70 to R76). -/
def elemEx (fmt : Nat) (tab : Nat → BitVec 16) (w : Nat) : Ex :=
  match fmt with
  | 0 => ieeeEx 8 23 w
  | 1 => ieeeEx 5 10 w
  | 2 => ieeeEx 8 7 w
  | 3 => Ex.ofInt (signed 4 w)
  | 4 => Ex.ofInt (signed 8 w)
  | 5 => Ex.ofInt (signed 32 w)
  | 6 => taperedEx 7 w
  | 7 => taperedEx 5 w
  | 8 => ieeeEx 8 7 (tab (w % 16)).toNat
  | _ => Ex.ofFw (BitVec.ofNat 40 w)

/-- The lane a raw element decodes to, with its flags (R70, R71): an FW40 container is moved unchanged (R85). -/
def decodeElem (fmt : Nat) (intMode : Bool) (tab : Nat → BitVec 16) (w : Nat) : Fw × Flags :=
  if intMode then (BitVec.ofNat 40 (BitVec.ofInt 32 (signed (elemBits fmt) w)).toNat, 0)
  else if fmt = 9 then (BitVec.ofNat 40 w, 0)
  else (elemEx fmt tab w).toFw .rne

/-- The FW40 value of an E8 scale byte and its flags (R78). -/
def e8Scale (s : Nat) : Fw × Flags :=
  if s = 255 then (defaultNaN, flagInvalid) else roundFw .rne false 1 ((s : Int) - 127)

/-- The FW40 value of a BF16 word and its flags (R70). -/
def bf16Fw (w : Nat) : Fw × Flags := (ieeeEx 8 7 w).toFw .rne

/-- Block length of a scale kind (R77). -/
def scaleBlock (kind : Nat) : Nat := [0, 32, 32, 64, 128].getD kind 0

/-- Bytes of one scale of a kind (R77). -/
def scaleBytes (kind : Nat) : Nat := if kind = 1 then 1 else 2

/-- The scale a raw scale element holds (R78). -/
def scaleFw (kind w : Nat) : Fw × Flags := if kind = 1 then e8Scale w else bf16Fw w

/-- Whether a format may carry a scale (R77). -/
def scalePermitted (fmt kind : Nat) (intMode : Bool) : Bool :=
  kind == 0 || (decide (kind ≤ 4) && !intMode && [1, 2, 3, 4, 6, 7, 8].contains fmt)

/-! ### Stores -/

/-- An IEEE 754 store (R83) with `eb` exponent and `fb` fraction bits: raw pattern and flags. -/
def storeIeee (eb fb mode : Nat) (x : Fw) : Nat × Flags :=
  let bias : Int := 2 ^ (eb - 1) - 1
  let sat := decide (mode ≥ 2)
  let rnd : Rnd := if mode % 2 = 0 then .rne else .rtz
  let sgn (n : Bool) : Nat := if n then 2 ^ (eb + fb) else 0
  let inf (n : Bool) : Nat := sgn n + (2 ^ eb - 1) * 2 ^ fb
  let maxf (n : Bool) : Nat := sgn n + (2 ^ eb - 1) * 2 ^ fb - 1
  match Ex.ofFw x with
  | .nan s => ((2 ^ eb - 1) * 2 ^ fb + 2 ^ (fb - 1), flagIf s flagInvalid)
  | .zero n => (sgn n, 0)
  | .inf n => if sat then (maxf n, flagOverflow ||| flagInexact) else (inf n, 0)
  | .fin n m e =>
    let lead : Int := e + (Nat.log2 m : Int)
    let emin : Int := 1 - bias
    let free := roundTo rnd n m e (lead - fb)
    let flead := if free.1 = 2 ^ (fb + 1) then lead + 1 else lead
    let tiny := decide (flead < emin)
    let r := if lead < emin then roundTo rnd n m e (emin - fb) else free
    let base := if lead < emin then emin else lead
    let val := r.1
    let e2 := if val ≥ 2 ^ (fb + 1) then base + 1 else base
    let sig := if val ≥ 2 ^ (fb + 1) then val / 2 else val
    if e2 > bias then
      (if sat then maxf n else if mode = 1 then maxf n else inf n, flagOverflow ||| flagInexact)
    else
      let bits := if sig < 2 ^ fb then sig else (e2 + bias).toNat * 2 ^ fb + (sig - 2 ^ fb)
      (sgn n + bits, flagIf r.2 flagInexact ||| flagIf (tiny && r.2) flagUnderflow)

/-- The magnitude codes of a tapered format, rising: code M has the M-th magnitude, since the coding is monotone. -/
def taperedMag (m c : Nat) : Ex := taperedEx m c

/-- A tapered store (R75) for a magnitude field of m bits. A NaN becomes NaR with no flag, a signalling one too (log 21).
DEDUCED (log 21). -/
def storeTapered (m mode : Nat) (x : Fw) : Nat × Flags :=
  let top := 2 ^ m - 1
  match Ex.ofFw x with
  | .nan _ => (2 ^ m, 0)
  | .zero _ => (0, 0)
  | .inf n => ((if n then 2 ^ m else 0) + top, flagOverflow ||| flagInexact)
  | .fin n man e =>
    let s := if n then 2 ^ m else 0
    let a : Ex := .fin false man e
    if (taperedMag m top).lt a then (s + top, flagOverflow ||| flagInexact)
    else if a.lt (taperedMag m 1) then (s + 1, flagUnderflow ||| flagInexact)
    else
      let lo := bitSearch (fun c => decide (1 ≤ c) && !(a.lt (taperedMag m c))) m 0
      let lov := taperedMag m lo
      if lov.eqv a then (s + lo, 0)
      else if mode % 2 = 1 then (s + lo, flagInexact)
      else
        let hiv := taperedMag m (lo + 1)
        let twice : Ex := .fin false (2 * man) e
        let mid := exSum .rne [lov, hiv]
        let up := if mid.eqv twice then lo % 2 == 1 else mid.lt twice
        (s + (if up then lo + 1 else lo), flagInexact)

/-- A store of float lanes to an integer format of b bits (R84). -/
def storeFloatInt (b mode : Nat) (x : Fw) : Nat × Flags :=
  let lo : Int := -(2 ^ (b - 1))
  let hi : Int := 2 ^ (b - 1) - 1
  let enc (v : Int) : Nat := (v % (2 ^ b : Int)).toNat
  match Ex.ofFw x with
  | .nan _ => (0, flagInvalid)
  | .zero _ => (0, 0)
  | .inf n => (enc (if n then lo else hi), flagInvalid)
  | .fin n m e =>
    let r := roundTo (if mode % 2 = 0 then .rne else .rtz) n m e 0
    let v : Int := if n then -(r.1 : Int) else r.1
    if v < lo then (enc lo, flagInvalid)
    else if v > hi then (enc hi, flagInvalid)
    else (enc v, flagIf r.2 flagInexact)

/-- A store of integer lanes to an integer format of b bits (R84). -/
def storeIntInt (b : Nat) (x : Fw) : Nat × Flags :=
  let v := signed 32 x.toNat
  let lo : Int := -(2 ^ (b - 1))
  let hi : Int := 2 ^ (b - 1) - 1
  let enc (v : Int) : Nat := (v % (2 ^ b : Int)).toNat
  if v < lo then (enc lo, flagInvalid) else if v > hi then (enc hi, flagInvalid) else (enc v, 0)

/-- The raw element a lane is stored as, with its flags (R75, R83, R84). -/
def storeElem (fmt mode : Nat) (intLane : Bool) (x : Fw) : Nat × Flags :=
  match fmt with
  | 0 => storeIeee 8 23 mode x
  | 1 => storeIeee 5 10 mode x
  | 2 => storeIeee 8 7 mode x
  | 3 => if intLane then storeIntInt 4 x else storeFloatInt 4 mode x
  | 4 => if intLane then storeIntInt 8 x else storeFloatInt 8 mode x
  | 5 => if intLane then storeIntInt 32 x else storeFloatInt 32 mode x
  | 6 => storeTapered 7 mode x
  | 7 => storeTapered 5 mode x
  | _ => (x.toNat, 0)

end Sys2Proof.Machine
end

