-- ==== Sys2Proof/Config.lean ====
section
/-! DEFINITION. The free values and the constants of one part: what the spec leaves open. Every one is opaque, so no
proof can rest on what it is. -/

namespace Sys2Proof

/-- A value the spec leaves open, one for each count of the free-value counter of the state (log 2).
DESIGN CHOICE (log 2). -/
opaque Config.freeWord : Nat → BitVec 64

/-- The move taken when the agenda is empty: the spec does not order the agents (R66, R139; log 1).
DESIGN CHOICE (log 1). -/
opaque Config.nextMove : Nat → Move

/-- The four tiles of each die that bring-up finds not for placement (R17, R387 step 3): value 4 * die + n tells whether
the n-th is spare (even) or defective, and by its half which of the die's other tiles it is; these vary from part to
part (log 5). DESIGN CHOICE (log 5). -/
opaque Config.tileState : Nat → Nat

/-- Bytes of firmware image slot n of the module's firmware store (R382; log 7). DESIGN CHOICE (log 7). -/
opaque Config.firmwareSlot : Nat → List Byte

/-- Where a firmware image holds what R382 checks, since the spec gives no layout of it (log 7): the bytes that are signed, the
public key and the signature; and the fused digest of the vendor's key. DESIGN CHOICE (log 7). -/
opaque Config.fwBody : List Byte → List Byte
opaque Config.fwKey : List Byte → List Byte
opaque Config.fwSignature : List Byte → List Byte
opaque Config.fusedKeyDigest : List Byte

/-- The security version a firmware image declares (R382; log 7). -/
opaque Config.fwVersion : List Byte → Nat

/-- The planes of a rotation-fed operator whose weights have the given bytes: a value of lane `lane` of the token that cell
`cell` of the north edge gets at position `pos` of the slot, and how many planes follow the first. The spec does not give the
layout of a rotation's weights (R16, R321; log 50). DESIGN CHOICE (log 50). -/
opaque Config.rotationLane : List Byte → (pos cell lane : Nat) → BitVec 40
opaque Config.rotationPlanes : List Byte → Nat

/-- Which of some lines a full die cache writes back to make room: the spec gives no replacement rule (R16, R115; log 118).
DESIGN CHOICE (log 118). -/
opaque Config.dieVictim : List Nat → Nat

/-- What JOINCNT reads in an instance that has no set: the spec gives no value (R234; log 121). DESIGN CHOICE (log 121). -/
opaque Config.joinless : BitVec 64

/-- The seeds of the device identity key, which is generated on the part (R383; log 7): of its one-time keys, of its
randomizers, and the public one. -/
opaque Config.identitySeed : List Byte
opaque Config.identityPrf : List Byte
opaque Config.identityPublic : List Byte

end Sys2Proof
end

