-- ==== Sys2Proof/Machine/State.lean ====
section
/-! DEFINITION. The state of one VX9-P package as plain data, and the state right after reset. Names follow the
manual's; INVENTORY.md lists each piece with the rule that names it and its reset value. -/

namespace Sys2Proof.Machine

/-! ## Cells -/

/-- A data token (R159). -/
structure Token where
  lanes : Lanes
  valid : BitVec 8
  tag : BitVec 2
  scale : Bool
  deriving DecidableEq, Repr, Inhabited

/-- An entry of a local queue or of er: a token, or an entry reserved for a result still to come (R218, R227). -/
inductive QEntry where
  | tok (t : Token)
  | reserved (id : Nat)
  deriving DecidableEq, Repr, Inhabited

/-- A cell context (R60, R161, R162): slots, literals, routing words 0 to 2 (round and trap enables stand in word
2, R162), the SCL bindings (R225), and the placement it was loaded for (R318). -/
structure Ctx where
  slots : KMap Word := {}
  lits : KMap Fw := {}
  r0 : Word := 0
  r1 : Word := 0
  r2 : Word := 0
  bindA : Option Nat := none
  bindB : Option Nat := none
  owner : Option Nat := none
  deriving DecidableEq, Repr, Inhabited

/-- A stationary weight plane (R223): 32 rows of eight weights and the column scales. -/
structure Plane where
  rows : KMap Lanes := {}
  cs : Lanes
  deriving DecidableEq, Repr, Inhabited

/-- The six update forms of R216. -/
inductive UpdOp where
  | add | fadd | min | max | or | tas
  deriving DecidableEq, Repr, Inhabited

/-- One update on its way to an owner cell (R216, R217). -/
structure Update where
  op : UpdOp
  addr : Nat
  val : Fw
  src : Nat
  firing : Nat
  lane : Nat
  deriving DecidableEq, Repr, Inhabited

/-- A UPD firing whose updates are not all applied (R218). -/
structure PendUpd where
  id : Nat
  lq : Option Nat
  left : Nat
  tok : Token
  deriving DecidableEq, Repr, Inhabited

/-- An ORDT waiting for the earlier memory firings of its cell (R219). -/
structure PendOrdt where
  dsts : List Nat
  tag : BitVec 2
  waits : List Nat
  deriving DecidableEq, Repr, Inhabited

/-- A spill-ring slot that holds a token (R121): the ring's bank and base, and the slot's number in it. The token itself lies
in the bank's bytes. -/
structure RingSlot where
  bank : Nat
  base : Nat
  pos : Nat
  deriving DecidableEq, Repr, Inhabited

/-- Done tokens that wait until earlier memory firings of the cell have been performed (R135): the bodies as a mask, and those
firings. -/
structure PendDone where
  bodies : Nat
  waits : List Nat
  deriving DecidableEq, Repr, Inhabited

/-- The state of one cell (R20, R60). Directions are numbered 0 north, 1 east, 2 south, 3 west. `ring` lists each direction's
slots in use, oldest first, `ringPos` the slot that each ring fills next, `ringNoted` the rings that have had their record of
R409 (an even number) or of R419 (the odd one after it), `bindAt` the cycle from which the latest SCL binding applies (R225),
`switches` the cycle of the switch for each sweep of the region (R407). -/
structure Cell where
  v : KMap Lanes := {}
  q : KMap (BitVec 8) := {}
  flags : KMap (BitVec 5) := {}
  ctxs : KMap Ctx := {}
  active : Nat := 0
  xin : KMap (List Token) := {}
  lq : KMap (List QEntry) := {}
  er : List QEntry := []
  ci : KMap (List Bool) := {}
  agOut : KMap (List Token) := {}
  ring : KMap (List RingSlot) := {}
  ringPos : KMap Nat := {}
  ringNoted : List Nat := []
  bindAt : Nat := 0
  latA : Lanes
  latB : Lanes
  sys : Option Fw := none
  sysNext : Nat := 0
  planeA : Plane
  planeS : Plane
  rowCtr : Nat := 0
  mrgA : Fw
  mrgB : Fw
  mrgNan : Bool := false
  halted : Bool := false
  trapped : Bool := false
  port : List Update := []
  portStuck : Bool := false
  updOut : List Update := []
  pendUpd : List PendUpd := []
  pendOrdt : List PendOrdt := []
  pendDone : List PendDone := []
  ecmds : List Nat := []
  nextFire : Nat := 0
  ownerNext : Nat := 0
  sweepDone : Nat := 0
  switchedAt : Nat := 0
  switches : KMap Nat := {}
  drainNoted : Bool := false
  deriving DecidableEq, Repr, Inhabited

/-! ## Tile store, owner directory, tile cache -/

/-- Bank modes (R116). -/
inductive BankMode where
  | cache | scratch | fifo
  deriving DecidableEq, Repr, Inhabited

/-- A mode transition in progress (R117): its target, the earliest cycle it can end, and where its completion goes. -/
structure BankTrans where
  target : BankMode
  ready : Nat
  pk : Nat
  tag : Nat
  set : Nat
  deriving DecidableEq, Repr, Inhabited

/-- A tile-store bank. -/
structure Bank where
  mode : BankMode := .cache
  trans : Option BankTrans := none
  deriving DecidableEq, Repr, Inhabited

/-- An entry of the owner directory (R215). -/
structure OwnerEntry where
  cell : Nat
  base : Nat
  words : Nat
  closing : Bool
  deriving DecidableEq, Repr, Inhabited

/-- A line of the tile cache (R116): physical address divided by 64, the CACHE bank that is its way, its bytes, which bytes
are dirty, which 32-byte sectors hold an uncorrectable error (R419, R420), and which are present. -/
structure CacheLine where
  line : Nat
  way : Nat
  bytes : List Byte
  dirty : BitVec 64
  bad : BitVec 2 := 0
  valid : BitVec 2 := 3
  deriving DecidableEq, Repr, Inhabited

/-! ## Tile core -/

/-- An arrival waiting for an instance (R52, R232). `closeAt` is the cycle in which the tile closed, for a hamper
firing, and `heldTo` that in which the latest hold on its domain was released (R429). -/
structure Arrival where
  tag : Nat
  kind : Nat
  msg : Word
  src : Nat
  detail : Nat
  set : Nat
  cycle : Nat
  closeAt : Option Nat := none
  heldTo : Nat := 0
  deriving DecidableEq, Repr, Inhabited

/-- Whether an instance may run its next block or waits on a trap (R269, R405). -/
inductive InstStatus where
  | ready | trapped
  deriving DecidableEq, Repr, Inhabited

/-- A task instance (R51, R232): the placement it belongs to, its registers and the block it stands at; until its first
instruction of a hamper firing, the cycles of the tile's closing and of the arrival, and the firing's row group (R429). -/
structure Inst where
  pk : Nat
  tag : Nat
  set : Nat
  prio : Nat
  seq : Nat
  g : KMap Word := {}
  block : Nat
  status : InstStatus := .ready
  closeAt : Option Nat := none
  arrived : Nat := 0
  fired : Nat := 0
  deriving DecidableEq, Repr, Inhabited

/-- Operations of an AMO (R167). -/
inductive AmoOp where
  | add | min | max | and | or | xor | xchg | cas
  deriving DecidableEq, Repr, Inhabited

/-- A store of the block in progress, performed at commit in LSID order (R235); an acquire fence, which acts when it executes,
stands among them for the AMOs before it, whose reads are made then (R133 case 5). `pos` is the body word's index, `addr` the
memory key of its first byte, and `ea` the effective address (R404). -/
inductive PStore where
  | store (lsid pos addr width : Nat) (val : Word) (rel : Option Nat) (ea : Word)
  | amo (lsid pos addr width : Nat) (op : AmoOp) (ord scope rd : Nat) (rb old ea : Word)
  | fenRel (lsid pos scope : Nat)
  | fenAcq (lsid pos scope : Nat)
  deriving DecidableEq, Repr, Inhabited

/-- A commit-class effect of the block in progress (R235), performed in body order after its stores. -/
inductive Effect where
  | kst (k : Nat) (v : Word)
  | blkt (t : Nat)
  | ublkt (t : Nat)
  | send (tile t : Nat) (msg : Word)
  | sendBo (tile bo n : Nat)
  | boset (bo tag target : Nat) (clr : Bool)
  | boarm (bo : Nat)
  | spawn (idx rec : Nat) (gp : Word)
  | join (t : Nat)
  | rfwd (row : Nat) (retire : Bool)
  | eqw (n : Nat) (v : Word)
  | eqwPort (n : Nat) (mask : Word)
  | csrw (c : Nat) (v : Word)
  | lcugo (body : Nat) (v : Word)
  | csweept (v : Word)
  | thold (t : Nat) (time : Word)
  | sysc (code t : Nat) (v : Word)
  | eret (inst : Nat) (abort : Bool)
  deriving DecidableEq, Repr, Inhabited

/-- The block in progress (R53, R166, R235): header fields, body position, and everything held until commit. -/
structure BlockRun where
  inst : Nat
  base : Nat
  pos : Nat
  len : Nat
  storeMask : BitVec 32
  writeMask : BitVec 32
  g : KMap Word
  written : BitVec 32 := 0
  produced : BitVec 32 := 0
  pfx : Option Nat := none
  stores : List PStore := []
  effects : List (Nat × Effect) := []
  deriving DecidableEq, Repr, Inhabited

/-- A pending THOLD (R266). -/
structure Thold where
  time : Word
  tag : Nat
  set : Nat
  pk : Nat
  deriving DecidableEq, Repr, Inhabited

/-- A tile core (R19, R52). `sets` maps the index of a live set to its row group; `k` holds the uniform registers of each set
reference (R233). -/
structure Core where
  insts : KMap Inst := {}
  seq : Nat := 0
  run : Option BlockRun := none
  arrivals : List Arrival := []
  blocked : Word := 0
  sets : KMap Nat := {}
  k : KMap (KMap Word) := {}
  tholds : List Thold := []
  halted : Bool := false
  deriving DecidableEq, Repr, Inhabited

/-! ## Per-operator registers, address generators -/

/-- A barrier object (R57); `set` is the set of the instance that armed it (R246). Of cycle `at_`: what the count would be
without its limit and its comparisons, and what those have taken, since a cycle's increments are added together. -/
structure Barrier where
  count : Nat := 0
  at_ : Nat := 0
  raw : Nat := 0
  took : Nat := 0
  target : Nat := 0
  tag : Nat := 0
  armed : Bool := false
  set : Nat := 255
  deriving DecidableEq, Repr, Inhabited

/-- A loop-control body (R58). -/
structure LcuBody where
  count : Nat := 0
  tag : Nat := 0
  mask : Word := 0
  running : Bool := false
  released : Nat := 0
  done : KMap Nat := {}
  set : Nat := 255
  deriving DecidableEq, Repr, Inhabited

/-- Who issued an engine command: a tile-core instance, a cell, or the front end for a submission entry. -/
inductive Issuer where
  | core (set tag : Nat)
  | cell (c er : Nat)
  | front (vi sq : Nat)
  deriving DecidableEq, Repr, Inhabited

/-- A command waiting in an engine queue (R272, R275); `cycle` is the cycle in which it entered, `after` the UPDs of its cell that
come before it and were not all applied then (R228). -/
structure QCmd where
  id : Nat
  w0 : Word
  w1 : Word
  w2 : Word
  w3 : Word
  w4 : Word
  by_ : Issuer
  epoch : Nat
  cycle : Nat := 0
  after : List Nat := []
  deriving DecidableEq, Repr, Inhabited

/-- An engine queue with the rounds of R436: the round of the next entry, and the rounds in which a command failed. -/
structure EngQueue where
  items : List QCmd := []
  epoch : Nat := 0
  bad : List Nat := []
  deriving DecidableEq, Repr, Inhabited

/-- The registers held once for each operator of the region (R319), with the AGT templates and the active context of its
last CFGL. -/
structure OpRegs where
  bo : KMap Barrier := {}
  eq : KMap Word := {}
  m : KMap (BitVec 512) := {}
  hf : KMap Nat := {}
  agstat : KMap Word := {}
  traptag : Word := 0
  lcu : KMap LcuBody := {}
  ports : KMap Nat := {}
  queues : KMap EngQueue := {}
  agt0 : KMap Word := {}
  agt3 : KMap Word := {}
  lastActive : Nat := 0
  deriving DecidableEq, Repr, Inhabited

/-- A handle-table entry, words 0 to 3 (R119). -/
structure HEntry where
  w0 : Word
  w1 : Word
  w2 : Word
  w3 : Word
  deriving DecidableEq, Repr, Inhabited

/-- An accepted stream (R251, R252): its specification, the operator's slot, completion tag, set and code-table
copy, and the handle entry it resolved at acceptance (R145). -/
structure Stream where
  id : Nat
  w0 : Word
  w1 : Word
  w2 : Word
  w3 : Word
  pk : Nat
  tag : Nat
  set : Nat
  tab : Nat
  entry : Option HEntry
  deriving DecidableEq, Repr, Inhabited

/-- An item of an address generator's queue (R259, R260). -/
inductive AgItem where
  | stream (s : Stream)
  | marker (id mask pk : Nat) (tag : Option Nat) (set : Nat)
  deriving DecidableEq, Repr, Inhabited

/-- The running stream of an address generator: position, turn, flags and error (R254 to R258). -/
structure StreamRun where
  s : Stream
  row : Nat := 0
  tok : Nat := 0
  dealt : Nat := 0
  scaled : KMap Nat := {}
  flags : BitVec 5 := 0
  err : Nat := 0
  fin : Bool := false
  stall : Option Nat := none
  deriving DecidableEq, Repr, Inhabited

/-- A held code-table operation (R129). -/
inductive CteOp where
  | write (e : Nat) (v : BitVec 16)
  | swap
  deriving DecidableEq, Repr, Inhabited

/-- An address generator (R19, R128, R259). `swapId` separates the streams accepted before the latest CTSW. -/
structure Ag where
  queue : List AgItem := []
  run : Option StreamRun := none
  tab0 : KMap (BitVec 16) := {}
  tab1 : KMap (BitVec 16) := {}
  act : Nat := 0
  held : List CteOp := []
  swapId : Nat := 0
  deriving DecidableEq, Repr, Inhabited

/-- A configuration load in progress (R261). DEDUCED (log 32). -/
structure CfglRun where
  pk : Nat
  mask : Nat
  active : Nat
  data : Bool
  tag : Nat
  set : Nat
  deriving DecidableEq, Repr, Inhabited

/-- Tile states (R309); a placed tile is an enabled tile with an anchor. -/
inductive TileState where
  | enabled | spare | defective | withdrawn
  deriving DecidableEq, Repr, Inhabited

/-- One tile (R19). `cfglWait` are the loads issued while another was in progress (R261). -/
structure Tile where
  state : TileState := .enabled
  anchor : Option Nat := none
  core : Core := {}
  opr : KMap OpRegs := {}
  cells : KMap Cell := {}
  ags : KMap Ag := {}
  banks : KMap Bank := {}
  owners : KMap OwnerEntry := {}
  cache : List CacheLine := []
  cfgl : Option CfglRun := none
  cfglWait : List CfglRun := []
  deriving DecidableEq, Repr, Inhabited

/-! ## Records, hampers, row groups -/

/-- A token record (R33): H0, H1, AH, RW and the carry words C0 to C11. -/
structure TokenRec where
  h0 : Word
  h1 : Word
  ah : Word
  rw : Word
  carry : Vector Word 12
  deriving DecidableEq, Repr, Inhabited

/-- A record with its payload, the cycle in which it entered its hamper, its draft group and index there (R41), the cycle in
which it entered its stage (R345), whether it has left its stage for an exception route (R435), and its last row group and
row (R427). -/
structure Rec where
  r : TokenRec
  pay : List Byte
  at_ : Nat := 0
  grp : Option Nat := none
  idx : Nat := 0
  born : Nat := 0
  out : Bool := false
  lastRg : Nat := 0
  lastRow : Nat := 0xFF
  deriving DecidableEq, Repr, Inhabited

/-- A draft group being collected (R41): its identifier, the count its first record carries, and its tile slot. -/
structure DraftGroup where
  id : Nat
  seqSlot : Nat
  count : Nat
  recs : List Rec
  tileSlot : Nat
  deriving DecidableEq, Repr, Inhabited

/-- A forming tile (R39 to R42); it holds at least one row. -/
structure Forming where
  rows : List Rec
  tileSlot : Nat
  deriving DecidableEq, Repr, Inhabited

/-- A closed tile (R42, R45, R428); `causes` are those of R429 noted while it waits, and `reached` says that a rotation slot has
come at which it was to board (R43, R428). -/
structure Closed where
  rows : List Rec
  cause : Nat
  at_ : Nat
  tileSlot : Nat
  noted : Bool := false
  causes : Nat := 0
  reached : Bool := false
  deriving DecidableEq, Repr, Inhabited

/-- A hamper (R39 to R46, R455). `stage` is the stage of the record that entered it last (R344).
DESIGN CHOICE (log 53). -/
structure Hamper where
  net : List Rec := []
  forming : Option Forming := none
  closed : List Closed := []
  groups : List DraftGroup := []
  nextRg : Nat := 0
  fires : Nat := 0
  stage : Option Nat := none
  deriving DecidableEq, Repr, Inhabited

/-- A row group (R47 to R50, R59): the tiles that hold its set, its rows and those that have left, where its arrays
lie in tile `home`, and its join counter. `stages` gives the stage that a row's record was in when it fired, and none for one
that came from an exception route (R44, R435); `fwdAt` the cycle in which a row was forwarded and `ejAt` that of the latest
ejection (R395); `causes` are those of R429 noted for its firing. -/
structure RowGroup where
  rgid : Nat
  pk : Nat
  set : Nat
  tiles : List Nat
  rows : BitVec 64
  gone : BitVec 64
  home : Nat
  base : Nat
  pay : Nat
  tileSlot : Option Nat
  join : Nat := 0
  joinTag : Option (Nat × Nat) := none
  wgen : Nat
  fired : Nat
  stages : KMap Nat := {}
  fwdAt : KMap Nat := {}
  ejAt : Option Nat := none
  causes : Nat := 0
  deriving DecidableEq, Repr, Inhabited

/-- Where a record in the network goes. -/
inductive Dest where
  | hamper (pk : Nat)
  | tag (tile tag pk : Nat)
  deriving DecidableEq, Repr, Inhabited

/-- A record in the die network (R328), with the tile that sent it, 0xFFF for the front end, and the INJECT that sent it (R308). -/
structure NetRec where
  body : Rec
  dest : Dest
  src : Nat
  cmd : Option Nat := none
  deriving DecidableEq, Repr, Inhabited

/-! ## Images, operators, placements, regions -/

/-- A record of a DATA section (R176). -/
structure DataRec where
  bank : Nat
  off : Nat
  bytes : List Byte
  deriving DecidableEq, Repr, Inhabited

/-- A loop body of an LCU section (R176). -/
structure LcuCfg where
  count : Nat
  tag : Nat
  mask : Word
  deriving DecidableEq, Repr, Inhabited

/-- An accepted Osdal image (R175 to R178) as the image store holds it. Contexts are keyed by
(virtual tile x 64 + cell) x 4 + context; the other sections by virtual tile. -/
structure Image where
  w : Nat
  h : Nat
  oper : Word
  ctxs : KMap Ctx := {}
  tasks : KMap (List (BitVec 32)) := {}
  agt : KMap (List Word) := {}
  unif : KMap Word := {}
  routes : List Word := []
  lcu : KMap (List LcuCfg) := {}
  data : KMap (List DataRec) := {}
  bad : Bool := false
  deriving DecidableEq, Repr, Inhabited

/-- A registered operator (R306). -/
structure Operator where
  vi : Nat
  job : Nat
  rcb : Nat
  image : Image
  deriving DecidableEq, Repr, Inhabited

/-- A placement (R310 to R314) with the effective RCB values it took (R31), its place in PLACE order (R321) and its
hamper. -/
structure Placement where
  regId : Word
  vi : Nat
  job : Nat
  rcb : Nat
  die : Nat
  x : Nat
  y : Nat
  w : Nat
  h : Nat
  slot : Nat
  cls : Nat
  banks : BitVec 12
  save : BitVec 12
  hbanks : BitVec 12
  placedAt : Word
  round : Nat
  storeRound : Nat
  pageTimeout : Nat
  domain : Nat
  weights : Word
  routes : List Nat
  order : Nat
  hamper : Hamper := {}
  deriving DecidableEq, Repr, Inhabited

/-- A configuration sweep of a region (R63, R229). -/
structure Sweep where
  ctx : Nat
  carry : Bool
  start : Nat
  deriving DecidableEq, Repr, Inhabited

/-- Cell state saved by an eviction (R323): per tile the cells and the owner directory, and the sweeps under way. -/
structure Saved where
  cells : KMap (KMap Cell)
  owners : KMap (KMap OwnerEntry)
  sweeps : List Sweep
  deriving DecidableEq, Repr, Inhabited

/-- A region (R316 to R325), keyed by its anchor tile. `aside` holds what operators switched out without an eviction left behind:
the channels that their streams go on with (R323) and their pending sweeps (R407). `draining` is an operator whose save area
could not hold its state (R429), `loadedAt` the cycle in which its operator was loaded (R322). -/
structure Region where
  loaded : Option Nat := none
  evicted : KMap Saved := {}
  aside : KMap Saved := {}
  draining : Option Nat := none
  sweeps : List Sweep := []
  lastMove : Nat := 0
  stallNoted : Bool := false
  loadedAt : Nat := 0
  deriving DecidableEq, Repr, Inhabited

/-- The weight rotation of a die (R321, R343, R344): the PLACE order of the operator served last, and the slot in
progress: its operator, generation, and the tokens each cell has been given; and the cycle in which the latest slot began
(R45). -/
structure Rotation where
  turn : Option Nat := none
  active : Option Nat := none
  gen : Nat := 0
  fed : Nat := 0
  began : Nat := 0
  deriving DecidableEq, Repr, Inhabited

/-! ## Commands and collectives -/

/-- What a command completes with (R276): error, count, aux, flags, and whether it was refused with no effect (R274). -/
structure CmdRes where
  err : Nat := 0
  count : Nat := 0
  aux : Nat := 0
  flags : BitVec 5 := 0
  refused : Bool := false
  deriving DecidableEq, Repr, Inhabited

/-- A range of bytes that an engine writes group by group (R131, R145): where, the next group, and the progress that the command
shows once they are written. A `mark` is the record that is marked then, and the status bit (R35, R287, R294); `stop` (code,
where and detail) ends the command after them, and so does a result `ok`; a group that fails ends it with the result `bad`, and
the rows that `recs` names (R416). -/
structure Landing where
  addr : Word
  al : Nat
  bytes : List Byte
  k : Nat := 0
  pos : Nat
  cnt : Nat
  fl : BitVec 5
  aux : Nat := 0
  mark : Option (Word × Nat) := none
  stop : Option (Nat × Word × Nat) := none
  ok : Option CmdRes := none
  bad : CmdRes := {}
  recs : List Word := []
  deriving DecidableEq, Repr, Inhabited

/-- A started engine command (R275): the operator and RCB values it runs for, the path it took (0 fabric, 1 cellar,
2 not chosen yet, 3 cellar once the engines' queues have room), the cellar engines it uses, the mask it read, its stall, its place in its collective, the locations of its
group (R306) and the contributions it holds, and its result once it has one. The work done so far (R145, R288, R414): the next
unit `pos`, the `cnt` that its status would give, the flags and bits of aux, the bytes of the page in hand, the words read at
its start, each query row's partial triples, and the bytes on their way to memory. -/
structure RunCmd where
  c : QCmd
  tile : Nat
  pk : Nat
  q : Nat
  vi : Nat
  job : Nat
  domain : Nat
  timeout : Nat
  eq : Word
  started : Nat
  path : Nat := 2
  engs : List Nat := []
  mask : BitVec 512 := 0
  stall : Option Nat := none
  stallH : Word := 0
  skip : Bool := false
  k : Nat := 0
  locs : List Nat := []
  got : KMap (List Word) := {}
  pos : Nat := 0
  cnt : Nat := 0
  fl : BitVec 5 := 0
  buf : List Byte := []
  aux : Nat := 0
  words : List Word := []
  parts : KMap (List (List Fw)) := {}
  land : Option Landing := none
  res : Option CmdRes := none
  deriving DecidableEq, Repr, Inhabited

/-- A contribution travelling the ring (R291). -/
structure Contribution where
  vi : Nat
  job : Nat
  group : Nat
  p : Nat
  k : Nat
  idx : Nat
  data : List Word
  lost : Bool := false
  deriving DecidableEq, Repr, Inhabited

/-- A pipeline stage of a job (R300, R345): current generation and the WSWITCH that waits. -/
structure Stage where
  gen : Nat := 0
  switch : Option Nat := none
  old : Nat := 0
  since : Nat := 0
  noted : Bool := false
  deriving DecidableEq, Repr, Inhabited

/-- A posted SYSC request (R268, R385). -/
structure SyscReq where
  tile : Nat
  pk : Nat
  set : Nat
  tag : Nat
  code : Nat
  val : Word
  deriving DecidableEq, Repr, Inhabited

/-! ## Virtual interfaces and the front end -/

/-- A queue in memory with its descriptor words (R302) and the device's position in it (R305). -/
structure RingQ where
  w0 : Word := 0
  w1 : Word := 0
  en : Bool := false
  head : Nat := 0
  tail : Nat := 0
  phase : Bool := true
  port : Nat := 0
  busy : Bool := false
  stop : Bool := false
  canary : Bool := false
  failed : Bool := false
  deriving DecidableEq, Repr, Inhabited

/-- A window descriptor (R110). -/
structure WinDesc where
  w0 : Word := 0
  w1 : Word := 0
  deriving DecidableEq, Repr, Inhabited

/-- A translation of a 64 KiB page (R111, R112): its frame, and the permissions and the leaf level of the VI stage and of
the host stage. -/
structure Trans where
  frame : Nat
  rd : Bool
  wr : Bool
  lvl : Nat
  hrd : Bool
  hwr : Bool
  hlvl : Nat
  deriving DecidableEq, Repr, Inhabited

/-- A translation held by a TLB (R19, R113): the unit whose TLB it is, the page of the VI's space, and how many invalidation
requests of the VI had been made when it was walked. -/
structure TlbEntry where
  unit : Nat
  page : Nat
  tr : Trans
  age : Nat
  deriving DecidableEq, Repr, Inhabited

/-- An invalidation request (R375): kind, sequence, its number among the VI's requests, and the SYSC that asked for it,
if one did (R385). -/
structure InvReq where
  kind : Nat
  seq : Nat
  n : Nat
  sysc : Option SyscReq
  deriving DecidableEq, Repr, Inhabited

/-- A region control block (R27): words 0 to 3, its registration serial, what is charged to it, and the device-virtual
address it was registered from, where the device writes words 4 and 5. -/
structure Rcb where
  w0 : Word
  w1 : Word
  w2 : Word
  w3 : Word
  serial : Nat
  tiles : Nat := 0
  banks : Nat := 0
  hampers : Nat := 0
  addr : Nat := 0
  deriving DecidableEq, Repr, Inhabited

/-- A posted write at an ordering point, not acknowledged yet, or a completion flag that waits behind one (R147): its
memory keys and bytes, its home die, and for a doorbell write the queue and the tail (R373). -/
structure InWrite where
  keys : List Nat
  data : List Byte
  die : Nat
  flag : Bool
  since : Nat
  sqdb : Option (Nat × Nat) := none
  deriving DecidableEq, Repr, Inhabited

/-- The ordering point's state for one VI on one port (R147, R441, R442); `die` is the home die that did not acknowledge. -/
structure OrdPoint where
  writes : List InWrite := []
  lost : Bool := false
  discarded : Nat := 0
  die : Nat := 0
  deriving DecidableEq, Repr, Inhabited

/-- A virtual interface (R26, R370, R376). A pending vector has the cycle of its signal and the port that its message takes
(R148, R371). `pubAt` holds the cycles in which an entry's tier became 0 (R126, R417). Older window tables, handle entries and slice sizes that an access may still
use carry how many invalidation requests had been made when they were replaced (R119, R375, R376). -/
structure Vi where
  wind : KMap WinDesc := {}
  windOld : List (Nat × KMap WinDesc) := []
  winw0 : KMap Word := {}
  vsroot : Word := 0
  hsroot : Word := 0
  apbase : Word := 0
  enable : Bool := false
  halt : Bool := false
  d3 : Bool := false
  sq : KMap RingQ := {}
  cq : KMap RingQ := {}
  errq : RingQ := {}
  errstat : Nat := 0
  errSeq : Nat := 0
  handles : KMap HEntry := {}
  hOld : KMap (List (Nat × HEntry)) := {}
  pubAt : KMap (List Nat) := {}
  slice : Nat := 0
  sliceOld : List (Nat × Nat) := []
  hUsed : Nat := 0
  tlb : List TlbEntry := []
  inv : List InvReq := []
  invCount : Nat := 0
  invdone : BitVec 32 := 0
  msix : KMap Word := {}
  vecPend : KMap (Nat × Nat) := {}
  vecLast : KMap Nat := {}
  held : List Nat := []
  rcbs : KMap Rcb := {}
  ord : KMap OrdPoint := {}
  lastSq : Nat := 15
  noticed : List Nat := []
  deriving DecidableEq, Repr, Inhabited

/-- A job (R32, R307, R430): route table in the physical form of R313, group table, sequence counts per party. -/
structure Job where
  routes : KMap Word := {}
  external : KMap Word := {}
  groups : KMap (List Nat) := {}
  counts : KMap Nat := {}
  deriving DecidableEq, Repr, Inhabited

/-- What a command in front-end execution waits for (R304, R326): an INJECT for its records to have entered their hamper (R308),
and one that has ended, with its status and its result, for room in its completion queue (R371). -/
inductive FeWait where
  | ready
  | timed (stamp : Word) (e : Entry)
  | engine (id : Nat)
  | arriving (id : Nat)
  | ended (status : Nat) (result : Word)
  deriving DecidableEq, Repr, Inhabited

/-- A command in front-end execution. -/
structure FeCmd where
  e : Entry
  wait : FeWait
  started : Nat
  sqHead : Nat
  canary : Bool := false
  deriving DecidableEq, Repr, Inhabited

/-- The copy of the state table that the standby complex keeps (R301, R450): the commands in front-end execution; the position in
each submission queue of a VI, keyed by 16 times the VI and the queue; the registrations, with each VI's RCBs and each job's route
and group tables; and the placements, which say what each region holds, with empty hampers. -/
structure TableCopy where
  fe : List FeCmd := []
  heads : KMap Nat := {}
  ops : KMap Operator := {}
  rcbs : KMap (KMap Rcb) := {}
  jobs : KMap Job := {}
  places : KMap Placement := {}
  deriving DecidableEq, Repr, Inhabited

/-- Firmware update states (R448), without the reason, which FWSTAT holds beside it. -/
inductive FwState where
  | idle | verifying | canary | committing | committed | reverted | refused
  deriving DecidableEq, Repr, Inhabited

/-- The device registers of VI 0 and the package-wide state (R377, R393, R439, R448). `dropMarks` are packages with the numbers
of the moves whose packets to them are lost (R445), and `atticMarks` the same for attic links whose transfers fail (R444);
`ptpT1` to `ptpT3` are the stamps of a time exchange (R380); `vfQueue` says that a VF has enabled a queue
(R439); `owed` are completion entries that wait for room in VI 0's CQ0: whether of an attestation (R384) or a firmware
update (R448), the status and the result; `servedVi` is the VI served last in each class (R304). `logCount` is the number of
log records not consumed yet (R393), `tileBusy` TILECMDST's busy bit (R398). -/
structure Dev where
  ready : Bool := false
  service : Bool := false
  throttle : Bool := false
  timeLocked : Bool := false
  activeB : Bool := false
  pcap : Nat := 3200
  pkgid : Nat := 0
  lnkctl : BitVec 16 := 0
  lnkstat : BitVec 16 := 0
  timesrc : Word := 0
  nonce : KMap Byte := {}
  rtbl : KMap (BitVec 16) := {}
  logq : RingQ := {}
  logCount : Nat := 0
  logstat : Nat := 0
  logSeq : Nat := 0
  tileResult : Nat := 0
  tileBusy : Bool := false
  cethr : Nat := 1024
  srcause : BitVec 6 := 0
  fepol : Nat := 0
  fwaddr : Word := 0
  fwlen : Word := 0
  fwcanary : Word := 0
  fwstate : FwState := .idle
  fwreason : Nat := 0
  fwctl : Word := 0
  fwImage : List Byte := []
  fwNew : List Byte := []
  fwSince : Nat := 0
  fused : Nat := 0
  leaf : Nat := 0
  failedEngines : List Nat := []
  linksDown : List Nat := []
  portsDown : List Nat := []
  cec : KMap Nat := {}
  dropMarks : List (Nat × Nat) := []
  atticMarks : List (Nat × Nat) := []
  vfQueue : Bool := false
  owed : List (Bool × Nat × Word) := []
  ptpT1 : Word := 0
  ptpT2 : Word := 0
  ptpT3 : Word := 0
  lastSync : Nat := 0
  timeLost : Bool := false
  servedVi : KMap Nat := {}
  deriving DecidableEq, Repr, Inhabited

/-- What the package has sent to a host (R371, R372, R442): a vector's message, the bytes of a BAR2 read, or an abort. -/
inductive HostMsg where
  | msix (vi vec port : Nat)
  | readData (vi port : Nat) (b : List Byte)
  | completerAbort (vi port : Nat)
  deriving DecidableEq, Repr, Inhabited

/-! ## The whole state -/

/-- The clock (R3, R10): cycles, device time, its fraction in 1/470000 of a unit (a cycle is 8,000,000 of them), and the
slew not yet absorbed in the same parts (R381). DESIGN CHOICE (log 3). -/
structure Clk where
  cycle : Nat := 0
  time : Word := 0
  frac : Nat := 0
  slew : Int := 0
  deriving DecidableEq, Repr, Inhabited

/-- A BAR0 register write (R369): function, port, offset, value. -/
structure RegWrite where
  vi : Nat := 0
  port : Nat := 0
  off : Nat := 0
  v : Word := 0
  deriving DecidableEq, Repr, Inhabited

/-- What `exec` performs: the tile, cell and slot whose instruction it is, or the register write. -/
structure Focus where
  tile : Nat := 0
  cell : Nat := 0
  slot : Nat := 0
  wr : RegWrite := {}
  deriving DecidableEq, Repr, Inhabited

/-- The model's own bookkeeping: the agenda (log 1), the focus, the move count and the free-value counter (log 2). -/
structure Sched where
  agenda : List Move := []
  focus : Focus := {}
  moves : Nat := 0
  free : Nat := 0
  ids : Nat := 0
  deriving DecidableEq, Repr, Inhabited

/-- Byte memory: (address, byte) pairs with addresses strictly rising and no entry equal to the byte an unlisted
address reads as. Addresses: device-physical below 2^52, tile stores from 2^60, host memory of VI v from
2^64 x (v + 1). -/
structure Memory where
  cells : List Host.Cell := []
  deriving DecidableEq, Repr, Inhabited

/-- The package. `mem` is memory as every die cache shows it (R115); `die` holds the 32-byte sectors that are dirty in their
home die cache, each with the older bytes that HBM still holds (R420). `bad` lists granules with an uncorrectable error
(R419), `dieBad` those of them that are sectors of a die cache (R420), `tags` the attic page tags (R125), `freed` the row groups
released in the cycle of a forwarding of theirs (R395), `copy` the standby's state table (R301), `outs` what was sent to the
hosts. -/
structure State where
  clk : Clk := {}
  sched : Sched := {}
  mem : Memory := {}
  bad : List Nat := []
  dieBad : List Nat := []
  die : KMap (List Byte) := {}
  tags : KMap (BitVec 32) := {}
  tiles : KMap Tile := {}
  places : KMap Placement := {}
  regions : KMap Region := {}
  rots : KMap Rotation := {}
  ops : KMap Operator := {}
  rgs : KMap RowGroup := {}
  freed : KMap RowGroup := {}
  net : List NetRec := []
  stages : KMap Stage := {}
  cmds : KMap RunCmd := {}
  pool : List Contribution := []
  syscs : List SyscReq := []
  vis : KMap Vi := {}
  jobs : KMap Job := {}
  fe : List FeCmd := []
  copy : TableCopy := {}
  dev : Dev := {}
  outs : List HostMsg := []
  deriving DecidableEq, Repr, Inhabited

/-- The machine right after reset, before its boot ROMs have run (R382): no VI is enabled, nothing is registered or
placed, and device memory lists nothing. The values the spec states are PCAP 3200 (R377), CETHR 1024 (R393), FEPOL 0
(R439), complex A active (R301); every other field stands at the value of log 3 to 6. DESIGN CHOICE (log 3).
DESIGN CHOICE (log 6). -/
def State.reset : State := {}

/-- Why the machine stops with a fault. -/
inductive Fault where
  /-- Raised by the meaning of a tile-core word when the focused tile core executes no block, so that there is no
  instruction to perform. `step` never asks for this. Safe: no claim about a running block is affected. -/
  | noRunningBlock
  deriving DecidableEq, Repr, Inhabited

/-- Why the model refuses. -/
inductive Refusal where
  /-- Raised by an arm of `exec` whose instruction has no meaning in the model yet. Safe. -/
  | notModelled (mnemonic : String)
  /-- Raised by `step` when a word of the image store or a slot of a loaded context does not decode. REGISTER
  refuses every such image (R170, R400), so no accepted image reaches this. Safe. -/
  | undecodable (word : Nat)
  deriving DecidableEq, Repr, Inhabited

end Sys2Proof.Machine
end

