-- ==== Sys2Proof/Machine/Mem.lean ====
section
/-! DEFINITION. Byte memory in canonical form and the granules that hold an uncorrectable error (R419). -/

namespace Sys2Proof.Machine

/-- Key of the first byte of the tile stores. -/
def tileBase : Nat := 2 ^ 60

/-- Key of byte `off` of a tile's store (R106, R116). -/
def tileKey (tile off : Nat) : Nat := tileBase + tile * 2 ^ 21 + off

/-- Key of a byte of a VI's host memory (R302). -/
def hostKey (vi addr : Nat) : Nat := 2 ^ 64 * (vi + 1) + addr

/-- The byte an address holds in a canonical list: an unlisted one holds 0 (log 4). DESIGN CHOICE (log 4). -/
def getCell (l : List Host.Cell) (a : Nat) : Byte :=
  match l with
  | [] => 0
  | p :: ps => if p.1 = a then p.2 else getCell ps a

/-- A canonical list with one byte set: a zero byte is not listed. -/
def putCell (a : Nat) (b : Byte) : List Host.Cell → List Host.Cell
  | [] => if b = 0 then [] else [(a, b)]
  | p :: ps =>
    if a < p.1 then (if b = 0 then p :: ps else (a, b) :: p :: ps)
    else if a = p.1 then (if b = 0 then ps else (a, b) :: ps)
    else p :: putCell a b ps

/-- The canonical form: addresses strictly rising from a lower bound, no zero byte listed. -/
def cellsWf : Nat → List Host.Cell → Bool
  | _, [] => true
  | lo, p :: ps => decide (lo ≤ p.1) && p.2 != 0 && cellsWf (p.1 + 1) ps

/-- Memory is in canonical form. -/
def Memory.wf (m : Memory) : Bool := cellsWf 0 m.cells

/-- Read one byte. DESIGN CHOICE (log 4). -/
def Memory.get (m : Memory) (a : Nat) : Byte := getCell m.cells a

/-- Write one byte. -/
def Memory.set (m : Memory) (a : Nat) (b : Byte) : Memory := ⟨putCell a b m.cells⟩

/-- Write bytes at keys, in order. -/
def Memory.setAll (m : Memory) (l : List (Nat × Byte)) : Memory := l.foldl (fun m p => m.set p.1 p.2) m

/-- Keys of n consecutive bytes. -/
def keysFrom (a n : Nat) : List Nat := (List.range n).map (a + ·)

/-- n consecutive bytes. -/
def Memory.getN (m : Memory) (a n : Nat) : List Byte := (keysFrom a n).map m.get

/-- Bytes written from a key on. -/
def Memory.setN (m : Memory) (a : Nat) (l : List Byte) : Memory := m.setAll ((keysFrom a l.length).zip l)

/-- ECC granule of a key (R419): 8 bytes in a tile store, 32 elsewhere. -/
def granuleBytes (k : Nat) : Nat := if tileBase ≤ k ∧ k < 2 ^ 64 then 8 else 32

/-- First key of the granule of a key. -/
def granuleOf (k : Nat) : Nat := k / granuleBytes k * granuleBytes k

/-- Whether a read of these keys meets an uncorrectable error (R419). -/
def State.badRead (s : State) (ks : List Nat) : Bool := ks.any (fun k => s.bad.contains (granuleOf k))

/-- Whether a granule lies wholly inside the written keys. -/
def coversGranule (ks : List Nat) (g : Nat) : Bool := (keysFrom g (granuleBytes g)).all ks.contains

/-- Whether a write of these keys covers only part of a bad granule, and so is not performed (R419). -/
def State.badWrite (s : State) (ks : List Nat) : Bool :=
  ks.any (fun k => s.bad.contains (granuleOf k) && !coversGranule ks (granuleOf k))

/-- The bytes at keys. -/
def State.readKeys (s : State) (ks : List Nat) : List Byte := ks.map s.mem.get

/-- First key of the 32-byte sector of a key. -/
def sectorOf (k : Nat) : Nat := k / 32 * 32

/-- Home die of a local HBM key (R114). -/
def homeDie (k : Nat) : Nat := fld k 39 37

/-- Lines that a die cache holds: 96 MiB of 64 bytes (R16). -/
def dieLines : Nat := 1572864

/-- The dirty sectors of the die caches once the die of a key has room for its line (R16): a full cache writes a line back first,
one with no error (R420); which one is free (log 118). DESIGN CHOICE (log 118). -/
def State.dieRoom (s : State) (m : KMap (List Byte)) (k : Nat) : KMap (List Byte) :=
  if m.items.length < dieLines then m
  else
    let lines := ((m.keys.filter (fun g => homeDie g == homeDie k)).map (· / 64)).eraseDups
    let free := lines.filter (fun l => !s.dieBad.contains (64 * l) && !s.dieBad.contains (64 * l + 32))
    if lines.contains (k / 64) || lines.length < dieLines then m
    else match free[Config.dieVictim free % free.length]? with
      | some l => (m.erase (64 * l)).erase (64 * l + 32)
      | none => m

/-- The dirty sectors of the die caches after a write at keys: a sector of local HBM that was clean is dirty now, and HBM
still holds the bytes it had (R115, R420). DEDUCED (log 62). -/
def State.dirtied (s : State) (ks : List Nat) : KMap (List Byte) :=
  (ks.filter (fun k => decide (k < 2 ^ 40))).foldl (fun m k =>
    if (m.find? (sectorOf k)).isSome then m
    else (s.dieRoom m k).set (sectorOf k) (s.mem.getN (sectorOf k) 32)) s.die

/-- The state after bytes are written at keys: a bad granule that is wholly replaced is good again (R419). -/
def State.writeKeys (s : State) (ks : List Nat) (l : List Byte) : State :=
  { s with mem := s.mem.setAll (ks.zip l), bad := s.bad.filter (fun g => !coversGranule ks g), die := s.dirtied ks }

/-- The sectors of some keys written back and invalidated in their die cache (R115, R139). -/
def State.engineSync (s : State) (ks : List Nat) : State :=
  { s with die := ks.foldl (fun m k => m.erase (sectorOf k)) s.die, dieBad := s.dieBad.filter (fun g => !ks.any (sectorOf · == g)) }

/-- The state after a cellar engine has written bytes at keys: their sectors are written back before, and invalidated in the die
cache (R115, R139), so that HBM holds the bytes. -/
def State.engineStore (s : State) (ks : List Nat) (l : List Byte) : State := (s.writeKeys ks l).engineSync ks

/-- A die cache writes a dirty sector back, unless it holds an uncorrectable error (R115, R420); a clean sector with one may
leave its cache. -/
def State.dieClean (s : State) (key : Nat) : State :=
  let g := sectorOf key
  if s.bad.contains g && s.dieBad.contains g then
    if (s.die.find? g).isSome then s
    else { s with bad := s.bad.filter (· != g), dieBad := s.dieBad.filter (· != g) }
  else { s with die := s.die.erase g }

/-- The word of up to 8 bytes at keys. -/
def State.readWord (s : State) (ks : List Nat) : Nat := leNat (s.readKeys ks)

end Sys2Proof.Machine
end

