-- ==== Sys2Proof/Machine/Ops.lean ====
section
/-! DEFINITION. Named operations over the state that every family uses: places and their operators, tiles, cells and
cores, free values, error records and holds (R389 to R394), arrivals (R52, R232), barrier objects (R57), row groups
(R47 to R50) and the saved effects of a trap. -/

namespace Sys2Proof.Machine

/-! ### Accessors -/

/-- Zero lanes: what a lane register never written reads (log 6). -/
def zeroLanes : Lanes := Vector.replicate 8 0
/-- 1.0 in every lane (R90). -/
def oneLanes : Lanes := Vector.replicate 8 fwOne
/-- An empty plane: weights zero, column scales 1.0 (R224). -/
def zeroPlane : Plane := { rows := {}, cs := oneLanes }
/-- A cell with the reset values the spec states (R90, R224, R226). DESIGN CHOICE (log 6). -/
def freshCell : Cell :=
  { latA := oneLanes, latB := oneLanes, planeA := zeroPlane, planeS := zeroPlane, mrgA := fwOne, mrgB := fwOne }


def State.tile (s : State) (t : Nat) : Tile := s.tiles.getD t {}
def State.setTile (s : State) (t : Nat) (x : Tile) : State := { s with tiles := s.tiles.set t x }
def State.updTile (s : State) (t : Nat) (f : Tile → Tile) : State := s.setTile t (f (s.tile t))
def State.core (s : State) (t : Nat) : Core := (s.tile t).core
def State.updCore (s : State) (t : Nat) (f : Core → Core) : State := s.updTile t (fun x => { x with core := f x.core })
def Tile.cell (x : Tile) (c : Nat) : Cell := x.cells.getD c freshCell
def State.cellAt (s : State) (t c : Nat) : Cell := (s.tile t).cell c
def State.updCell (s : State) (t c : Nat) (f : Cell → Cell) : State :=
  s.updTile t (fun x => { x with cells := x.cells.set c (f (x.cell c)) })
def Tile.ag (x : Tile) (a : Nat) : Ag := x.ags.getD a {}
def State.updAg (s : State) (t a : Nat) (f : Ag → Ag) : State :=
  s.updTile t (fun x => { x with ags := x.ags.set a (f (x.ag a)) })
def Tile.bank (x : Tile) (b : Nat) : Bank := x.banks.getD b {}
def State.updBank (s : State) (t b : Nat) (f : Bank → Bank) : State :=
  s.updTile t (fun x => { x with banks := x.banks.set b (f (x.bank b)) })
def Tile.oprAt (x : Tile) (slot : Nat) : OpRegs := x.opr.getD slot {}
def State.updOpr (s : State) (t slot : Nat) (f : OpRegs → OpRegs) : State :=
  s.updTile t (fun x => { x with opr := x.opr.set slot (f (x.oprAt slot)) })
def State.vi (s : State) (v : Nat) : Vi := s.vis.getD v {}
def State.updVi (s : State) (v : Nat) (f : Vi → Vi) : State := { s with vis := s.vis.set v (f (s.vi v)) }
def State.job (s : State) (k : Nat) : Job := s.jobs.getD k {}
def State.updJob (s : State) (k : Nat) (f : Job → Job) : State := { s with jobs := s.jobs.set k (f (s.job k)) }
def State.region (s : State) (a : Nat) : Region := s.regions.getD a {}
def State.updRegion (s : State) (a : Nat) (f : Region → Region) : State :=
  { s with regions := s.regions.set a (f (s.region a)) }
def State.stage (s : State) (k : Nat) : Stage := s.stages.getD k {}
def State.updStage (s : State) (k : Nat) (f : Stage → Stage) : State :=
  { s with stages := s.stages.set k (f (s.stage k)) }
def State.updRg (s : State) (k : Nat) (f : RowGroup → RowGroup) : State :=
  match s.rgs.find? k with
  | none => s
  | some r => { s with rgs := s.rgs.set k (f r) }
def State.updPlace (s : State) (pk : Nat) (f : Placement → Placement) : State :=
  match s.places.find? pk with
  | none => s
  | some p => { s with places := s.places.set pk (f p) }
def State.updHamper (s : State) (pk : Nat) (f : Hamper → Hamper) : State :=
  s.updPlace pk (fun p => { p with hamper := f p.hamper })
def State.updDev (s : State) (f : Dev → Dev) : State := { s with dev := f s.dev }

/-! ### Free values (log 2) -/

/-- The next free word. DESIGN CHOICE (log 2). -/
def State.takeFree (s : State) : Word × State :=
  (Config.freeWord s.sched.free, { s with sched := { s.sched with free := s.sched.free + 1 } })

/-- A free choice among n alternatives; one alternative needs no choice. -/
def State.pick (s : State) (n : Nat) : Nat × State :=
  if n ≤ 1 then (0, s) else let r := s.takeFree; (r.1.toNat % n, r.2)

/-- A fresh identifier for a stream, command or row group. -/
def State.newId (s : State) : Nat × State :=
  (s.sched.ids, { s with sched := { s.sched with ids := s.sched.ids + 1 } })

/-! ### Places -/

/-- Key of a placement: anchor tile and hamper slot. -/
def placeKey (anchor slot : Nat) : Nat := anchor * 4 + slot
def keyAnchor (pk : Nat) : Nat := pk / 4
def keySlot (pk : Nat) : Nat := pk % 4

/-- Physical tile of a die, column and row (R18). -/
def physTile (die x y : Nat) : Nat := die * 144 + y * 12 + x

/-- Physical tile of virtual tile vt of a rectangle (R18, R313). -/
def physOf (p : Placement) (vt : Nat) : Nat := physTile p.die (p.x + vt % 12) (p.y + vt / 12)

/-- Virtual tiles of a w x h rectangle, rising. -/
def virtTiles (w h : Nat) : List Nat :=
  (List.range h).flatMap (fun y => (List.range w).map (fun x => y * 12 + x))

/-- Physical tiles of a placement, in virtual order. -/
def Placement.tiles (p : Placement) : List Nat := (virtTiles p.w p.h).map (physOf p)

/-- Virtual tile of a physical tile of a placement (R18). -/
def Placement.vtOf (p : Placement) (t : Nat) : Option Nat := (virtTiles p.w p.h).find? (fun v => physOf p v == t)

/-- Anchor tile of a placement. -/
def Placement.anchor (p : Placement) : Nat := physTile p.die p.x p.y

/-- Key of a placement from its own fields. -/
def Placement.key (p : Placement) : Nat := placeKey p.anchor p.slot

/-- The image of a placed operator, from the image store (R170). -/
def State.imageOf (s : State) (p : Placement) : Option Image := (s.ops.find? p.regId.toNat).map (·.image)

/-- Placements whose region holds a tile. -/
def State.placesOn (s : State) (t : Nat) : List (Nat × Placement) :=
  match (s.tile t).anchor with
  | none => []
  | some a => s.places.items.filter (fun q => keyAnchor q.1 == a)

/-- The key of the operator loaded on a tile's region (R316). -/
def State.loadedOn (s : State) (t : Nat) : Option Nat :=
  match (s.tile t).anchor with
  | none => none
  | some a => (s.region a).loaded

/-- Entries of a task table: bytes 0 to 7 hold tg [5:0], priority [9:8] and the first-block offset [63:32]. The table
ends where the lowest first block begins (R176, log 27); the first argument bounds the entries. DEDUCED (log 27). -/
def taskTableAux : Nat → Nat → Nat → List (BitVec 32) → List (Nat × Nat × Nat)
  | 0, _, _, _ => []
  | fuel + 1, i, lim, ws =>
    if 4 * i + 4 ≤ lim then
      match ws with
      | a :: b :: _ :: _ :: rest =>
        (fld a.toNat 5 0, fld a.toNat 9 8, b.toNat) :: taskTableAux fuel (i + 1) (min lim b.toNat) rest
      | _ => []
    else []

/-- The task table of a TASK section: (tag, priority, first-block word offset) for each entry (R176).
DEDUCED (log 27). -/
def taskTable (ws : List (BitVec 32)) : List (Nat × Nat × Nat) := taskTableAux 64 0 ws.length ws

/-- The task bound to a tag on a virtual tile: priority and first-block offset. -/
def Image.task (im : Image) (vt tag : Nat) : Option (Nat × Nat) :=
  ((taskTable (im.tasks.getD vt [])).find? (fun e => e.1 == tag)).map Prod.snd

/-- The VI of a placement. -/
def State.placeVi (s : State) (pk : Nat) : Option Nat := (s.places.find? pk).map (·.vi)

/-- The placement on a tile whose task table binds a tag; route tags of a region are distinct in a tile (R312). -/
def State.tagOwner (s : State) (t tag : Nat) : Option Nat :=
  ((s.placesOn t).find? (fun q =>
    match s.imageOf q.2, q.2.vtOf t with
    | some im, some vt => (im.task vt tag).isSome
    | _, _ => false)).map Prod.fst

/-- Whether an arrival is for an operator that is not loaded on its region (R316). -/
def State.idleArrival (s : State) (t : Nat) (a : Arrival) : Bool :=
  match s.loadedOn t with
  | some pk => s.tagOwner t a.tag != some pk
  | none => true

/-- How many of some arrivals at a tile stand in its arrival store, and how many of these are for operators that are not
loaded: 256 entries, of which arrivals for those operators take 192 at most (R52, R316). Behind them senders are held. -/
def State.storeFill (s : State) (t : Nat) (l : List Arrival) : Nat × Nat :=
  l.foldl (fun n a =>
    let idle := s.idleArrival t a
    if n.1 < 256 ∧ (!idle ∨ n.2 < 192) then (n.1 + 1, if idle then n.2 + 1 else n.2) else n) (0, 0)

/-- Whether arrival i of a tile stands in its arrival store (R52, R316). DEDUCED (log 79). -/
def State.inStore (s : State) (t i : Nat) (a : Arrival) : Bool :=
  let n := s.storeFill t ((s.core t).arrivals.take i)
  decide (n.1 < 256) && (!s.idleArrival t a || decide (n.2 < 192))

/-- The arrivals in a tile's arrival store. DEDUCED (log 79). -/
def State.arrivalStore (s : State) (t : Nat) : List Arrival :=
  ((s.core t).arrivals.zipIdx.filter (fun q => s.inStore t q.2 q.1)).map Prod.fst

/-- Whether some arrival of a sender waits outside a tile's full arrival store: its sender is held (R52, R316).
DEDUCED (log 79). -/
def State.sendsHeld (s : State) (t : Nat) (p : Arrival → Bool) : Bool :=
  (s.core t).arrivals.zipIdx.any (fun q => p q.1 && !s.inStore t q.2 q.1)

/-- Hamper parameters of R40, from the OPER descriptor (R177). -/
structure HamperPar where
  height : Nat
  timeout : Nat
  boarding : Nat
  binding : Nat
  successor : Nat
  payload : Nat
  carry : Nat
  fireTag : Nat
  deriving DecidableEq, Repr, Inhabited

def operPar (w : Word) : HamperPar :=
  { height := w.fld 63 56, timeout := w.fld 55 46, boarding := w.fld 45 43, binding := w.fld 42 41,
    successor := w.fld 40 33, payload := w.fld 32 21, carry := w.fld 20 9, fireTag := w.fld 8 3 }

/-- Hamper parameters of a placement. -/
def State.parOf (s : State) (p : Placement) : HamperPar :=
  match s.imageOf p with
  | some im => operPar im.oper
  | none => default

/-- A token moved or a slot fired in a tile's region in this cycle (R408). -/
def State.noteMove (s : State) (t : Nat) : State :=
  match (s.tile t).anchor with
  | none => s
  | some a => s.updRegion a (fun r => { r with lastMove := s.clk.cycle })

/-- Note a cause of R429 for the class 0 work of some placements: the closed tiles that wait, and the firings whose first
instruction has not come yet. DEDUCED (log 71). -/
def State.noteCause (s : State) (on : Nat → Placement → Bool) (bit : Nat) : State :=
  let hit (k : Nat) (p : Placement) : Bool := p.cls == 0 && on k p
  let mark (c : Closed) : Closed := { c with causes := c.causes ||| 2 ^ bit }
  { s with
    places := s.places.mapVals (fun k p =>
      if hit k p then { p with hamper := { p.hamper with closed := p.hamper.closed.map mark } } else p)
    rgs := s.rgs.mapVals (fun _ g =>
      match s.places.find? g.pk with
      | some p => if hit g.pk p then { g with causes := g.causes ||| 2 ^ bit } else g
      | none => g) }

/-- Note a cause of R429 for the closed tiles alone of some class 0 placements. DEDUCED (log 71). -/
def State.noteClosed (s : State) (on : Nat → Placement → Bool) (bit : Nat) : State :=
  let mark (c : Closed) : Closed := { c with causes := c.causes ||| 2 ^ bit }
  { s with places := s.places.mapVals (fun k p =>
      if p.cls == 0 && on k p then { p with hamper := { p.hamper with closed := p.hamper.closed.map mark } } else p) }

/-- Key of a job. -/
def jobKey (vi job : Nat) : Nat := vi * 4096 + job

/-- Microseconds in cycles: 940 MHz (R3). -/
def usCycles (us : Nat) : Nat := us * 940

/-! ### Queues in memory (R302, R305, R392) -/

/-- Entries of a queue: 2^lsize (R302). -/
def RingQ.size (q : RingQ) : Nat := 2 ^ q.w1.fld 63 60

/-- The vector a queue signals (R302). -/
def RingQ.vector (q : RingQ) : Nat := q.w1.fld 55 48

/-- First byte of the queue (R302). -/
def RingQ.base (q : RingQ) : Nat := q.w0.fld 62 12 * 4096

/-- Whether the queue lies in device memory (R302). -/
def RingQ.inDevice (q : RingQ) : Bool := q.w0.getLsbD 63

/-- Whether the writer has filled the queue: it keeps one entry free between tail and head (R371, log 28).
DEDUCED (log 28). -/
def RingQ.full (q : RingQ) : Bool := (q.tail + 1) % q.size == q.head % q.size

/-- The writer's position after one more entry; the phase inverts on a wrap (R305). -/
def RingQ.advance (q : RingQ) : RingQ :=
  let t := (q.tail + 1) % q.size
  { q with tail := t, phase := if t = 0 then !q.phase else q.phase }

/-- Signal a vector for a queue of a port (R148, R371): a message follows by MSIX_MESSAGE on that port. PRESUMED (log 92). -/
def State.signal (s : State) (vi vec port : Nat) : State :=
  s.updVi vi (fun v => { v with vecPend := v.vecPend.set vec (s.clk.cycle, port) })

end Sys2Proof.Machine
end

