-- ==== Sys2Proof/Machine/Access.lean ====
section
/-! DEFINITION. The path of an access (R105 to R120): effective addresses, handles, windows, two-stage translation,
the tile window, and the tile cache. An access is checked whole before any byte of it is performed (R414). -/

namespace Sys2Proof.Machine

/-- A failed access: the code of R412, the address its record names, and the detail bits of R413. -/
structure Fail where
  code : Nat
  loc : Word
  detail : Nat := 0
  deriving DecidableEq, Repr, Inhabited

/-- An access that is allowed, or why it is not. -/
abbrev Res (α : Type) := Except Fail α

/-! ### Physical addresses (R114) -/

/-- Whether an offset lies in a stack's 48 GB (R114); GB are powers of ten (R4). -/
def hbmOk (pa : Nat) : Bool := decide (pa % 2 ^ 36 < 48 * 10 ^ 9)

/-- Attic offset of a device-physical address, if it names attic (R114). -/
def atticOff (pa : Nat) : Option Nat :=
  if fld pa 51 41 = 1 then (if pa % 2 ^ 41 < 1536 * 10 ^ 9 then some (pa % 2 ^ 41) else none) else none

/-- The attic link that serves an attic offset (R378): 4 KiB granules rotate across the four links. -/
def atticLink (o : Nat) : Nat := fld o 13 12

/-- Whether a package answers: the local one, or one whose route has a trained port (R379, R445).
DEDUCED (log 63). -/
def State.pkgReachable (s : State) (pkg : Nat) : Bool :=
  pkg == s.dev.pkgid || ((s.dev.rtbl.getD pkg 0) &&& s.dev.lnkstat) != 0

/-- What a device-physical address names: a memory key, or the failure code. `attic` allows attic targets, which only
the copy engine reaches (R114, log 25). A remote package that is down fails at once (R445). DEDUCED (log 25). -/
def State.physTarget (s : State) (attic : Bool) (pa : Nat) : Except Nat Nat :=
  if pa ≥ 2 ^ 52 then .error 0x17
  else if bitOf pa 51 then
    if fld pa 42 40 != 0 || !hbmOk pa then .error 0x17
    else if fld pa 50 43 = s.dev.pkgid then .ok (pa % 2 ^ 40)
    else if s.pkgReachable (fld pa 50 43) && !s.dev.dropMarks.contains (fld pa 50 43, s.sched.moves) then .ok pa
    else .error 0x0D
  else if fld pa 50 40 = 0 then (if hbmOk pa then .ok pa else .error 0x17)
  else if attic && (atticOff pa).isSome then .ok pa
  else .error 0x17

/-- The detail of a failure at a device-physical address (R413, R438): the walk level for a hole, the port and package for a
remote package that does not answer. DEDUCED (log 100). -/
def State.physDetail (s : State) (code pa lvl : Nat) : Nat :=
  if code = 0x0D then
    let pkg := fld pa 50 43
    ((List.range 16).find? (fun i => ((s.dev.rtbl.getD pkg 0) &&& s.dev.lnkstat).getLsbD i)).getD 0 + pkg * 2 ^ 8
  else lvl * 2 ^ 24

/-! ### Translation (R111, R112) -/

/-- Bits an index of a level takes: low bit and width (R112). -/
def levelBits (lvl : Nat) : Nat × Nat :=
  match lvl with
  | 5 => (48, 9)
  | 4 => (39, 9)
  | 3 => (30, 9)
  | 2 => (21, 9)
  | _ => (16, 5)

/-- A finished walk: the address, the leaf's permissions and its level. -/
structure Walk where
  addr : Nat
  rd : Bool
  wr : Bool
  lvl : Nat
  deriving DecidableEq, Repr, Inhabited

/-- A walk of one stage from a table at `base` down from level `lvl` (R112). `rdEntry` reads an entry of a table of
a level of this stage; `code` is the stage's failure code, and the failing level is the detail (R413). A table that is not
aligned to its size faults (log 26). Permission is the leaf's (log 26). DEDUCED (log 26). -/
def walkFrom (code : Nat) (rdEntry : Nat → Nat → Res Nat) (va : Nat) : Nat → Nat → Res Walk
  | 0, _ => .error ⟨code, wd va, 0⟩
  | lvl + 1, base =>
    let l := lvl + 1
    let lb := levelBits l
    let bad : Res Walk := .error ⟨code, wd va, l * 2 ^ 24⟩
    if base % (8 * 2 ^ lb.2) != 0 then bad
    else
      match rdEntry l (base + 8 * fld va (lb.1 + lb.2 - 1) lb.1) with
      | .error e => .error e
      | .ok e =>
        if !bitOf e 0 || fld e 63 52 != 0 || fld e 7 4 != 0 then bad
        else if bitOf e 1 then
          if l ≥ 4 then bad
          else
            let a := fld e 51 8 * 256
            if a % 2 ^ lb.1 != 0 then bad
            else .ok { addr := a + va % 2 ^ lb.1, rd := bitOf e 2, wr := bitOf e 3, lvl := l }
        else if l = 1 then bad
        else walkFrom code rdEntry va lvl (fld e 51 8 * 256)

/-- Reads a table entry of a level at a device-physical address (R114, R413, R419). -/
def State.readEntry (s : State) (lvl pa : Nat) : Res Nat :=
  match s.physTarget false pa with
  | .error c => .error ⟨c, wd pa, s.physDetail c pa lvl⟩
  | .ok k =>
    if s.badRead (keysFrom k 8) then .error ⟨0x1D, wd pa, 0⟩ else .ok (s.readWord (keysFrom k 8))

/-- Host stage (R111): an intermediate address to a device-physical one. A root that is not enabled faults (R374).
DEDUCED (log 26). -/
def State.hostStage (s : State) (vi ipa : Nat) : Res Walk :=
  let root := (s.vi vi).hsroot
  if !root.getLsbD 63 then .error ⟨0x17, wd ipa, 5 * 2 ^ 24⟩
  else
    match walkFrom 0x17 s.readEntry ipa 5 (root.fld 51 12 * 4096) with
    | .error e => .error e
    | .ok w =>
      match s.physTarget true w.addr with
      | .error c => .error ⟨c, wd ipa, s.physDetail c w.addr w.lvl⟩
      | .ok _ => .ok w

/-- VI stage (R111): its table addresses are intermediate addresses. -/
def State.viStage (s : State) (vi va : Nat) : Res Walk :=
  let root := (s.vi vi).vsroot
  if !root.getLsbD 63 then .error ⟨0x16, wd va, 5 * 2 ^ 24⟩
  else
    walkFrom 0x16 (fun _ ipa =>
      match s.hostStage vi ipa with
      | .error e => .error e
      | .ok w => if w.rd then s.readEntry w.lvl w.addr else .error ⟨0x17, wd ipa, w.lvl * 2 ^ 24⟩) va 5 (root.fld 51 12 * 4096)

/-- Why a translation denies an access, if it does: the code of the stage that denies it and the level of its leaf (R112,
R413). -/
def Trans.deny (t : Trans) (rd wr : Bool) : Option (Nat × Nat) :=
  if (rd && !t.rd) || (wr && !t.wr) then some (0x16, t.lvl)
  else if (rd && !t.hrd) || (wr && !t.hwr) then some (0x17, t.hlvl)
  else none

/-- Both stages for a page of a VI's space as memory holds them now, with the permissions asked for (R111, R112). -/
def State.walk (s : State) (vi va : Nat) (rd wr : Bool) : Res Trans :=
  match s.viStage vi va with
  | .error e => .error e
  | .ok v =>
    if (rd && !v.rd) || (wr && !v.wr) then .error ⟨0x16, wd va, v.lvl * 2 ^ 24⟩
    else
      match s.hostStage vi v.addr with
      | .error e => .error ⟨e.code, wd va, e.detail⟩
      | .ok h =>
        let t : Trans := { frame := h.addr, rd := v.rd, wr := v.wr, lvl := v.lvl, hrd := h.rd, hwr := h.wr, hlvl := h.lvl }
        match t.deny rd wr with
        | some d => .error ⟨d.1, wd va, d.2 * 2 ^ 24⟩
        | none => .ok t

/-- The level of the host leaf that a page of a VI's space leads to, for the record of an address that no agent may reach there
(R413). -/
def State.leafLevel (s : State) (vi va : Nat) : Nat :=
  match s.walk vi (va / 65536 * 65536) false false with
  | .ok w => w.hlvl
  | .error _ => 1

/-- The TLBs (R19, R113): a tile core's, an address generator's, and those of the engines of a die, by queue kind. The ordering
points and the front end hold none. DEDUCED (log 88). -/
def coreUnit (t : Nat) : Option Nat := some (16 * t)
def agUnit (t a : Nat) : Option Nat := some (16 * t + 1 + a)
def engineUnit (t kind : Nat) : Option Nat := some (2 ^ 20 + 16 * (t / 144) + kind)

/-- Translations of a page that a unit's TLB holds (R113). DEDUCED (log 88). -/
def Vi.tlbFor (v : Vi) (u : Option Nat) (page : Nat) : List TlbEntry := v.tlb.filter (fun e => some e.unit == u && e.page == page)

/-- What an access gets from a translation: the frame, or the failure of a denied access. -/
def Trans.answer (t : Trans) (va : Nat) (rd wr : Bool) : Res Nat :=
  match t.deny rd wr with
  | some d => .error ⟨d.1, wd va, d.2 * 2 ^ 24⟩
  | none => .ok t.frame

/-- The answer of a walk. -/
def walkAnswer (r : Res Trans) (va : Nat) : Res Nat :=
  match r with
  | .ok t => .ok t.frame
  | .error f => .error ⟨f.code, wd va, f.detail⟩

/-- Whether two answers differ. -/
def answersDiffer (a b : Res Nat) : Bool :=
  match a, b with
  | .ok x, .ok y => x != y
  | .error x, .error y => x != y
  | _, _ => true

/-- One page's translation: the walk of memory as it is now, or a translation that the unit's TLB still holds, which may
permit or deny what the tables no longer do; which one is a free choice until an invalidation completes (R113). A walk that
faults, a denied access included (R112), leaves nothing in the TLB (R415). DEDUCED (log 88). -/
def State.translatePage (s : State) (u : Option Nat) (vi va : Nat) (rd wr : Bool) : Res Nat × State :=
  let page := va / 65536
  let fresh := s.walk vi (page * 65536) rd wr
  let stale := ((s.vi vi).tlbFor u page).filter (fun e => answersDiffer (e.tr.answer va rd wr) (walkAnswer fresh va))
  let c := s.pick (stale.length + 1)
  match stale[c.1]? with
  | some e => (e.tr.answer va rd wr, c.2)
  | none =>
    match fresh, u with
    | .ok t, some n =>
      (walkAnswer fresh va, c.2.updVi vi (fun v => if v.tlb.any (fun e => e.unit == n && e.page == page && e.tr == t) then v else
        { v with tlb := { unit := n, page := page, tr := t, age := v.invCount } :: v.tlb }))
    | _, _ => (walkAnswer fresh va, c.2)

/-! ### Windows (R109, R110) -/

/-- First byte, length in bytes, and permissions of a window descriptor (R110); length 0 is disabled. -/
def WinDesc.base (d : WinDesc) : Nat := d.w0.fld 56 16 * 65536
def WinDesc.len (d : WinDesc) : Nat := d.w1.fld 40 0 * 65536
def WinDesc.holds (d : WinDesc) (a : Nat) : Bool := decide (d.base ≤ a) && decide (a < d.base + d.len)

/-- The window index that holds an address, if one does. -/
def windowOf (w : KMap WinDesc) (a : Nat) : Option (Nat × WinDesc) := w.items.find? (fun p => p.2.holds a)

/-- The window check of one access against one table of descriptors (R109): 0 when it passes, else the code. -/
def windowCode (w : KMap WinDesc) (a n : Nat) (rd wr : Bool) : Nat :=
  match windowOf w a with
  | none => 0x14
  | some (_, d) =>
    if !d.holds (a + n - 1) then 0x14
    else if (rd && !d.w0.getLsbD 0) || (wr && !d.w0.getLsbD 1) then 0x15
    else 0

/-- The window check: the descriptors in force, or a table that an access may still use before the next kind-1
request completes (R376). -/
def State.windowCheck (s : State) (vi a n : Nat) (rd wr : Bool) : Res Unit × State :=
  let v := s.vi vi
  let c := s.pick (v.windOld.length + 1)
  let tab := match v.windOld[c.1]? with | some t => t.2 | none => v.wind
  let code := windowCode tab a n rd wr
  if code = 0 then (.ok (), c.2)
  else
    let idx := match windowOf tab a with | some p => p.1 | none => 0xFF
    (.error ⟨code, wd a, idx * 65536⟩, c.2)

/-! ### Device-virtual accesses (R108 steps 2 to 4) -/

/-- The memory keys of n bytes at a device-virtual address of a VI, checked whole (R108, R414): window, then both
stages for each page it touches, then the physical range. `u` names the TLB that the access goes through, and a failure names
the first byte (R413). -/
def State.resolveDv (s : State) (attic : Bool) (u : Option Nat) (vi a n : Nat) (rd wr : Bool) : Res (List Nat) × State :=
  if n = 0 then (.ok [], s)
  else
    match s.windowCheck vi a n rd wr with
    | (.error e, s) => (.error e, s)
    | (.ok _, s) =>
      let pages := (List.range ((a + n - 1) / 65536 + 1 - a / 65536)).map (a / 65536 + ·)
      let r := pages.foldl (fun (acc : Res (List (Nat × Nat)) × State) p =>
        match acc.1 with
        | .error e => (.error e, acc.2)
        | .ok l =>
          match acc.2.translatePage u vi (max a (p * 65536)) rd wr with
          | (.error e, s) => (.error { e with loc := wd a }, s)
          | (.ok f, s) => (.ok (l ++ [(p, f)]), s)) ((.ok [] : Res (List (Nat × Nat))), s)
      match r with
      | (.error e, s) => (.error e, s)
      | (.ok l, s) =>
        let keys := (keysFrom a n).map (fun b =>
          match l.find? (fun q => q.1 == b / 65536) with
          | some q =>
            match s.physTarget attic (q.2 + b % 65536) with
            | .error c => Except.error (c, q.2 + b % 65536)
            | .ok k => .ok k
          | none => .error (0x17, 0))
        match keys.findSome? (fun k => match k with | .error c => some c | .ok _ => none) with
        | some (c, pa) =>
          (.error ⟨c, wd a, s.physDetail c pa (s.leafLevel vi a)⟩, s)
        | none => (.ok (keys.filterMap (fun k => match k with | .ok x => some x | .error _ => none)), s)

/-! ### Tile window (R106, R116) -/

/-- Rows that the arrays of a row group hold (R455): those of its tile slot; a group without one would have a single row. -/
def RowGroup.height (g : RowGroup) : Nat := if g.tileSlot.isSome then 64 else 1

/-- Whether a byte of a tile store lies in the record or payload array of a live row group (R49, R116). -/
def State.inLiveArrays (s : State) (t off : Nat) : Bool :=
  s.rgs.anyP (fun _ g =>
    g.home == t &&
    ((decide (g.base ≤ off) && decide (off < g.base + 128 * g.height)) ||
     (match s.places.find? g.pk with
      | some p => decide (g.pay ≤ off) && decide (off < g.pay + 64 * (s.parOf p).payload * g.height)
      | none => false)))

/-- Whether the tile window reaches a byte (R116). -/
def State.windowByteOk (s : State) (t off : Nat) : Bool :=
  let b := (s.tile t).bank (off / 0x20000)
  match b.trans, b.mode with
  | some _, _ => false
  | none, .scratch => true
  | none, .fifo => s.inLiveArrays t off
  | none, .cache => false

/-- The tile-window check of n bytes of a tile (R106, R116). DEDUCED (log 78). -/
def State.windowRange (s : State) (t off n : Nat) (loc : Word) : Res (List Nat) :=
  if off + n > 0x180000 then .error ⟨0x11, loc, 0⟩
  else if (keysFrom off n).all (s.windowByteOk t) then .ok (keysFrom (tileKey t off) n)
  else .error ⟨0x12, loc, 0⟩

/-- The tile a tile_sel names for an issuer of placement pk in tile t (R106). -/
def State.tileSel (s : State) (t pk sel : Nat) : Option Nat :=
  if sel = 0x7FF then some t
  else
    match s.places.find? pk with
    | none => none
    | some p => if (virtTiles p.w p.h).contains sel then some (physOf p sel) else none

/-- An own-tile address of an offset (R106). -/
def ownTileAddr (off : Nat) : Word := wd (0xFE000000FFE00000 + off)

/-- The tile-window address of an offset in an operator's anchor tile, as a tile of the operator names it (R106): its own, or by
virtual tile 0. -/
def Placement.anchorAddr (p : Placement) (t off : Nat) : Word :=
  if t = p.anchor then ownTileAddr off else wd (0xFE00000000000000 + off)

/-- The keys of n bytes at an effective address of a tile-core or stream access (R106 to R109): placement pk, tile t,
the operator's VI, alignment `align`, through the TLB of unit `u`. DEDUCED (log 78). -/
def State.resolveEa (s : State) (u : Option Nat) (t pk vi : Nat) (a : Word) (n align : Nat) (rd wr : Bool) :
    Res (List Nat) × State :=
  let form := a.fld 63 57
  if form = 0 then
    match s.windowCheck vi a.toNat n rd wr with
    | (.error e, s) => (.error e, s)
    | (.ok _, s1) =>
      if a.toNat % align != 0 then (.error ⟨0x13, a, 0⟩, s1) else s.resolveDv false u vi a.toNat n rd wr
  else if form = 0x7F then
    if a.fld 56 32 != 0 then (.error ⟨0x10, a, 0⟩, s)
    else
      match s.tileSel t pk (a.fld 31 21) with
      | none => (.error ⟨0x11, a, 0⟩, s)
      | some tt =>
        if a.fld 20 0 % align != 0 then (.error ⟨0x13, a, 0⟩, s)
        else (s.windowRange tt (a.fld 20 0) n a, s)
  else (.error ⟨0x10, a, 0⟩, s)

/-! ### Handles (R118 to R120) -/

/-- The fields of a handle (R118). -/
def hVi (h : Word) : Nat := h.fld 63 58
def hGen (h : Word) : Nat := h.fld 57 46
def hIndex (h : Word) : Nat := h.fld 45 26
def hOffset (h : Word) : Nat := h.fld 25 0

/-- The fields of an entry (R119). -/
def HEntry.vi (e : HEntry) : Nat := e.w0.fld 63 58
def HEntry.gen (e : HEntry) : Nat := e.w0.fld 57 46
def HEntry.tier (e : HEntry) : Nat := e.w0.fld 45 44
def HEntry.stride (e : HEntry) : Nat := e.w0.fld 43 24
def HEntry.valid (e : HEntry) : Bool := e.w0.getLsbD 23
def HEntry.shared (e : HEntry) : Bool := e.w0.getLsbD 22
def HEntry.kv (e : HEntry) : Bool := e.w0.getLsbD 21
def HEntry.weights (e : HEntry) : Bool := e.w0.getLsbD 20
def HEntry.grammar (e : HEntry) : Bool := e.w0.getLsbD 19
def HEntry.writable (e : HEntry) : Bool := e.w0.getLsbD 18
def HEntry.base (e : HEntry) : Nat := e.w1.fld 56 0
def HEntry.bound (e : HEntry) : Nat := e.w2.fld 25 0
def HEntry.atticPa (e : HEntry) : Nat := e.w3.fld 51 0

/-- An entry that is not in use. -/
def noEntry : HEntry := ⟨0, 0, 0, 0⟩

/-- The entry a dereference sees: the present one, or an older one before the next handle invalidation completes
(R119); an index beyond the slice has none. -/
def State.entryFor (s : State) (h : Word) : Option HEntry × State :=
  let v := s.vi (hVi h)
  let cs := s.pick (v.sliceOld.length + 1)
  let size := match v.sliceOld[cs.1]? with | some z => z.2 | none => v.slice
  if hIndex h ≥ size then (none, cs.2)
  else
    let old := v.hOld.getD (hIndex h) []
    let c := cs.2.pick (old.length + 1)
    (some (match old[c.1]? with | some e => e.2 | none => v.handles.getD (hIndex h) noEntry), c.2)

/-- What a dereference gives: an entry in HBM, a stall on an absent page, or a failure (R120). -/
inductive Deref where
  | ready (e : HEntry)
  | stall (e : HEntry)
  | fail (code : Nat)
  deriving DecidableEq, Repr, Inhabited

/-- Deref of R120 against one entry. -/
def derefEntry (e : HEntry) (h : Word) (n : Nat) (write : Bool) (vi : Nat) : Deref :=
  if !e.valid || e.gen != hGen h then .fail 0x18
  else if hVi h != vi && !(e.shared && !write) then .fail 0x19
  else if write && (e.shared || !e.writable) then .fail 0x1A
  else if n = 0 || hOffset h + n > e.bound then .fail 0x1B
  else if e.tier = 3 then .fail 0x1C
  else if e.tier != 0 then .stall e
  else .ready e

/-- Deref of R120 by VI `vi`. DEDUCED (log 25). -/
def State.deref (s : State) (h : Word) (n : Nat) (write : Bool) (vi : Nat) : Deref × State :=
  match s.entryFor h with
  | (none, s) => (.fail 0x18, s)
  | (some e, s) => (derefEntry e h n write vi, s)

/-- Device-virtual address of position i past a handle's offset (R120). -/
def HEntry.addrOf (e : HEntry) (h : Word) (i : Nat) : Nat := e.base + (hOffset h + i) * e.stride

/-! ### Tile cache (R115, R116, R141) -/

/-- Ways of a tile's cache: its banks in CACHE mode that are not in transition, those outside every allocation too, whose
mode the spec does not state. DESIGN CHOICE (log 103). -/
def Tile.wayList (x : Tile) : List Nat := (List.range 12).filter (fun b => (x.bank b).mode == .cache && (x.bank b).trans.isNone)

/-- How many ways a tile's cache has. DESIGN CHOICE (log 103). -/
def Tile.ways (x : Tile) : Nat := x.wayList.length

/-- Whether a key is cached by tile caches: local HBM only (R115). -/
def cacheable (k : Nat) : Bool := decide (k < 2 ^ 40)

/-- The bytes of a line that are dirty, with their keys; a sector with an uncorrectable error is not written back
(R420). -/
def CacheLine.dirtyBytes (l : CacheLine) : List (Nat × Byte) :=
  (l.bytes.zipIdx.filter (fun p => l.dirty.getLsbD p.2 && !l.bad.getLsbD (p.2 / 32))).map
    (fun p => (l.line * 64 + p.2, p.1))

/-- Whether a line keeps a dirty sector that cannot be written back (R420). -/
def CacheLine.stuck (l : CacheLine) : Bool :=
  (List.range 2).any (fun k => l.bad.getLsbD k && ((l.dirty >>> (32 * k)).toNat % 2 ^ 32 != 0))

/-- Write dirty bytes of a line to memory. -/
def State.writeBackLine (s : State) (l : CacheLine) : State :=
  s.writeKeys (l.dirtyBytes.map Prod.fst) (l.dirtyBytes.map Prod.snd)

/-- A line after its write-back: clean but for what could not be written. -/
def CacheLine.cleaned (l : CacheLine) : CacheLine :=
  { l with dirty := maskOf 64 ((List.range 64).filter (fun i => l.dirty.getLsbD i && l.bad.getLsbD (i / 32))) }

/-- Write back every dirty byte of a tile's cache (R141). -/
def State.cacheClean (s : State) (t : Nat) : State :=
  let s1 := (s.tile t).cache.foldl State.writeBackLine s
  s1.updTile t (fun x => { x with cache := x.cache.map CacheLine.cleaned })

/-- What is left of a line that is written back and invalidated: the sectors that cannot be written back (R420). -/
def CacheLine.dropped (l : CacheLine) : Option CacheLine :=
  let keep := l.bad &&& maskOf 2 ((List.range 2).filter (fun k => (l.dirty >>> (32 * k)).toNat % 2 ^ 32 != 0))
  if keep = 0 then none else some { l.cleaned with valid := keep, bad := keep }

/-- Write back and invalidate a tile's cache (R141); a stuck sector stays (R420). -/
def State.cacheFlush (s : State) (t : Nat) : State :=
  (s.cacheClean t).updTile t (fun x => { x with cache := x.cache.filterMap CacheLine.dropped })

/-- Write back and invalidate one way of a tile's cache (R117); a stuck sector stays (R420). -/
def State.cacheFlushWay (s : State) (t way : Nat) : State :=
  let s1 := ((s.tile t).cache.filter (fun l => l.way == way)).foldl State.writeBackLine s
  s1.updTile t (fun x => { x with cache := x.cache.filterMap (fun l => if l.way = way then l.dropped else some l) })

/-- The cached line of a key, where the key's sector is present. -/
def Tile.lineOf (x : Tile) (k : Nat) : Option CacheLine :=
  x.cache.find? (fun l => l.line == k / 64 && l.valid.getLsbD (k % 64 / 32))

/-- A line as memory holds it, to stand in a way: a sector with an uncorrectable error comes in as such (R419). -/
def State.freshLine (s : State) (line way : Nat) : CacheLine :=
  { line := line, way := way, bytes := s.mem.getN (line * 64) 64, dirty := 0,
    bad := maskOf 2 ((List.range 2).filter (fun n => s.bad.contains (line * 64 + 32 * n))) }

/-- A line with its absent sectors as memory holds them. -/
def State.refilled (s : State) (l : CacheLine) : CacheLine :=
  let m := s.freshLine l.line l.way
  { l with
    bytes := (List.range 64).map (fun i => (if l.valid.getLsbD (i / 32) then l.bytes else m.bytes).getD i 0)
    bad := (l.bad &&& l.valid) ||| (m.bad &&& ~~~ l.valid), valid := 3 }

/-- Bring the line of a key into a tile's cache: the rest of a line of which a sector is there, into a free way of its set, or,
when the set is full, in place of a line after its write-back; which of them is a free choice (R116 gives no replacement
rule). Where every way keeps a sector that cannot be written back (R420) the line stays out. -/
def State.cacheFill (s : State) (t k : Nat) : State :=
  let x := s.tile t
  if (x.lineOf k).isSome then s
  else if x.cache.any (fun l => l.line == k / 64) then
    s.updTile t (fun x => { x with cache := x.cache.map (fun l => if l.line = k / 64 then s.refilled l else l) })
  else
    let set := x.cache.filter (fun l => l.line % 2048 == k / 64 % 2048)
    let open_ := x.wayList.filter (fun w => !set.any (fun l => l.way == w))
    let free := set.filter (fun l => !l.stuck)
    if open_.isEmpty then
      let c := s.pick free.length
      match free[c.1]? with
      | none => s
      | some v =>
        let s := c.2.writeBackLine v
        s.updTile t (fun x => { x with cache := s.freshLine (k / 64) v.way :: x.cache.filter (fun l => l.line != v.line) })
    else
      let c := s.pick open_.length
      c.2.updTile t (fun x => { x with cache := s.freshLine (k / 64) (open_.getD c.1 0) :: x.cache })

/-- Whether a tile's accesses to a key go through its tile cache (R108 step 5, R116). DEDUCED (log 8). -/
def State.viaCache (s : State) (t k : Nat) : Bool := cacheable k && decide ((s.tile t).ways > 0)

/-- A read of checked keys by an agent of a tile; an uncorrectable error stops it (R419). -/
def State.tileRead (s : State) (t : Nat) (ks : List Nat) : Option (List Byte) × State :=
  let via := ks.filter (s.viaCache t)
  if s.badRead (ks.filter (fun k => !(via.contains k && ((s.tile t).lineOf k).isSome))) then (none, s)
  else
    let s := via.foldl (fun s k => s.cacheFill t k) s
    let bad := via.any (fun k => match (s.tile t).lineOf k with
      | some l => l.bad.getLsbD (k % 64 / 32)
      | none => false)
    if bad then (none, s)
    else
      (some (ks.map (fun k => if via.contains k then (match (s.tile t).lineOf k with
        | some l => l.bytes.getD (k % 64) 0
        | none => s.mem.get k) else s.mem.get k)), s)

/-- Whether a write of checked keys by an agent of a tile meets a granule it cannot replace whole (R419). -/
def State.tileWriteBad (s : State) (t : Nat) (ks : List Nat) : Bool :=
  ks.any (fun k =>
    match (if s.viaCache t k then (s.tile t).lineOf k else none) with
    | some l => l.bad.getLsbD (k % 64 / 32) && !(keysFrom (sectorOf k) 32).all ks.contains
    | none => s.bad.contains (granuleOf k) && !coversGranule ks (granuleOf k))

/-- A cached line after a byte of it is written; a bad sector that the whole write covers is good again (R419). -/
def CacheLine.put (l : CacheLine) (ks : List Nat) (k : Nat) (b : Byte) : CacheLine :=
  if k / 64 = l.line then
    { l with
      bytes := l.bytes.set (k % 64) b
      dirty := l.dirty ||| BitVec.ofNat 64 (2 ^ (k % 64))
      bad := if (keysFrom (sectorOf k) 32).all ks.contains then l.bad &&& ~~~ BitVec.ofNat 2 (2 ^ (k % 64 / 32)) else l.bad }
  else l

/-- A write of checked keys by an agent of a tile. -/
def State.tileWrite (s : State) (t : Nat) (ks : List Nat) (b : List Byte) : State :=
  let via := (ks.zip b).filter (fun q => s.viaCache t q.1)
  let direct := (ks.zip b).filter (fun q => !s.viaCache t q.1)
  let s := via.foldl (fun s q => s.cacheFill t q.1) s
  let direct := direct ++ via.filter (fun q => ((s.tile t).lineOf q.1).isNone)
  let s := if via.isEmpty then s else
    s.updTile t (fun x => { x with cache := x.cache.map (fun l => via.foldl (fun l q => l.put ks q.1 q.2) l) })
  s.writeKeys (direct.map Prod.fst) (direct.map Prod.snd)

/-- Whether an atomic at a key meets a sector with an uncorrectable error in the tile's cache (R419, R420). -/
def State.cachedBad (s : State) (t k : Nat) : Bool :=
  match (s.tile t).lineOf k with
  | some l => l.bad.getLsbD (k % 64 / 32)
  | none => false

/-- Make memory current for one line before an atomic at its owner (R139): the line leaves the tile's cache, but for a sector
that cannot be written back (R420). -/
def State.cacheEvict (s : State) (t k : Nat) : State :=
  match (s.tile t).lineOf k with
  | none => s
  | some l => (s.writeBackLine l).updTile t (fun x =>
      { x with cache := x.cache.filterMap (fun q => if q.line = l.line then q.dropped else some q) })

end Sys2Proof.Machine
end

