-- ==== Sys2Proof/Machine/Report.lean ====
section
/-! DEFINITION. Error records, the error queues, the device log, holds on fault domains and requests for service
(R388 to R398); and completion entries (R305). -/

namespace Sys2Proof.Machine

/-- What an error record says (R389), with the "none" value of every field as its default. -/
structure ErrRec where
  vi : Nat := 0
  severity : Nat := 1
  unit : Nat := 0
  code : Nat := 0
  domain : Nat := 0
  tile : Nat := 0x7FF
  vtile : Nat := 0xFF
  cell : Nat := 0x7F
  slot : Nat := 0x3F
  ctx : Nat := 0
  inst : Nat := 0x3F
  lsid : Nat := 0x3F
  loc : Word := 0
  count : Nat := 0
  detail : Nat := 0
  place0 : Word := 0
  place1 : Word := 0
  rowGroup : Nat := 0
  row : Nat := 0xFF
  deriving DecidableEq, Repr, Inhabited

/-- The eight words of a record (R389). -/
def ErrRec.words (r : ErrRec) (seq : Nat) (phase : Bool) (time : Word) : List Word :=
  [wd (r.vi * 2 ^ 58 + r.severity * 2 ^ 56 + r.unit * 2 ^ 48 + r.code * 2 ^ 40 + r.domain * 2 ^ 24 +
       (seq % 2 ^ 23) * 2 + (if phase then 1 else 0)),
   wd (r.tile * 2 ^ 53 + r.vtile * 2 ^ 45 + r.cell * 2 ^ 38 + r.slot * 2 ^ 32 + r.ctx * 2 ^ 30 + r.inst * 2 ^ 24 +
       r.lsid * 2 ^ 18),
   r.loc, time, wd (r.count * 2 ^ 32 + r.detail % 2 ^ 32), r.place0, r.place1,
   wd (r.rowGroup % 2 ^ 32 * 2 ^ 32 + r.row * 2 ^ 24)]

/-- Whether an operator's save area is the two highest banks of its mask (R314). -/
def Placement.saveOnTop (p : Placement) : Bool := p.save != 0 && decide (p.banks < p.save &&& (~~~ p.save + 1))

/-- Words 0 and 1 of a placement record (R314). -/
def placeWord0 (p : Placement) : Word := wd (p.regId.toNat % 2 ^ 48 * 2 ^ 16)
def placeWord1 (p : Placement) : Word :=
  wd (p.anchor * 2 ^ 53 + p.w * 2 ^ 49 + p.h * 2 ^ 45 + p.slot * 2 ^ 43 + p.cls * 2 ^ 41 +
      (p.banks ||| p.save).toNat * 2 ^ 29 + (if p.saveOnTop then 2 ^ 28 else 0) + p.hbanks.toNat * 2 ^ 16)

/-- A record with the fields of an operator's placement filled in. -/
def ErrRec.withPlace (r : ErrRec) (p : Placement) : ErrRec :=
  { r with vi := p.vi, domain := p.domain, place0 := placeWord0 p, place1 := placeWord1 p }

/-- Write bytes at an offset of a queue of a VI: to host memory, or through the VI's windows (R302). A device-memory
write that fails a check of R108 touches no byte. -/
def State.queueWrite (s : State) (vi : Nat) (q : RingQ) (off : Nat) (b : List Byte) : State :=
  if q.inDevice then
    match s.resolveDv false none vi (q.base + off) b.length false true with
    | (.error _, s) => s
    | (.ok ks, s) => if s.badWrite ks then s else s.writeKeys ks b
  else s.writeKeys (keysFrom (hostKey vi (q.base + off)) b.length) b

/-- Read bytes of a queue of a VI, or of host memory; none where a check fails or an error is met. -/
def State.queueRead (s : State) (vi : Nat) (q : RingQ) (off n : Nat) : Option (List Byte) × State :=
  if q.inDevice then
    match s.resolveDv false none vi (q.base + off) n true false with
    | (.error _, s) => (none, s)
    | (.ok ks, s) => if s.badRead ks then (none, s) else (some (s.readKeys ks), s)
  else (some (s.readKeys (keysFrom (hostKey vi (q.base + off)) n)), s)

/-- A record into a VI's error queue (R392): counted and not written where the queue is disabled or full.
DEDUCED (log 133). -/
def State.toErrQueue (s : State) (vi : Nat) (r : ErrRec) : State :=
  let v := s.vi vi
  let q := v.errq
  if !q.en || q.full then s.updVi vi (fun v => { v with errstat := (v.errstat + 1) % 2 ^ 32 })
  else
    let s := s.queueWrite vi q (64 * q.tail) (bytesOf (r.words v.errSeq q.phase s.clk.time))
    (s.updVi vi (fun v => { v with errq := q.advance, errSeq := v.errSeq + 1 })).signal vi q.vector q.port

/-- A record into the device log (R393): the log never stops. It is full when no entry of it is free; a record then overwrites
the oldest one that software has not consumed. -/
def State.toLog (s : State) (r : ErrRec) : State :=
  let q := s.dev.logq
  if !q.en then s
  else
    let s := s.queueWrite 0 q (64 * q.tail) (bytesOf (r.words s.dev.logSeq q.phase s.clk.time))
    let full := decide (q.size ≤ s.dev.logCount)
    s.updDev (fun d =>
      { d with logq := if full then { q.advance with head := q.advance.tail } else q.advance,
               logCount := if full then q.size else d.logCount + 1,
               logSeq := d.logSeq + 1, logstat := if full then (d.logstat + 1) % 2 ^ 32 else d.logstat })

/-- The hold of a severity-2 failure on a fault domain of a VI (R394). -/
def State.hold (s : State) (vi domain : Nat) : State :=
  s.updVi vi (fun v => if v.held.contains domain then v else { v with held := domain :: v.held })

/-- The corrected errors of a unit at its tile, die, channel, port or link (R389, R396). -/
def State.cecAt (s : State) (unit idx : Nat) : Nat := s.dev.cec.getD (unit * 2 ^ 32 + idx) 0 % 2 ^ 32

/-- Put a record into its queues (R390) and apply the hold of severity 2 (R394): the queue of the VI it names, and VI 0's for
severity 3. -/
def State.writeRecord (s : State) (r : ErrRec) : State :=
  let s := s.toErrQueue r.vi r
  let s := if r.severity = 3 ∧ r.vi ≠ 0 then s.toErrQueue 0 r else s
  let s := s.toLog r
  if r.severity = 2 then s.hold r.vi r.domain else s

/-- Set a SRCAUSE bit and ask for service (R396, R397). -/
def State.serviceCause (s : State) (bit : Nat) : State :=
  s.updDev (fun d => { d with srcause := d.srcause ||| BitVec.ofNat 6 (2 ^ bit), service := true })

/-- Whether a placement's fault domain is held (R394). -/
def State.isHeld (s : State) (p : Placement) : Bool := (s.vi p.vi).held.contains p.domain

/-- The record of one failure on a tile of a placement. -/
def State.tileRec (s : State) (t pk : Nat) (r : ErrRec) : ErrRec :=
  match s.places.find? pk with
  | none => { r with tile := t }
  | some p => { (r.withPlace p) with tile := t, vtile := (p.vtOf t).getD 0xFF }

/-- The record of a failure of work on a tile for a placement; where that is gone, or was none, the VI and the fault domain that
the work was started for (R389). -/
def State.workRec (s : State) (t pk vi domain : Nat) (r : ErrRec) : ErrRec :=
  match s.places.find? pk with
  | some _ => s.tileRec t pk r
  | none => { r with vi := vi, domain := domain, tile := if t < 1152 then t else 0x7FF }

/-! ### Sectors that cannot be written back (R420) -/

/-- Dirty sectors of a line, or of a tile's cache, that hold an uncorrectable error, by physical address. -/
def CacheLine.stuckSectors (l : CacheLine) : List Nat :=
  (List.range 2).filterMap (fun k =>
    if l.bad.getLsbD k && fld l.dirty.toNat (32 * k + 31) (32 * k) != 0 then some (l.line * 64 + 32 * k) else none)
def State.stuckSectors (s : State) (t : Nat) : List Nat := (s.tile t).cache.flatMap CacheLine.stuckSectors

/-- The key of the operator loaded on a tile for a record, and a key of none where none is loaded (R389). -/
def State.loadedKey (s : State) (t : Nat) : Nat := (s.loadedOn t).getD (2 ^ 40)

/-- The severity-2 records of some sectors. -/
def State.noteStuck (s : State) (t pk : Nat) (l : List Nat) : State :=
  l.foldl (fun s a =>
    s.writeRecord (s.tileRec t pk { severity := 2, unit := 3, code := 0x1D, loc := wd a, count := s.cecAt 3 t })) s

/-- The write-back of a release (R141): it is performed without such sectors, and writes their records (R420). -/
def State.cacheRelease (s : State) (t : Nat) : State :=
  (s.cacheClean t).noteStuck t (s.loadedKey t) (s.stuckSectors t)

/-- Drop the sectors of a way of a tile's cache that could not be written back, with one record each (R420). -/
def State.dropStuck (s : State) (t way pk : Nat) : Bool × State :=
  let l := ((s.tile t).cache.filter (fun y => y.way == way)).flatMap CacheLine.stuckSectors
  (!l.isEmpty,
    (s.noteStuck t pk l).updTile t (fun x => { x with cache := x.cache.filter (fun y => y.way != way) }))

/-- Empty a way of a tile's cache: written back, and invalidated with what cannot be (R117, R420). -/
def State.emptyWay (s : State) (t way : Nat) : State :=
  ((s.cacheFlushWay t way).dropStuck t way (s.loadedKey t)).2

/-- Write one error record (R390): a release at system scope by the unit it names, so that the dirty bytes of a tile are
written back before the record of a unit of that tile. -/
def State.report (s : State) (r : ErrRec) : State :=
  (if r.unit ≤ 3 ∧ r.tile ≠ 0x7FF then s.cacheRelease r.tile else s).writeRecord r

/-! ### Links that fail an access (R438) -/

/-- The record of a failure of a Renulun link's unit: of a port, with the package that an access was for, and what `r` says of the
work that failed (R389). -/
def State.linkRec (s : State) (severity port pkg : Nat) (r : ErrRec) : State :=
  s.report { r with severity := severity, unit := 16, code := 0x0D, detail := port % 16 + pkg % 256 * 2 ^ 8,
                    count := s.cecAt 16 port }

/-- The link's own record of a failed access (R438, R445): that of a route failure, to a package without a trained port. A dropped
flit and a time-out have theirs as they happen. The failed access has a record of its own unit, which `r` describes: the link's
names the same work and address (R389, R391, R413; log 100). DEDUCED (log 100). -/
def State.linkNote (s : State) (f : Fail) (r : ErrRec) : State :=
  if f.code = 0x0D ∧ !s.pkgReachable (f.detail / 2 ^ 8 % 2 ^ 8) then
    s.linkRec 1 (f.detail % 16) (f.detail / 2 ^ 8) { r with loc := f.loc }
  else s

/-- The record of a failed access, behind the link's own where a link failed it (R438). -/
def State.reportFail (s : State) (f : Fail) (r : ErrRec) : State := (s.linkNote f r).report r

/-- The attic link's own record of a transfer that met poison or a time-out (R438, R444), for the work that `r` describes; a link
that is down has its record since it went down. DEDUCED (log 100). -/
def State.atticNote (s : State) (link : Nat) (r : ErrRec) : State :=
  if s.dev.linksDown.isEmpty then
    s.report { r with severity := 1, unit := 15, code := 0x0C, detail := link % 4, count := s.cecAt 15 link }
  else s

/-! ### Completion entries (R305) -/

/-- Free entries of a completion queue (R371). DEDUCED (log 28). -/
def RingQ.space (q : RingQ) : Nat := if q.en then (q.head + q.size - q.tail - 1) % q.size else 0

/-- The completion queue that a submission queue of a VI feeds (R302). -/
def Vi.cqOf (v : Vi) (sq : Nat) : RingQ := v.cq.getD ((v.sq.getD sq {}).w1.fld 59 56) {}

/-- Whether the completion entry of a command of a submission queue finds room (R371); a queue that is disabled takes none. -/
def State.entryRoom (s : State) (vi sq : Nat) : Bool := let q := (s.vi vi).cqOf sq; !q.en || decide (0 < q.space)

/-- A completion entry of VI vi for submission queue sq (R305). -/
def State.complete (s : State) (vi sq : Nat) (cid : Nat) (sqHead status : Nat) (result : Word) : State :=
  let v := s.vi vi
  let cqi := (v.sq.getD sq {}).w1.fld 59 56
  let q := v.cq.getD cqi {}
  if !q.en then s
  else
    let w0 := wd (cid % 2 ^ 32 * 2 ^ 32 + sqHead % 65536 * 65536 + sq % 16 * 4096 + status % 128 * 2 +
      (if q.phase then 1 else 0))
    let s := s.queueWrite vi q (16 * q.tail) (bytesOf [w0, result])
    (s.updVi vi (fun v => { v with cq := v.cq.set cqi q.advance })).signal vi q.vector q.port

end Sys2Proof.Machine
end

