-- ==== Sys2Proof/Machine/Events.lean ====
section
/-! DEFINITION. Arrivals (R51, R52, R232, R233), barrier objects (R57), handoff FIFOs (R234, R257), row groups and the
release of their sets (R47 to R50, R59), routing of records (R36, R313) and ejection (R395). -/

namespace Sys2Proof.Machine

/-- Source descriptor g2 (R232). DEDUCED (log 40). -/
def srcWord (kind src detail : Nat) : Word := wd (kind * 2 ^ 56 + src * 2 ^ 44 + detail % 2 ^ 32)

/-- Raise one arrival in a tile (R52); arrivals past the store's 256 entries are its held senders.
DEDUCED (log 40). -/
def State.arrive (s : State) (t tag kind : Nat) (msg : Word) (src detail set : Nat) : State :=
  s.updCore t (fun c => { c with arrivals := c.arrivals ++
    [{ tag := tag, kind := kind, msg := msg, src := src, detail := detail, set := set, cycle := s.clk.cycle }] })

/-- A barrier object at the start of what it counts in a cycle (R57). -/
def Barrier.inCycle (b : Barrier) (c : Nat) : Barrier :=
  if b.at_ = c then b else { b with at_ := c, raw := b.count, took := 0 }

/-- The comparison of R57 for one object of an operator's copy in a tile: an armed object at its target raises one
arrival with the set that armed it (R246), and counts down. It is a held sender while an arrival of its own waits outside the
tile's arrival store (R52). -/
def State.boCheck (s : State) (t slot bo : Nat) : State :=
  let b := ((s.tile t).oprAt slot).bo.getD bo {}
  if b.armed && decide (b.target ≤ b.count) && !s.sendsHeld t (fun a => a.kind == 5 && a.tag == b.tag && a.detail == bo) then
    let n := b.inCycle s.clk.cycle
    (s.updOpr t slot (fun o =>
      { o with bo := o.bo.set bo { n with count := b.count - b.target, armed := false, took := n.took + b.target } })).arrive
      t b.tag 5 (wd bo) t bo b.set
  else s

/-- A barrier object with a count added (R57): the increments of one cycle are added together, and their sum saturates at
0xFFFF. -/
def Barrier.plus (b : Barrier) (c n : Nat) : Barrier :=
  let b := b.inCycle c
  { b with raw := b.raw + n, count := min 0xFFFF (b.raw + n) - b.took }

/-- Add a count to a barrier object (R57). -/
def State.boAdd (s : State) (t slot bo n : Nat) : State :=
  (s.updOpr t slot (fun o => { o with bo := o.bo.upd bo {} (fun b => b.plus s.clk.cycle n) })).boCheck t slot bo

/-- The comparison for every object of a tile, once a full arrival store has held some (R52, R57). -/
def State.boChecks (s : State) (t : Nat) : State :=
  (s.tile t).opr.keys.foldl (fun s slot => (List.range 32).foldl (fun s b => s.boCheck t slot b) s) s

/-- Tokens of a handoff FIFO (R234). -/
def State.hfCount (s : State) (t slot i : Nat) : Nat := ((s.tile t).oprAt slot).hf.getD i 0

/-- Set the tokens of a handoff FIFO; values above 16 set 16 (R234). -/
def State.hfSet (s : State) (t slot i n : Nat) : State :=
  s.updOpr t slot (fun o => { o with hf := o.hf.set i (min 16 n) })

/-! ### Row groups -/

/-- A reference to a set (R51, R233): the key of the row group that took it, and its index, which g3 holds. An index of 16 and
more, as in 255, names none. -/
def setRef (id idx : Nat) : Nat := id * 256 + idx

/-- The index of a set reference. -/
def setIdx (r : Nat) : Nat := r % 256

/-- The row group of a set reference, while the set has not been freed (R50). -/
def State.setGroup (s : State) (r : Nat) : Option (Nat × RowGroup) :=
  if setIdx r < 16 then (s.rgs.find? (r / 256)).map (fun g => (r / 256, g)) else none

/-- The set of an arrival that starts its instance now: none where it has been freed (R233). -/
def State.liveRef (s : State) (r : Nat) : Nat := if (s.setGroup r).isSome then r else 255

/-- Whether an instance started for the set of a group is still in flight (R50 item 1). -/
def State.setBusy (s : State) (id : Nat) (g : RowGroup) : Bool :=
  s.tiles.anyP (fun _ x => x.core.insts.anyP (fun _ i => i.set == setRef id g.set))

/-- Free a set index of a tile (R50). -/
def State.freeSet (s : State) (t set : Nat) : State := s.updCore t (fun c => { c with sets := c.sets.erase set })

/-- Free the uniform registers of a set in every tile (R50). -/
def State.freeUniforms (s : State) (r : Nat) : State :=
  { s with tiles := s.tiles.mapVals (fun _ x => { x with core := { x.core with k := x.core.k.erase r } }) }

/-- Whether a row of a group was forwarded in a cycle (R395). -/
def RowGroup.fwdIn (g : RowGroup) (c : Nat) : Bool := g.fwdAt.anyP (fun _ n => n == c)

/-- Keep a released row group for the cycle in which it forwarded a row (R395). -/
def State.keepFreed (s : State) (id : Nat) (g : RowGroup) : State :=
  if g.fwdIn s.clk.cycle then { s with freed := (s.freed.keep (fun _ g => g.fwdIn s.clk.cycle)).set id g } else s

/-- A row group, live or released in the cycle of a forwarding of its own. -/
def State.groupOf (s : State) (id : Nat) : Option RowGroup := (s.rgs.find? id).orElse (fun _ => s.freed.find? id)

/-- The least set index that is free in every tile of a list (R46). -/
def State.freeSetOf (s : State) (tiles : List Nat) : Option Nat :=
  firstBelow 16 (fun i => tiles.all (fun t => ((s.core t).sets.find? i).isNone))

/-- Closed tiles of loaded operators that have waited for a set in some tiles: a cause of R429. DEDUCED (log 71). -/
def State.noteSetWait (s : State) (tiles : List Nat) : State :=
  s.noteClosed (fun k p => (s.region (keyAnchor k)).loaded == some k && p.tiles.any tiles.contains &&
    (s.freeSetOf p.tiles).isNone) 20

/-- Release a row group when all three conditions of R50 hold: its set index becomes free in each tile, and its
uniform registers, its arrays and its tile slot with it. -/
def State.tryFree (s : State) (id : Nat) : State :=
  match s.rgs.find? id with
  | none => s
  | some g =>
    if !s.setBusy id g && g.rows &&& ~~~ g.gone == 0 && g.join == 0 then
      let s := (s.keepFreed id g).noteSetWait g.tiles
      (g.tiles.foldl (fun (s : State) t => s.freeSet t g.set) { s with rgs := s.rgs.erase id }).freeUniforms
        (setRef id g.set)
    else s

/-- Raise the arrival of an armed JOIN when the set's join counter is zero (R59, R248). -/
def State.joinCheck (s : State) (id : Nat) : State :=
  match s.rgs.find? id with
  | none => s
  | some g =>
    match g.joinTag, g.join with
    | some (t, tag), 0 => (s.updRg id (fun g => { g with joinTag := none })).arrive t tag 7 0 t 0 (setRef id g.set)
    | _, _ => s

/-- A row leaves its group (R50 item 2). -/
def State.rowLeave (s : State) (id row : Nat) : State :=
  (s.updRg id (fun g => { g with gone := g.gone ||| BitVec.ofNat 64 (2 ^ row) })).tryFree id

/-! ### Records -/

/-- Route and status word fields (R35). -/
def rwEjected (w : Word) : Bool := w.getLsbD 52
def rwNoAdmissible (w : Word) : Bool := w.getLsbD 54
def rwIncomplete (w : Word) : Bool := w.getLsbD 53
def rwCursor (w : Word) : Nat := w.fld 47 45
def rwEntry (w : Word) (i : Nat) : Nat := w.fld (8 * i + 7) (8 * i)

/-- Header fields of a record (R33, R34). -/
def TokenRec.vi (r : TokenRec) : Nat := r.h0.fld 63 58
def TokenRec.job (r : TokenRec) : Nat := r.h0.fld 57 46
def TokenRec.wgen (r : TokenRec) : Nat := r.h0.fld 43 40
def TokenRec.stage (r : TokenRec) : Nat := r.h0.fld 39 32
def TokenRec.lines (r : TokenRec) : Nat := r.h1.fld 63 52
def TokenRec.excRoute (r : TokenRec) : Nat := r.h1.fld 31 24
def TokenRec.draftCount (r : TokenRec) : Nat := r.h1.fld 23 18
def TokenRec.kind (r : TokenRec) : Nat := r.ah.fld 63 62
def TokenRec.seqSlot (r : TokenRec) : Nat := r.ah.fld 61 42
def TokenRec.position (r : TokenRec) : Nat := r.ah.fld 41 18

/-- The 128 bytes of a record (R33). -/
def TokenRec.bytes (r : TokenRec) : List Byte := bytesOf ([r.h0, r.h1, r.ah, r.rw] ++ r.carry.toList)

/-- A record from its 128 bytes (R33). -/
def recOfBytes (l : List Byte) : TokenRec :=
  let w := wordsOf l
  { h0 := w.getD 0 0, h1 := w.getD 1 0, ah := w.getD 2 0, rw := w.getD 3 0,
    carry := Vector.ofFn (fun i => w.getD (4 + i.val) 0) }

/-- The hop of the exception route (R36): exc_route, or entry 0xFE when it is 0xFF. -/
def TokenRec.excHop (r : TokenRec) : Nat := if r.excRoute = 0xFF then 0xFE else r.excRoute

/-- The next hop of a record and its word with the cursor moved (R36); `succ` is the operator's default successor. -/
def nextHop (r : TokenRec) (succ : Nat) : Nat × TokenRec :=
  if rwEjected r.rw || rwNoAdmissible r.rw || rwIncomplete r.rw then (r.excHop, r)
  else
    let c := rwCursor r.rw
    if c < 5 && rwEntry r.rw c != 0xFF then (rwEntry r.rw c, { r with rw := r.rw.put 47 45 (c + 1) })
    else (succ, r)

/-- Whether a route entry of the physical form is resolved (R313). -/
def entryDest (e : Word) : Option Dest :=
  if !e.getLsbD 55 then none
  else if e.getLsbD 54 then some (.hamper (placeKey (e.fld 51 41) (e.fld 53 52)))
  else some (.tag (e.fld 51 41) (e.fld 5 0) 0)

/-- The operator of a VI that binds a tag of a tile: where another VI's operator binds it, there is none (R26). -/
def State.tagOwnerIn (s : State) (vi t tag : Nat) : Option Nat :=
  (s.tagOwner t tag).filter (fun pk => s.placeVi pk == some vi)

/-- The target of a job's route entry (R32, R313). -/
def State.routeTo (s : State) (vi job idx : Nat) : Option Dest :=
  match (s.job (jobKey vi job)).routes.find? idx with
  | none => none
  | some e =>
    match entryDest e with
    | some (.tag t tag _) => some (.tag t tag ((s.tagOwnerIn vi t tag).getD (2 ^ 40)))
    | d => d

/-- Put a record on its way in the die network (R328); it takes 2 cycles for each tile step, whose count the model
leaves out, so it may arrive at once (log 14). -/
def State.toNet (s : State) (r : Rec) (d : Dest) (src : Nat) : State :=
  { s with net := s.net ++ [{ body := { r with at_ := 0, grp := none, idx := 0 }, dest := d, src := src }] }

/-- A record as it enters its stage: it takes the stage's current weight generation (R44, R300, R435; log 10).
DEDUCED (log 10). -/
def State.enterStage (s : State) (r : Rec) : Rec :=
  { r with r := { r.r with h0 := r.r.h0.put 43 40 (s.stage (jobKey r.r.vi r.r.job * 256 + r.r.stage)).gen },
           born := s.clk.cycle, out := false }

/-- Whether a row group belongs to an operator of a VI. -/
def State.groupVi (s : State) (id vi : Nat) : Bool :=
  match s.rgs.find? id with
  | some g => s.placeVi g.pk == some vi
  | none => false

/-- Decrement a parent's join counter when a child record is retired (R59); a set of another VI is no parent of it (R26; log
120). DEDUCED (log 120). -/
def State.retireRec (s : State) (r : TokenRec) : State :=
  let pt := r.h1.fld 47 36
  if pt = 0xFFF then s
  else
    match (s.core pt).sets.find? (r.h1.fld 35 32) with
    | none => s
    | some id =>
      if s.groupVi id r.vi then ((s.updRg id (fun g => { g with join := g.join - 1 })).joinCheck id).tryFree id else s

/-- The error record of a failure of a record or row (R390, R425): the VI is the token record's; the operator's place, if one
is concerned, is filled in with its anchor tile. -/
def rowRec (r : TokenRec) (p : Option Placement) (unit severity code detail rg row : Nat) : ErrRec :=
  let base : ErrRec :=
    { vi := r.vi, severity := severity, unit := unit, code := code, detail := detail, rowGroup := rg, row := row }
  match p with
  | none => base
  | some p => { (base.withPlace p) with tile := p.anchor, vtile := 0 }

/-- Send a record to its exception route; it leaves its stage (R435). When the route is unresolved the record is retired, with
one record of code 0x04 that names its last row group (R427). -/
def State.toException (s : State) (r : Rec) (src : Nat) (p : Option Placement) : State :=
  match s.routeTo r.r.vi r.r.job r.r.excHop with
  | some d => s.toNet { r with out := true } d src
  | none => (s.report (rowRec r.r p 11 2 0x04 r.r.excRoute r.lastRg r.lastRow)).retireRec r.r

/-- Eject a record (R395): ejected, its eject code, and the status bit its cause names (0 for none); then its
exception route. The caller has written the failure's record (R390). -/
def State.ejectTo (s : State) (r : Rec) (eject status src : Nat) (p : Option Placement) : State :=
  let w := (r.r.rw.put 63 56 eject).put 52 52 1
  let w := if status = 0 then w else w.put status status 1
  s.toException { r with r := { r.r with rw := w } } src p

/-- Send a record from tile t to a route entry (R32); an unresolved entry ejects it at the sending point with code 0x02, after
a record of code 0x21 that names the tile, where one sent it (R425, R426). -/
def State.sendTo (s : State) (r : Rec) (idx t : Nat) (p : Option Placement) : State :=
  match s.routeTo r.r.vi r.r.job idx with
  | some d => s.toNet r d t
  | none =>
    let e := rowRec r.r p 1 1 0x21 (2 + idx * 256) r.lastRg r.lastRow
    let e := match p with
      | some p => { e with tile := t, vtile := (p.vtOf t).getD 0xFF }
      | none => e
    (s.report e).ejectTo r 2 0 t p

/-- A record with the carry words its operator declares (R37). -/
def carried (mask : Nat) (r : TokenRec) : TokenRec :=
  let top := ((List.range 12).filter (bitOf mask)).foldl (fun a i => max a (i + 1)) 0
  { r with carry := Vector.ofFn (fun i => if bitOf mask i.val then r.carry[i] else 0), rw := r.rw.put 44 41 top }

/-- A record of an operator's row group: it belongs to the operator's VI whatever its array holds, so that no object of a VI
names one of another (R26; log 120). DEDUCED (log 120). -/
def TokenRec.ownedBy (r : TokenRec) (p : Option Placement) : TokenRec :=
  match p with
  | some p => { r with h0 := r.h0.put 63 58 p.vi }
  | none => r

/-- Row i's record and payload as its arrays hold them (R38, R49); a row that came from an exception route is still outside
its stage (R435). -/
def State.rowRecord (s : State) (g : RowGroup) (row : Nat) : Rec :=
  let r := (recOfBytes (s.mem.getN (tileKey g.home (g.base + 128 * row)) 128)).ownedBy (s.places.find? g.pk)
  let p := match s.places.find? g.pk with
    | some p => (s.parOf p).payload
    | none => 0
  { r := r, pay := s.mem.getN (tileKey g.home (g.pay + 64 * p * row)) (64 * min p r.lines),
    out := (g.stages.find? row).isNone, lastRg := g.rgid, lastRow := row }

/-- The carry mask of a row group's operator. -/
def State.carryOf (s : State) (g : RowGroup) : Nat :=
  match s.places.find? g.pk with
  | some p => (s.parOf p).carry
  | none => 0

/-- Rows of a group that have not left it (R49, R50). -/
def RowGroup.liveRows (g : RowGroup) : List Nat :=
  (List.range 64).filter (fun i => g.rows.getLsbD i && !g.gone.getLsbD i)

/-- Eject row `row` of a group (R395): after one record of a failure, with its declared carry words, to its exception route; it
then leaves its group. A row that was forwarded in this cycle is not ejected, and the record has detail bit 0 set. -/
def State.ejectRow (s : State) (id row eject status unit : Nat) (f : Fail) : State :=
  match s.groupOf id with
  | none => s
  | some g =>
    let p := s.places.find? g.pk
    let note (d : Nat) : ErrRec := { rowRec (s.rowRecord g row).r p unit 1 f.code d g.rgid row with loc := f.loc }
    if (s.rgs.find? id).isSome && g.liveRows.contains row then
      let r := s.rowRecord g row
      let s := (s.report (note f.detail)).updRg id (fun g => { g with ejAt := some s.clk.cycle })
      (s.ejectTo { r with r := carried (s.carryOf g) r.r } eject status g.home p).rowLeave id row
    else if g.fwdAt.find? row = some s.clk.cycle then s.report (note (f.detail ||| 1))
    else s

/-- Eject every row of a group (R395): those that have left it before this cycle are passed over. -/
def State.ejectRows (s : State) (id eject status unit : Nat) (f : Fail) : State :=
  match s.groupOf id with
  | none => s
  | some g => ((List.range 64).filter g.rows.getLsbD).foldl (fun s row => s.ejectRow id row eject status unit f) s

/-- Retire row `row` of a group, as by `rfwd.ret` (R59, R249). -/
def State.retireRow (s : State) (id row : Nat) : State :=
  match s.rgs.find? id with
  | none => s
  | some g => (s.retireRec (s.rowRecord g row).r).rowLeave id row

end Sys2Proof.Machine
end

