-- ==== Sys2Proof/Machine/Operands.lean ====
section
/-! DEFINITION. Operands of tile-core words: the registers and immediates of the block in progress (R53, R164, R165),
the masks a block must meet (R53, R236), and the block trap as one shared operation (R236, R269, R404, R405). -/

namespace Sys2Proof.Machine

/-- The outcome of a meaning. -/
abbrev Out := Host.Outcome State Fault Refusal

/-- Value of g register i of the block in progress. -/
def BlockRun.reg (r : BlockRun) (i : Nat) : Word := r.g.getD i 0

/-- Offset of the current word in the TASK section (R176, R404). -/
def BlockRun.word (r : BlockRun) : Nat := r.base + 3 + r.pos

/-- The I-format immediate with the prefix of R165. -/
def BlockRun.imm (r : BlockRun) (i : Nat) : Word :=
  match r.pfx with
  | none => BitVec.ofInt 64 (signed 14 i)
  | some h => BitVec.ofInt 64 (signed 38 (h * 2 ^ 14 + i))

/-- The M-format displacement with the prefix of R165. -/
def BlockRun.disp (r : BlockRun) (i : Nat) : Word :=
  match r.pfx with
  | none => BitVec.ofInt 64 (signed 9 i)
  | some h => BitVec.ofInt 64 (signed 33 (h * 2 ^ 9 + i))

/-- The instance a block belongs to. -/
def State.instOf (s : State) (t : Nat) (r : BlockRun) : Inst := (s.core t).insts.getD r.inst default

/-- Set the block in progress of a tile core. -/
def State.setRun (s : State) (t : Nat) (r : BlockRun) : State := s.updCore t (fun c => { c with run := some r })

/-- The block after the current word: the next word, with no prefix pending (R165). -/
def BlockRun.next (r : BlockRun) : BlockRun := { r with pos := r.pos + 1, pfx := none }

/-- Continue at the next word with the block changed. -/
def State.advance (s : State) (t : Nat) (r : BlockRun) : State := s.setRun t r.next

/-- Do something with the block that the focused tile core executes. -/
def withRun (s : State) (f : Nat → BlockRun → Out) : Out :=
  match (s.core s.sched.focus.tile).run with
  | none => .fault .noRunningBlock
  | some r => f s.sched.focus.tile r

/-- Trap cause word g1 of a trap arrival (R269). -/
def trapCause (code sw lsid word : Nat) : Word :=
  wd (code + sw * 2 ^ 8 + lsid * 2 ^ 16 + word % 2 ^ 24 * 2 ^ 22)

/-- TAKE A BLOCK TRAP (R236, R269, R404, R405): every commit-class effect of the block is discarded, the instance waits
at its block's start, one record is written, and with TRAPTAG enabled an arrival of kind 12 is raised; with it
disabled the record has severity 2 and holds the fault domain. `detail` is the record's. -/
def State.blockTrapAs (s : State) (t : Nat) (r : BlockRun) (code sw lsid word : Nat) (loc : Word) (detail : Nat) : State :=
  let i := s.instOf t r
  let tag := ((s.tile t).oprAt (keySlot i.pk)).traptag
  let s := s.updCore t (fun c =>
    { c with run := none, insts := c.insts.upd r.inst default (fun x => { x with status := .trapped }) })
  let rec_ := s.tileRec t i.pk
    { severity := if tag.getLsbD 6 then 1 else 2, unit := 1, code := code, inst := r.inst, lsid := lsid, loc := loc,
      detail := detail }
  let s := s.report rec_
  if tag.getLsbD 6 then s.arrive t (tag.fld 5 0) 12 (trapCause code sw lsid word) t r.inst i.set else s

/-- A block trap whose record's detail is that of R404: the word's offset, with the code of a software TRAP above it. -/
def State.blockTrap (s : State) (t : Nat) (r : BlockRun) (code sw lsid word : Nat) (loc : Word) : State :=
  s.blockTrapAs t r code sw lsid word loc (sw * 2 ^ 24 + word % 2 ^ 24)

/-- A block trap of a memory cause (R404, R412), after the record of a link that failed the access (R438). R404 and R413 state
different details for its record; which of them it has is free (log 29). DESIGN CHOICE (log 29). -/
def State.memoryTrap (s : State) (t : Nat) (r : BlockRun) (lsid word : Nat) (e : Fail) : State :=
  let c := (s.linkNote e (s.tileRec t (s.instOf t r).pk { inst := r.inst, lsid := lsid })).pick 2
  if c.1 = 0 then c.2.blockTrap t r e.code 0 lsid word e.loc
  else c.2.blockTrapAs t r e.code 0 lsid word e.loc e.detail

/-- A block trap of the current word with no LSID and no address. -/
def State.trapHere (s : State) (t : Nat) (r : BlockRun) (code : Nat) : State :=
  s.blockTrap t r code 0 0x3F r.word 0

/-- A block trap of a failed access of the current word (R243). -/
def State.trapAccess (s : State) (t : Nat) (r : BlockRun) (lsid : Nat) (e : Fail) : State := s.memoryTrap t r lsid r.word e

/-- Write a g register of the block in progress and go on; a masked register written a second time traps (R236). -/
def State.putReg (s : State) (t : Nat) (r : BlockRun) (d : Nat) (v : Word) : State :=
  if r.writeMask.getLsbD d && r.written.getLsbD d then s.trapHere t r 1
  else s.advance t { r with g := r.g.set d v, written := r.written ||| BitVec.ofNat 32 (2 ^ d) }

/-- Mark a g register as produced without changing the working value (R242, R245). -/
def State.markReg (s : State) (t : Nat) (r : BlockRun) (d : Nat) : State :=
  if r.writeMask.getLsbD d && r.written.getLsbD d then s.trapHere t r 1
  else s.advance t { r with written := r.written ||| BitVec.ofNat 32 (2 ^ d) }

/-- Produce an LSID with a change of the block; a masked LSID produced a second time traps (R236). -/
def State.produce (s : State) (t : Nat) (r : BlockRun) (l : Nat) (k : BlockRun → State) : State :=
  if r.storeMask.getLsbD l && r.produced.getLsbD l then s.blockTrap t r 1 0 l r.word 0
  else k { r with produced := r.produced ||| BitVec.ofNat 32 (2 ^ l) }

/-- Hold a commit-class effect of the current word and go on (R235). -/
def State.holdEffect (s : State) (t : Nat) (r : BlockRun) (e : Effect) : State :=
  s.advance t { r with effects := r.effects ++ [(r.pos, e)] }

/-- The meaning of a register-to-register word (R237): rd from the values of ra and rb. -/
def regOp (d a b : Nat) (f : Word → Word → Word) (s : State) : Out :=
  withRun s (fun t r => .next (s.putReg t r d (f (r.reg a) (r.reg b))))

/-- The meaning of an immediate word (R238): rd from the value of ra and the immediate. -/
def immOp (d a i : Nat) (f : Word → Word → Word) (s : State) : Out :=
  withRun s (fun t r => .next (s.putReg t r d (f (r.reg a) (r.imm i))))

/-- Whether an instance runs with no set (R233). -/
def State.noSet (s : State) (t : Nat) (r : BlockRun) : Bool := setIdx (s.instOf t r).set ≥ 16

/-- Uniform register i as the block sees it: earlier words of the block first, then the set's (R239). -/
def State.uniform (s : State) (t : Nat) (r : BlockRun) (i : Nat) : Word :=
  let own := r.effects.filterMap (fun e => match e.2 with
    | .kst k v => if k = i then some v else none
    | _ => none)
  match own.getLast? with
  | some v => v
  | none => ((s.core t).k.getD (s.instOf t r).set {}).getD i 0

/-- 1 or 0. -/
def boolWord (b : Bool) : Word := if b then 1 else 0

end Sys2Proof.Machine
end

