-- ==== Sys2Proof/Machine/Cells.lean ====
section
/-! DEFINITION. What every cell instruction shares: neighbours and channels (R20, R21, R64), spill rings (R121, R122,
R409), sources and destinations (R151, R152),
readiness (R61, R157, R158), control and done tokens (R160, R58). -/

namespace Sys2Proof.Machine

/-! ### Lanes and contexts -/

/-- Lane i of eight lanes. -/
def lane (l : Lanes) (i : Nat) : Fw := l.toList.getD i 0

/-- Eight lanes from a function of the lane number. -/
def mkLanes (g : Nat → Fw) : Lanes := Vector.ofFn (fun i => g i.val)

/-- The lanes whose test holds, as a mask. -/
def laneMask (p : Nat → Bool) : BitVec 8 := maskOf 8 ((List.range 8).filter p)

/-- The active context of a cell (R60). -/
def Cell.ctx (x : Cell) : Ctx := x.ctxs.getD x.active {}

/-- A cell with its active context changed. -/
def Cell.setCtx (x : Cell) (f : Ctx → Ctx) : Cell := { x with ctxs := x.ctxs.upd x.active {} f }

/-- Whether agbind is set for a direction (R162). -/
def Ctx.agbind (k : Ctx) (d : Nat) : Bool := k.r2.getLsbD (18 + d)

/-- The control-input source of ci0 or ci1 (R162, R163). -/
def Ctx.cin (k : Ctx) (i : Nat) : Nat := k.r2.fld (9 * i + 8) (9 * i)

/-- Rounding mode and trap enables (R162). -/
def Ctx.rnd (k : Ctx) : Rnd := Rnd.ofField (k.r2.fld 28 27)
def Ctx.trapEn (k : Ctx) : BitVec 5 := BitVec.ofNat 5 (k.r2.fld 26 22)

/-- The spill descriptor of a direction (R162). -/
def Ctx.spillWord (k : Ctx) (d : Nat) : Nat :=
  match d with
  | 0 => k.r0.fld 31 0
  | 1 => k.r0.fld 63 32
  | 2 => k.r1.fld 31 0
  | _ => k.r1.fld 63 32

/-- A spill ring: bank, first slot and slots (R163). -/
structure Spill where
  bank : Nat
  base : Nat
  size : Nat
  deriving DecidableEq, Repr, Inhabited

/-- The enabled spill ring of a direction (R163). -/
def Ctx.spill (k : Ctx) (d : Nat) : Option Spill :=
  let w := k.spillWord d
  if bitOf w 31 then some { bank := fld w 30 27, base := fld w 26 16, size := fld w 11 0 } else none

/-- The slot of a context, as the 64-bit word of R149; an absent one is unused. -/
def Ctx.slot (k : Ctx) (n : Nat) : Nat := (k.slots.getD n 0).toNat

/-! ### Neighbours and channels -/

/-- Whether two tiles belong to one region (R20). -/
def State.sameRegion (s : State) (t u : Nat) : Bool :=
  match (s.tile t).anchor, (s.tile u).anchor with
  | some a, some b => a == b
  | _, _ => false

/-- The tile next to a tile in a direction, inside its die. -/
def tileNear (t d : Nat) : Option Nat :=
  let x := t % 12
  let y := t / 12 % 12
  match d with
  | 0 => if y = 0 then none else some (t - 12)
  | 1 => if x = 11 then none else some (t + 1)
  | 2 => if y = 11 then none else some (t + 12)
  | _ => if x = 0 then none else some (t - 1)

/-- The cell number next to a cell in a direction, and whether the step leaves the tile (R18: number 8 cy + cx). -/
def cellNear (c d : Nat) : Nat × Bool :=
  let x := c % 8
  let y := c / 8
  match d with
  | 0 => if y = 0 then (56 + x, true) else (c - 8, false)
  | 1 => if x = 7 then (8 * y, true) else (c + 1, false)
  | 2 => if y = 7 then (x, true) else (c + 8, false)
  | _ => if x = 0 then (8 * y + 7, true) else (c - 1, false)

/-- The cell of the same region next to a cell (R20). -/
def State.neighbour (s : State) (t c d : Nat) : Option (Nat × Nat) :=
  let n := cellNear c d
  if n.2 then
    match tileNear t d with
    | some u => if s.sameRegion t u then some (u, n.1) else none
    | none => none
  else some (t, n.1)

/-- The address generator that serves a boundary cell on a side (R21). -/
def agOfEdge (c d : Nat) : Nat :=
  match d with
  | 0 => c % 8 / 4
  | 1 => 2 + c / 8 / 4
  | 2 => 4 + c % 8 / 4
  | _ => 6 + c / 8 / 4

/-- What a channel pair of a cell joins: a neighbour, an address generator, or nothing while it is closed (R64) or cut
by the neighbour's binding alone. -/
inductive Link where
  | cell (t c : Nat)
  | ag (a : Nat)
  | closed
  deriving DecidableEq, Repr, Inhabited

/-- The channel pair of a cell on a side (R21, R64, R163). -/
def State.link (s : State) (t c d : Nat) : Link :=
  let out := (cellNear c d).2
  let x := s.cellAt t c
  if out && x.ctx.agbind d then .ag (agOfEdge c d)
  else
    match s.neighbour t c d with
    | none => .ag (agOfEdge c d)
    | some (u, m) =>
      let y := s.cellAt u m
      if out && y.ctx.agbind ((d + 2) % 4) then .closed
      else if x.sweepDone != y.sweepDone then .closed
      else .cell u m

/-- Whether the cells of a tile stand still for a fabric-path MV or ATTN of the loaded operator, on its own tile or, with span,
on every tile of the placement (R273, R282, R288). -/
def State.cellsPaused (s : State) (t : Nat) : Bool :=
  s.cmds.anyP (fun _ rc =>
    let code := rc.c.w0.fld 63 56
    let front : Bool := match rc.c.by_ with
      | .front .. => true
      | _ => false
    rc.path == 0 && (code == 0xA0 || code == 0xA2) && !front && rc.res.isNone && s.loadedOn t == some rc.pk &&
    (rc.tile == t || (code == 0xA0 && rc.eq.getLsbD 53)))

/-- Whether an output leads to a cell that stands still, whose channels take no token: what comes waits or spills (R282,
R288). -/
def State.heldOut (s : State) (t c d : Nat) : Bool :=
  match s.link t c d with
  | .cell u _ => s.cellsPaused u
  | .ag _ => s.cellsPaused t
  | .closed => false

/-- The tokens waiting in the channel that a cell's output in a direction feeds. -/
def State.outQueue (s : State) (t c d : Nat) : List Token :=
  match s.link t c d with
  | .cell u m => (s.cellAt u m).xin.getD ((d + 2) % 4) []
  | .ag _ => (s.cellAt t c).agOut.getD d []
  | .closed => []

/-- The ring of a direction that takes tokens: it is enabled and its bank is in FIFO mode (R121). -/
def State.ringOf (s : State) (t c d : Nat) : Option Spill :=
  match (s.cellAt t c).ctx.spill d with
  | none => none
  | some r => let b := (s.tile t).bank r.bank; if b.mode == .fifo && b.trans.isNone then some r else none

/-- A ring's number in its tile (R163). -/
def Spill.id (r : Spill) : Nat := r.bank * 2048 + r.base

/-- How many of some slots in use are a ring's. -/
def Spill.held (r : Spill) (l : List RingSlot) : Nat := (l.filter (fun x => x.bank == r.bank && x.base == r.base)).length

/-- Ordering tokens whose space in a destination is reserved (R219). DEDUCED (log 66). -/
def Cell.ordtAt (x : Cell) (dst : Nat) : Nat := (x.pendOrdt.filter (fun p => p.dsts.contains dst)).length

/-- How many tokens an output in a direction has space for (R20, R64, R122, R219, R282). -/
def State.room (s : State) (t c d : Nat) : Nat :=
  match s.link t c d with
  | .closed => 0
  | _ =>
    let x := s.cellAt t c
    let n := (s.outQueue t c d).length
    let held := x.ring.getD d []
    let direct := if held.isEmpty && !s.heldOut t c d then 4 - n else 0
    let spill := match s.ringOf t c d with
      | some r => r.size - r.held held
      | none => 0
    direct + spill - x.ordtAt (8 + d)

/-- Append to the channel that an output feeds. -/
def State.intoChannel (s : State) (t c d : Nat) (k : Token) : State :=
  match s.link t c d with
  | .cell u m => s.updCell u m (fun y => { y with xin := y.xin.upd ((d + 2) % 4) [] (fun l => l ++ [k]) })
  | .ag _ => s.updCell t c (fun x => { x with agOut := x.agOut.upd d [] (fun l => l ++ [k]) })
  | .closed => s

/-- Offset of a ring slot in the tile store, and the keys of its 64 bytes (R121, R163). -/
def RingSlot.off (x : RingSlot) : Nat := x.bank * 0x20000 + 64 * (x.base + x.pos)
def RingSlot.keys (x : RingSlot) (t : Nat) : List Nat := keysFrom (tileKey t x.off) 64

/-- A token in a ring slot (R121): lanes of 40 bits, the lane-valid mask, the tag and the scale type, then zeros. -/
def Token.slotBytes (k : Token) : List Byte :=
  k.lanes.toList.flatMap (fun l => leBytes 5 l.toNat) ++
  [k.valid, BitVec.ofNat 8 (k.tag.toNat + (if k.scale then 4 else 0))] ++ List.replicate 22 0

/-- The token that a ring slot's bytes hold (R121). -/
def tokenOfSlot (l : List Byte) : Token :=
  { lanes := mkLanes (fun i => BitVec.ofNat 40 (leNat ((l.drop (5 * i)).take 5))), valid := l.getD 40 0,
    tag := (l.getD 41 0).setWidth 2, scale := (l.getD 41 0).getLsbD 2 }

/-- The operator loaded on a tile, for records. -/
def State.cellOwner (s : State) (t : Nat) : Nat := s.loadedKey t

/-- A record of a cell (R402). -/
def State.cellRecord (s : State) (t c slot severity code detail : Nat) (loc : Word) : State :=
  s.report (s.tileRec t (s.cellOwner t)
    { unit := 0, severity := severity, code := code, cell := c, slot := slot, ctx := (s.cellAt t c).active,
      detail := detail, loc := loc })

/-- The record of a ring that has become full, once after a CFGL (R409). -/
def State.ringFull (s : State) (t c d : Nat) : State :=
  let x := s.cellAt t c
  match x.ctx.spill d with
  | none => s
  | some r =>
    if x.ringNoted.contains (2 * r.id) then s
    else
      (s.updCell t c (fun x => { x with ringNoted := 2 * r.id :: x.ringNoted })).cellRecord t c 0x3F 0 0x0B
        (r.bank * 2 ^ 11 + r.base) 0

/-- Push one token to an output in a direction (R122): to the channel, or behind what its ring holds, into the bytes of the
ring's next slot (R121). -/
def State.pushOut (s : State) (t c d : Nat) (k : Token) : State :=
  let held := (s.cellAt t c).ring.getD d []
  if held.isEmpty && !s.heldOut t c d && decide ((s.outQueue t c d).length < 4) then s.intoChannel t c d k
  else
    match s.ringOf t c d with
    | none => s
    | some r =>
      let x : RingSlot := { bank := r.bank, base := r.base, pos := (s.cellAt t c).ringPos.getD r.id 0 }
      let s := s.updCell t c (fun y =>
        { y with ring := y.ring.set d (held ++ [x]), ringPos := y.ringPos.set r.id ((x.pos + 1) % r.size) })
      let s := s.writeKeys (x.keys t) k.slotBytes
      if r.held held + 1 ≥ r.size then s.ringFull t c d else s

/-! ### Sources (R151) -/

/-- Whether an er or local-queue entry is the one reserved under an identifier. -/
def QEntry.token : QEntry → Option Token
  | .tok k => some k
  | .reserved _ => none

/-- The token at the head of a source of 8 to 14, where it is not empty. A closed channel is empty (R64). -/
def State.head (s : State) (t c v : Nat) : Option Token :=
  let x := s.cellAt t c
  if 8 ≤ v ∧ v ≤ 11 then
    match s.link t c (v - 8) with
    | .closed => none
    | _ => (x.xin.getD (v - 8) []).head?
  else if v = 12 ∨ v = 13 then ((x.lq.getD (v - 12) []).head?).bind QEntry.token
  else if v = 14 then (x.er.head?).bind QEntry.token
  else none

/-- Whether SCL binds a head to a latch in the active context (R225). -/
def Cell.binds (x : Cell) (v : Nat) : Bool := x.ctx.bindA == some v || x.ctx.bindB == some v

/-- The head as slots see it: a scale token at a bound head is not theirs (R90). -/
def State.slotHead (s : State) (t c v : Nat) : Option Token :=
  match s.head t c v with
  | some k => if (s.cellAt t c).binds v && k.scale then none else some k
  | none => none

/-- The eight lane values of a source (R151). -/
def State.source (s : State) (t c v : Nat) : Lanes :=
  let x := s.cellAt t c
  if v < 8 then x.v.getD v zeroLanes
  else if v ≤ 14 then (match s.head t c v with | some k => k.lanes | none => zeroLanes)
  else if v = 15 then zeroLanes
  else Vector.replicate 8 (x.ctx.lits.getD (v - 16) 0)

/-- Remove the head of a source of 8 to 14. -/
def State.popHead (s : State) (t c v : Nat) : State :=
  s.updCell t c (fun x =>
    if v ≤ 11 then { x with xin := x.xin.upd (v - 8) [] List.tail }
    else if v ≤ 13 then { x with lq := x.lq.upd (v - 12) [] List.tail }
    else { x with er := x.er.tail })

/-! ### Control and done tokens -/

/-- The control inputs of a tile that an output of a cell feeds (R160, R163): pairs of cell and input. -/
def State.fedInputs (s : State) (t c k : Nat) : List (Nat × Nat) :=
  (List.range 64).flatMap (fun m => (List.range 2).filterMap (fun i =>
    if (s.cellAt t m).ctx.cin i = 256 + 64 * k + c then some (m, i) else none))

/-- Whether a control output has space: every input it feeds can accept a token (R160). -/
def State.ctlRoom (s : State) (t c k : Nat) : Bool :=
  (s.fedInputs t c k).all (fun p => decide (((s.cellAt t p.1).ci.getD p.2 []).length < 2))

/-- Send a control token to every input an output feeds, in one cycle (R160). -/
def State.sendCtl (s : State) (t c k : Nat) (v : Bool) : State :=
  (s.fedInputs t c k).foldl (fun s p =>
    s.updCell t p.1 (fun y => { y with ci := y.ci.upd p.2 [] (fun l => l ++ [v]) })) s

/-- The token at a control input. -/
def Cell.ciHead (x : Cell) (i : Nat) : Option Bool := (x.ci.getD i []).head?

/-- Remove the token at a control input. -/
def State.popCi (s : State) (t c i : Nat) : State :=
  s.updCell t c (fun x => { x with ci := x.ci.upd i [] List.tail })

/-- Memory firings of a cell that are not performed yet: its UPDs under way and its commands (R219). -/
def Cell.openMemory (x : Cell) : List Nat := x.pendUpd.map PendUpd.id ++ x.ecmds

/-- Count a done token of a cell at the loop bodies of a mask: those that run and whose mask holds the cell (R58, R211). -/
def State.countDone (s : State) (t c bodies : Nat) : State :=
  s.updOpr t (keySlot (s.cellOwner t)) (fun o =>
    { o with lcu := o.lcu.mapVals (fun n b =>
        if bitOf bodies n && b.running && b.mask.getLsbD c then { b with done := b.done.upd c 0 (· + 1) } else b) })

/-- A done token of a cell to the bodies of a mask: it is sent once every tile-window access of the cell's earlier firings has
been performed (R58, R135). -/
def State.doneToken (s : State) (t c bodies : Nat) : State :=
  let w := (s.cellAt t c).pendUpd.map PendUpd.id
  if w.isEmpty then s.countDone t c bodies
  else s.updCell t c (fun x => { x with pendDone := x.pendDone ++ [{ bodies := bodies, waits := w }] })

/-- Send the done tokens of a cell that no open update holds back any more (R135). -/
def State.sendDone (s : State) (t c : Nat) : State :=
  let x := s.cellAt t c
  let open_ (p : PendDone) : Bool := p.waits.any (fun w => x.pendUpd.any (fun q => q.id == w))
  (x.pendDone.filter (fun p => !open_ p)).foldl (fun s p => s.countDone t c p.bodies)
    (s.updCell t c (fun x => { x with pendDone := x.pendDone.filter open_ }))

/-! ### A firing -/

/-- One slot of a cell about to fire: its place, its fields, its form, the cell as it stands before the firing, the
src_a head, and the executing lanes. -/
structure Firing where
  t : Nat
  c : Nat
  slot : Nat
  op : Nat
  f : CellF
  form : CellForm
  x : Cell
  headA : Option Token
  exec : BitVec 8
  deriving DecidableEq, Repr, Inhabited

/-- Lanes in which the tested predicates hold (R61, R157). -/
def Cell.predMask (x : Cell) (f : CellF) : BitVec 8 :=
  laneMask (fun i => (List.range 4).all (fun j =>
    !bitOf f.predCare j || (x.q.getD j 0).getLsbD i == bitOf f.predVal j))

/-- The lanes a slot tests: the lane_valid mask of a src_a head, or all eight (R61). -/
def testedLanes (f : CellF) (form : CellForm) (h : Option Token) : BitVec 8 :=
  if form.a.names && decide (8 ≤ f.srcA ∧ f.srcA ≤ 14) then (match h with | some k => k.valid | none => 0) else 0xFF

/-- The firing of the slot in focus with an opcode and fields. -/
def State.firing (s : State) (op : Nat) (f : CellF) : Firing :=
  let t := s.sched.focus.tile
  let c := s.sched.focus.cell
  let x := s.cellAt t c
  let form := (cellForm op).getD formB
  let h := if form.a.names then s.slotHead t c f.srcA else none
  { t := t, c := c, slot := s.sched.focus.slot, op := op, f := f, form := form, x := x, headA := h,
    exec := testedLanes f form h &&& x.predMask f }

/-- Executing lanes, rising. -/
def Firing.lanes (fr : Firing) : List Nat := (List.range 8).filter fr.exec.getLsbD

/-- Whether the operation word names a source (R158), counting only fields that are sources or bound heads. -/
def Firing.names (fr : Firing) (v : Nat) : Bool :=
  (fr.form.a.names && fr.f.srcA == v) || (fr.form.b.names && fr.f.srcB == v) ||
  (fr.form.db.isSource && fr.f.dstB == v)

/-- The source that MERGE's control token selects (R210). -/
def Firing.selected (fr : Firing) : Nat := if fr.x.ciHead 0 = some true then fr.f.srcA else fr.f.srcB

/-- Whether the firing takes the er entry (R151); MERGE takes only what it selects (R210). -/
def Firing.takesEr (fr : Firing) : Bool := if fr.op = 0x83 then fr.selected == 14 else fr.names 14

/-- Whether a head is required by the trigger (R157); MERGE waits only for the head it selects (R210). -/
def Firing.needs (fr : Firing) (v : Nat) : Bool :=
  bitOf fr.f.need (v - 8) && !(fr.op == 0x83 && (fr.f.srcA == v || fr.f.srcB == v))

/-- Whether the firing pops a head by its pop bit, and LDSW's head always (R223). -/
def Firing.popsBit (fr : Firing) (v : Nat) : Bool :=
  bitOf fr.f.pop (v - 8) || (fr.op == 0xA1 && fr.f.srcA == v)

/-- Whether the firing pops a head at all: MERGE pops what it selects (R210). -/
def Firing.pops (fr : Firing) (v : Nat) : Bool := fr.popsBit v || (fr.op == 0x83 && fr.selected == v)

/-- Destinations the firing names (R152). -/
def Firing.dsts (fr : Firing) : List Nat :=
  (if fr.form.da.isDest then [fr.f.dstA] else []) ++ (if fr.form.db.isDest then [fr.f.dstB] else [])

/-- Whether a destination has space (R20, R61, R152, R160). -/
def State.hasSpace (s : State) (fr : Firing) (d : Nat) : Bool :=
  if 8 ≤ d ∧ d ≤ 11 then decide (0 < s.room fr.t fr.c (d - 8))
  else if d = 12 ∨ d = 13 then decide ((fr.x.lq.getD (d - 12) []).length + fr.x.ordtAt d < 4)
  else if d = 20 ∨ d = 21 then s.ctlRoom fr.t fr.c (d - 20)
  else true

/-- The predicate condition under its quantifier (R61). -/
def Firing.predOk (fr : Firing) : Bool :=
  if fr.f.predCare = 0 then true
  else if fr.f.allLanes then fr.exec == testedLanes fr.f fr.form fr.headA
  else fr.exec != 0

/-- The engine queue register to which a cell's command port is bound (R227, R273). -/
def State.portOf (s : State) (t c : Nat) : Option Nat := ((s.tile t).oprAt (keySlot (s.cellOwner t))).ports.find? c

/-- Readiness that an instruction adds to R61. -/
def State.opReady (s : State) (fr : Firing) : Bool :=
  let f := fr.f
  match fr.op with
  | 0x82 => f.srcB != 4 || (fr.x.ciHead 0).isSome
  | 0x83 =>
    match fr.x.ciHead 0 with
    | none => false
    | some _ =>
      let w := fr.selected
      !(decide (8 ≤ w ∧ w ≤ 13)) || (s.slotHead fr.t fr.c w).isSome
  | 0x85 => (fr.x.ciHead f.srcA).isSome
  | 0x94 => decide (fr.x.updOut.length + fr.lanes.length ≤ 8)
  | 0x95 => decide (fr.x.updOut.length + fr.lanes.length ≤ 8)
  | 0x96 => decide (fr.x.updOut.length + fr.lanes.length ≤ 8)
  | 0x97 => decide (fr.x.updOut.length + fr.lanes.length ≤ 8)
  | 0x98 => decide (fr.x.updOut.length + fr.lanes.length ≤ 8)
  | 0x99 => decide (fr.x.updOut.length + fr.lanes.length ≤ 8)
  | 0xA1 => f.dstA != 31 || decide (fr.x.rowCtr < 32)
  | 0xA2 => decide (fr.x.rowCtr = 32)
  | 0xB0 =>
    fr.exec == 0 ||
    (match s.portOf fr.t fr.c with
     | none => true
     | some q =>
       decide (fr.x.er.length < 4) &&
       decide ((((s.tile fr.t).oprAt (keySlot (s.cellOwner fr.t))).queues.getD q {}).items.length < 16))
  | _ => true

/-- Whether systolic mode lets the slot fire (R221): it does not name xw, and pops xn only for a weight token. -/
def State.systolicOk (s : State) (fr : Firing) : Bool :=
  fr.x.sys.isNone ||
  (!(bitOf fr.f.need 3 || bitOf fr.f.pop 3 || fr.names 11) &&
   (!fr.pops 8 || (match s.head fr.t fr.c 8 with | some k => k.tag == 3 | none => true)))

/-- A slot is ready (R61, R157, R158) but for the space of its destinations. -/
def State.readyButSpace (s : State) (fr : Firing) : Bool :=
  bitOf fr.f.trig 31 &&
  (List.range 6).all (fun i => !fr.needs (8 + i) || (s.slotHead fr.t fr.c (8 + i)).isSome) &&
  (!fr.takesEr || (s.head fr.t fr.c 14).isSome) &&
  (!fr.f.tagTest || (match fr.headA with | some k => k.tag.toNat == fr.f.tagVal | none => false)) &&
  (!fr.f.ctl || fr.x.ciHead 0 == some fr.f.ctlVal) &&
  fr.predOk && s.systolicOk fr && s.opReady fr

/-- A slot is ready (R61). -/
def State.slotReady (s : State) (fr : Firing) : Bool := s.readyButSpace fr && fr.dsts.all (s.hasSpace fr)

/-- A push held back by a ring whose bank is not in FIFO mode: it counts as a full ring and gets its record (R422). -/
def State.noteRing (s : State) (t c d : Nat) : State :=
  if ((s.cellAt t c).ctx.spill d).isSome && (s.ringOf t c d).isNone && s.room t c d == 0 && s.link t c d != .closed then
    s.ringFull t c d
  else s

/-- The rings that hold back a slot that is otherwise ready (R422). -/
def State.noteRings (s : State) (fr : Firing) : State :=
  if s.readyButSpace fr then
    (fr.dsts.filter (fun d => decide (8 ≤ d ∧ d ≤ 11))).foldl (fun s d => s.noteRing fr.t fr.c (d - 8)) s
  else s

/-- Whether a cell may fire in this cycle: it belongs to a loaded operator, it is not halted, trapped or being
configured, no fabric-path command holds it, and it has not fired in this cycle (R62, R230, R261, R288, R316, R403).
DEDUCED (log 64). -/
def State.cellLive (s : State) (t c : Nat) (paused : Bool) : Bool :=
  let x := s.cellAt t c
  (s.loadedOn t).isSome && (s.tile t).cfgl.isNone && !paused && !x.halted && !x.trapped &&
  decide (x.nextFire ≤ s.clk.cycle)

end Sys2Proof.Machine
end

