-- ==== Sys2Proof/Machine/Flags.lean ====
section
/-! DEFINITION. How a firing takes effect: the cell trap (R402, R403), sticky flags and floating-point traps (R87, R88),
the result and tag rules (R153, R179 to R183), and the operand shapes the cell's arithmetic shares. -/

namespace Sys2Proof.Machine

/-! ### Effects of a firing -/

/-- The detail of a cell trap's record: that of R402, with the executing lanes. For a memory cause R413 states a detail of zero; which
of the two the record has is free (log 29). DESIGN CHOICE (log 29). -/
def State.trapDetail (s : State) (fr : Firing) (code sw : Nat) (fl : BitVec 5) : Nat × State :=
  let full := fr.exec.toNat * 2 ^ 24 + sw * 2 ^ 16 + fl.toNat
  if code < 0x10 then (full, s) else let c := s.pick 2; (if c.1 = 0 then full else 0, c.2)

/-- The cell trap (R402, R403): one record, and the cell fires no slot until it next switches. Nothing else changes.
DESIGN CHOICE (log 29). -/
def State.cellTrap (s : State) (fr : Firing) (code sw : Nat) (fl : BitVec 5) (loc : Word) : State :=
  let d := s.trapDetail fr code sw fl
  (d.2.cellRecord fr.t fr.c fr.slot 1 code d.1 loc).updCell fr.t fr.c (fun x => { x with trapped := true })

/-- The tag of an emitted token (R153). -/
def Firing.tag (fr : Firing) : BitVec 2 :=
  if fr.f.explicit then BitVec.ofNat 2 fr.f.tagNum
  else match fr.headA with
    | some k => k.tag
    | none => 0

/-- Pops of the trigger, of er where it is named, and of ci0 under ctl (R151, R157, R158). -/
def State.takeHeads (s : State) (fr : Firing) : State :=
  let s := (List.range 6).foldl (fun s i => if fr.popsBit (8 + i) then s.popHead fr.t fr.c (8 + i) else s) s
  let s := if fr.takesEr then s.popHead fr.t fr.c 14 else s
  if fr.f.ctl then s.popCi fr.t fr.c 0 else s

/-- Raise flags in the executing lanes (R87). -/
def State.raiseFlags (s : State) (fr : Firing) (fl : Nat → BitVec 5) : State :=
  s.updCell fr.t fr.c (fun x => { x with flags := fr.lanes.foldl (fun m i =>
    if fl i = 0 then m else m.upd i 0 (fun o => o ||| fl i)) x.flags })

/-- What every firing ends with: its done bit (R153, R211), its cycle (R62), and the region's progress (R408). -/
def State.endFiring (s : State) (fr : Firing) : State :=
  let s := if fr.f.done then s.doneToken fr.t fr.c 15 else s
  let s := s.updCell fr.t fr.c (fun x => { x with nextFire := s.clk.cycle + 1 })
  match (s.tile fr.t).anchor with
  | none => s
  | some a => s.updRegion a (fun r => { r with lastMove := s.clk.cycle, stallNoted := false })

/-- Deliver a token, or a register write of its valid lanes, to a data destination (R152, R180). -/
def State.deliver (s : State) (t c d : Nat) (k : Token) : State :=
  if d < 8 then
    s.updCell t c (fun x => { x with v := x.v.upd d zeroLanes (fun o =>
      mkLanes (fun i => if k.valid.getLsbD i then lane k.lanes i else lane o i)) })
  else if d ≤ 11 then s.pushOut t c (d - 8) k
  else if d ≤ 13 then s.updCell t c (fun x => { x with lq := x.lq.upd (d - 12) [] (fun l => l ++ [.tok k]) })
  else s

/-- A token of some lanes of a value: the other lanes carry 0 (R180). -/
def mkToken (g : Nat → Fw) (mask : BitVec 8) (tag : BitVec 2) (scale : Bool) : Token :=
  { lanes := mkLanes (fun i => if mask.getLsbD i then g i else 0), valid := mask, tag := tag, scale := scale }

/-- Deliver one token to each destination the firing names (R180). -/
def State.emit (s : State) (fr : Firing) (k : Token) : State := fr.dsts.foldl (fun s d => s.deliver fr.t fr.c d k) s

/-- The OR of the flags a firing raises in its executing lanes. -/
def Firing.anyFlag (fr : Firing) (fl : Nat → BitVec 5) : BitVec 5 := fr.lanes.foldl (fun a i => a ||| fl i) 0

/-- A firing that takes effect, or traps: a raised flag whose trap enable is set suppresses it whole (R88, R403). -/
def State.finishFiring (s : State) (fr : Firing) (fl : Nat → BitVec 5) (act : State → State) : State :=
  let u := fr.anyFlag fl
  if u &&& fr.x.ctx.trapEn != 0 then s.cellTrap fr 0x01 0 u 0
  else (act ((s.takeHeads fr).raiseFlags fr fl)).endFiring fr

/-- A firing that raises no flag. -/
def State.quiet (s : State) (fr : Firing) (act : State → State) : State := s.finishFiring fr (fun _ => 0) act

/-- Perform the instruction of the slot in focus: a slot that is not ready waits (R61), and so does one whose push a ring
outside FIFO mode holds back, which is recorded (R422). -/
def fire (op : Nat) (f : CellF) (act : State → Firing → State) (s : State) : Out :=
  let fr := s.firing op f
  if s.slotReady fr then .next (act s fr) else .next (s.noteRings fr)

/-- The value of a source in a lane. -/
def State.srcLane (s : State) (fr : Firing) (v i : Nat) : Fw := lane (s.source fr.t fr.c v) i

/-- A firing that computes a value and flags in each executing lane and delivers them (R180, R183). -/
def laneOp (op : Nat) (f : CellF) (g : State → Firing → Nat → Fw × BitVec 5) : State → Out :=
  fire op f (fun s fr =>
    s.finishFiring fr (fun i => (g s fr i).2)
      (fun u => u.emit fr (mkToken (fun i => (g s fr i).1) fr.exec fr.tag false)))

/-- An integer result: bits [39:32] zero (R181). -/
def intFw (v : Nat) : Fw := BitVec.ofNat 40 (v % 2 ^ 32)

/-- The low word of a lane. -/
def low32 (x : Fw) : BitVec 32 := x.setWidth 32

/-- An integer instruction of form B (R185). -/
def intOp2 (op : Nat) (f : CellF) (g : BitVec 32 → BitVec 32 → BitVec 32) : State → Out :=
  laneOp op f (fun s fr i =>
    ((g (low32 (s.srcLane fr f.srcA i)) (low32 (s.srcLane fr f.srcB i))).setWidth 40, 0))

/-- An integer instruction of form U (R185). -/
def intOp1 (op : Nat) (f : CellF) (g : BitVec 32 → BitVec 32) : State → Out :=
  laneOp op f (fun s fr i => ((g (low32 (s.srcLane fr f.srcA i))).setWidth 40, 0))

/-- The latched scale of a source bound by SCL, or 1 (R90, R184). -/
def Firing.scaleOf (fr : Firing) (v i : Nat) : Fw :=
  if fr.x.ctx.bindA = some v then lane fr.x.latA i
  else if fr.x.ctx.bindB = some v then lane fr.x.latB i
  else fwOne

/-- A float instruction of form B in the context's rounding mode (R183). -/
def fpOp2 (op : Nat) (f : CellF) (g : Rnd → Fw → Fw → Fw × BitVec 5) : State → Out :=
  laneOp op f (fun s fr i => g fr.x.ctx.rnd (s.srcLane fr f.srcA i) (s.srcLane fr f.srcB i))

/-- A float instruction of form U (R183). -/
def fpOp1 (op : Nat) (f : CellF) (g : Rnd → Fw → Fw × BitVec 5) : State → Out :=
  laneOp op f (fun s fr i => g fr.x.ctx.rnd (s.srcLane fr f.srcA i))

/-- Write bits to a predicate in executing lanes (R182, R212). -/
def State.setPred (s : State) (fr : Firing) (q : Nat) (bits : Nat → Bool) : State :=
  s.updCell fr.t fr.c (fun x => { x with q := x.q.upd q 0 (fun o =>
    laneMask (fun i => if fr.exec.getLsbD i then bits i else o.getLsbD i)) })

/-- The control token of a compare (R182). -/
def Firing.ctlBit (fr : Firing) (bits : Nat → Bool) : Bool :=
  if fr.f.allLanes then fr.exec != 0 && fr.lanes.all bits else fr.lanes.any bits

/-- A compare (form P, R182). -/
def cmpOp (op : Nat) (f : CellF) (g : Fw → Fw → Bool × BitVec 5) : State → Out :=
  fire op f (fun s fr =>
    let r (i : Nat) := g (s.srcLane fr f.srcA i) (s.srcLane fr f.srcB i)
    s.finishFiring fr (fun i => (r i).2) (fun u =>
      fr.dsts.foldl (fun u d =>
        if 16 ≤ d ∧ d ≤ 19 then u.setPred fr (d - 16) (fun i => (r i).1)
        else if d = 20 ∨ d = 21 then u.sendCtl fr.t fr.c (d - 20) (fr.ctlBit (fun i => (r i).1))
        else u) u))

end Sys2Proof.Machine
end

