-- ==== Sys2Proof/Machine/CellInteger.lean ====
section
/-! DEFINITION. The integer, bit and compare instructions of cells (R181, R182, R185 to R188) -/

namespace Sys2Proof.Machine

/-- ADD (R185). -/
def execCellAdd (f : CellF) : State → Out := intOp2 0x01 f (fun a b => a + b)

/-- SUB (R185). -/
def execCellSub (f : CellF) : State → Out := intOp2 0x02 f (fun a b => a - b)

/-- MUL (R185): the low word of the product. -/
def execCellMul (f : CellF) : State → Out := intOp2 0x03 f (fun a b => a * b)

/-- MULH (R185): the high word of the signed product. -/
def execCellMulh (f : CellF) : State → Out := intOp2 0x04 f (fun a b => ((a.signExtend 64 * b.signExtend 64) >>> 32).setWidth 32)

/-- AND (R185). -/
def execCellAnd (f : CellF) : State → Out := intOp2 0x05 f (fun a b => a &&& b)

/-- OR (R185). -/
def execCellOr (f : CellF) : State → Out := intOp2 0x06 f (fun a b => a ||| b)

/-- XOR (R185). -/
def execCellXor (f : CellF) : State → Out := intOp2 0x07 f (fun a b => a ^^^ b)

/-- ANDN (R185). -/
def execCellAndn (f : CellF) : State → Out := intOp2 0x08 f (fun a b => a &&& ~~~ b)

/-- SHL (R185): a count of 32 or more gives 0. -/
def execCellShl (f : CellF) : State → Out := intOp2 0x09 f (fun a b => if b.toNat < 32 then a <<< b.toNat else 0)

/-- SHR (R185): a count of 32 or more gives 0. -/
def execCellShr (f : CellF) : State → Out := intOp2 0x0A f (fun a b => if b.toNat < 32 then a >>> b.toNat else 0)

/-- SAR (R185): the count is at most 31. -/
def execCellSar (f : CellF) : State → Out := intOp2 0x0B f (fun a b => a.sshiftRight (min b.toNat 31))

/-- ROT (R185): left, modulo 32. -/
def execCellRot (f : CellF) : State → Out := intOp2 0x0C f (fun a b => a.rotateLeft (b.toNat % 32))

/-- MIN (R185), signed. -/
def execCellMin (f : CellF) : State → Out := intOp2 0x0D f (fun a b => if a.toInt ≤ b.toInt then a else b)

/-- MAX (R185), signed. -/
def execCellMax (f : CellF) : State → Out := intOp2 0x0E f (fun a b => if a.toInt ≤ b.toInt then b else a)

/-- MINU (R185). -/
def execMinu (f : CellF) : State → Out := intOp2 0x0F f (fun a b => if a.toNat ≤ b.toNat then a else b)

/-- MAXU (R185). -/
def execMaxu (f : CellF) : State → Out := intOp2 0x10 f (fun a b => if a.toNat ≤ b.toNat then b else a)

/-- Leading zero bits of a word (R185). -/
def clz32 (a : BitVec 32) : Nat := ((List.range 32).find? (fun i => a.getLsbD (31 - i))).getD 32

/-- Set bits of a word (R185). -/
def popc32 (a : BitVec 32) : Nat := ((List.range 32).filter a.getLsbD).length

/-- CLZ (R185). -/
def execCellClz (f : CellF) : State → Out := intOp1 0x11 f (fun a => BitVec.ofNat 32 (clz32 a))

/-- POPC (R185). -/
def execCellPopc (f : CellF) : State → Out := intOp1 0x12 f (fun a => BitVec.ofNat 32 (popc32 a))

/-- PACK (R185). -/
def execPack (f : CellF) : State → Out := intOp2 0x14 f (fun a b => (b <<< 16) ||| (a &&& 0xFFFF#32))

/-- Byte S(k) of a source (R188). -/
def permByte (l : Lanes) (k : Nat) : Nat := fld (lane l (k / 4)).toNat (8 * (k % 4) + 7) (8 * (k % 4))

/-- Nibble N(n) of a source (R188). -/
def permNibble (l : Lanes) (n : Nat) : Nat := fld (permByte l (n / 2)) (4 * (n % 2) + 3) (4 * (n % 2))

/-- The low n bits of a number, sign-extended to 32 bits. -/
def sext32 (n v : Nat) : Nat := (BitVec.ofInt 32 (signed n v)).toNat

/-- BPERM's result in a lane (R188): the selector's mode, then its bytes or index. A reserved mode raises invalid. -/
def bpermLane (a : Lanes) (sel : Fw) : Fw × BitVec 5 :=
  let w := sel.toNat
  match fld w 39 32 with
  | 0 => (intFw ((List.range 4).foldl (fun r i =>
      if bitOf w (8 * i + 7) then r else r + permByte a (fld w (8 * i + 4) (8 * i)) * 2 ^ (8 * i)) 0), 0)
  | 1 => (intFw (sext32 4 (permNibble a (fld w 5 0))), 0)
  | 2 => (intFw (permNibble a (fld w 5 0)), 0)
  | 3 => (intFw (sext32 8 (permByte a (fld w 4 0))), 0)
  | 4 => (intFw (permByte a (fld w 4 0)), 0)
  | _ => (0, flagInvalid)

/-- BPERM (R188). -/
def execBperm (f : CellF) : State → Out :=
  laneOp 0x13 f (fun s fr i => bpermLane (s.source fr.t fr.c f.srcA) (s.srcLane fr f.srcB i))

/-- SEL (R186): all 40 bits of a or b, by predicate n as it stands before the firing. -/
def execSel (n : Nat) (f : CellF) : State → Out :=
  laneOp (0x18 + n) f (fun s fr i =>
    (s.srcLane fr (if (fr.x.q.getD n 0).getLsbD i then f.srcA else f.srcB) i, 0))

/-- An integer compare (R187). -/
def intCmp (op : Nat) (f : CellF) (g : BitVec 32 → BitVec 32 → Bool) : State → Out :=
  cmpOp op f (fun a b => (g (low32 a) (low32 b), 0))

/-- CEQ (R187). -/
def execCeq (f : CellF) : State → Out := intCmp 0x20 f (fun a b => a == b)

/-- CNE (R187). -/
def execCne (f : CellF) : State → Out := intCmp 0x21 f (fun a b => a != b)

/-- CLT (R187). -/
def execClt (f : CellF) : State → Out := intCmp 0x22 f (fun a b => decide (a.toInt < b.toInt))

/-- CLE (R187). -/
def execCle (f : CellF) : State → Out := intCmp 0x23 f (fun a b => decide (a.toInt ≤ b.toInt))

/-- CLTU (R187). -/
def execCltu (f : CellF) : State → Out := intCmp 0x24 f (fun a b => decide (a.toNat < b.toNat))

/-- CLEU (R187). -/
def execCleu (f : CellF) : State → Out := intCmp 0x25 f (fun a b => decide (a.toNat ≤ b.toNat))

end Sys2Proof.Machine
end

