-- ==== Sys2Proof/Machine/CellFlow.lean ====
section
/-! DEFINITION. The instructions of cells that move tokens and control tokens (R206 to R212). -/

namespace Sys2Proof.Machine

/-- The scale type bit of the token a moving instruction moves: the src_a head's, else 0 (R206). -/
def Firing.scaleBit (fr : Firing) : Bool := (fr.headA.map Token.scale).getD false

/-- MOV (R208): all 40 bits of a, with the head's scale bit. -/
def execMov (f : CellF) : State → Out :=
  fire 0x80 f (fun s fr =>
    s.quiet fr (fun u => u.emit fr (mkToken (s.srcLane fr f.srcA) fr.exec fr.tag fr.scaleBit)))

/-- LIT's value in a lane (R208). -/
def litLane (f : CellF) (i : Nat) : Fw :=
  intFw (sext32 10 (f.srcA * 32 + f.srcB) + (if f.dstB = 0 then i else 0))

/-- LIT (R208). -/
def execLit (f : CellF) : State → Out :=
  fire 0x81 f (fun s fr => s.quiet fr (fun u => u.emit fr (mkToken (litLane f) fr.exec fr.tag false)))

/-- Deliver a token unless no lane is valid in it (R209). -/
def State.deliverSome (s : State) (fr : Firing) (d : Nat) (k : Token) : State :=
  if k.valid = 0 then s else s.deliver fr.t fr.c d k

/-- STEER, predicate form (R209). -/
def execSteer (f : CellF) : State → Out :=
  fire 0x82 f (fun s fr =>
    let q := fr.x.q.getD f.srcB 0
    let part (m : BitVec 8) : Token := mkToken (s.srcLane fr f.srcA) m fr.tag fr.scaleBit
    s.quiet fr (fun u =>
      (u.deliverSome fr f.dstA (part (fr.exec &&& q))).deliverSome fr f.dstB (part (fr.exec &&& ~~~ q))))

/-- The whole token of a source, with the tag rule of R153; a source that is no head is valid in every lane. -/
def State.wholeToken (s : State) (fr : Firing) (v : Nat) : Token :=
  match s.slotHead fr.t fr.c v with
  | some k => { k with tag := if fr.f.explicit then BitVec.ofNat 2 fr.f.tagNum else k.tag }
  | none =>
    { lanes := s.source fr.t fr.c v, valid := 0xFF, tag := if fr.f.explicit then BitVec.ofNat 2 fr.f.tagNum else 0,
      scale := false }

/-- STEER, control form (R209): the ci0 token decides where the whole token goes. -/
def execSteerCtl (f : CellF) : State → Out :=
  fire 0x82 f (fun s fr =>
    let k := s.wholeToken fr f.srcA
    s.quiet fr (fun u =>
      (u.popCi fr.t fr.c 0).deliver fr.t fr.c (if fr.x.ciHead 0 = some true then f.dstA else f.dstB) k))

/-- MERGE (R210): it pops the ci0 token and the head that token selects. DEDUCED (log 65). -/
def execMerge (f : CellF) : State → Out :=
  fire 0x83 f (fun s fr =>
    let v := fr.selected
    let k := s.wholeToken fr v
    s.quiet fr (fun u =>
      let u := u.popCi fr.t fr.c 0
      let u := if 8 ≤ v ∧ v ≤ 13 then u.popHead fr.t fr.c v else u
      u.deliver fr.t fr.c f.dstA k))

/-- CTOK (R212): whatever the lanes. -/
def execCtok (f : CellF) : State → Out :=
  fire 0x84 f (fun s fr =>
    s.quiet fr (fun u => fr.dsts.foldl (fun u d =>
      if d = 20 ∨ d = 21 then u.sendCtl fr.t fr.c (d - 20) (f.srcA == 1) else u) u))

/-- CREC (R212). -/
def execCrec (f : CellF) : State → Out :=
  fire 0x85 f (fun s fr =>
    let v := (fr.x.ciHead f.srcA).getD false
    s.quiet fr (fun u => fr.dsts.foldl (fun u d =>
      if 16 ≤ d ∧ d ≤ 19 then u.setPred fr (d - 16) (fun _ => v) else u) (u.popCi fr.t fr.c f.srcA)))

/-- DROP (R211): the pops, the done bit and the ctl pop alone. -/
def execDrop (f : CellF) : State → Out := fire 0x86 f (fun s fr => s.quiet fr id)

/-- TAG (R208): the tag comes from b in the lowest executing lane; with none, from R153. -/
def execTag (f : CellF) : State → Out :=
  fire 0x87 f (fun s fr =>
    let tag := match fr.lanes with
      | i :: _ => (s.srcLane fr f.srcB i).setWidth 2
      | [] => fr.tag
    s.quiet fr (fun u => u.emit fr (mkToken (s.srcLane fr f.srcA) fr.exec tag fr.scaleBit)))

/-- DONE (R211): a done token to loop body n. -/
def execDone (f : CellF) : State → Out :=
  fire 0x88 f (fun s fr => s.quiet fr (fun u => u.doneToken fr.t fr.c (2 ^ f.srcA)))

end Sys2Proof.Machine
end

