-- ==== Sys2Proof/Machine/CellMatrix.lean ====
section
/-! DEFINITION. The systolic, scale and triple-merge instructions of cells (R220 to R226). -/

namespace Sys2Proof.Machine

/-- SYSM with a descriptor (R220): a reserved value stops it. -/
def execSysm (f : CellF) : State → Out :=
  fire 0xA0 f (fun s fr =>
    let d := s.srcLane fr f.srcA 0
    let w := d.toNat
    if !bitOf w 39 || fld w 38 37 == 3 || fld w 34 32 != 0 || fld w 23 0 != 0 then s.cellTrap fr 0x03 0 0 0
    else s.quiet fr (fun u => u.updCell fr.t fr.c (fun x => { x with sys := some d })))

/-- `sysm off` (R220); a beat is accepted and emitted in one step of the model, so none is in progress here. -/
def execSysmOff (f : CellF) : State → Out :=
  fire 0xA0 f (fun s fr => s.quiet fr (fun u => u.updCell fr.t fr.c (fun x => { x with sys := none })))

/-- LDSW's effect on a shadow plane that is not full (R223). -/
def Cell.loadShadow (x : Cell) (k : Token) : Cell :=
  if k.scale then { x with planeS := { x.planeS with cs := k.lanes } }
  else
    { x with
      planeS := { x.planeS with
        rows := x.planeS.rows.set x.rowCtr (mkLanes (fun i => if k.valid.getLsbD i then lane k.lanes i else 0)) }
      rowCtr := x.rowCtr + 1 }

/-- LDSW (R223): the head fills the shadow plane, or goes on whole when it is full. -/
def execLdsw (f : CellF) : State → Out :=
  fire 0xA1 f (fun s fr =>
    let k := s.wholeToken fr f.srcA
    s.quiet fr (fun u =>
      if fr.x.rowCtr < 32 then u.updCell fr.t fr.c (fun x => x.loadShadow k) else u.deliver fr.t fr.c f.dstA k))

/-- PSWP (R224). -/
def execPswp (f : CellF) : State → Out :=
  fire 0xA2 f (fun s fr => s.quiet fr (fun u => u.updCell fr.t fr.c (fun x =>
    { x with planeA := x.planeS, planeS := { x.planeA with cs := oneLanes }, rowCtr := 0 })))

/-- SCL (R225): the binding is the active context's, and applies from the next cycle. DEDUCED (log 102). -/
def execScl (f : CellF) : State → Out :=
  fire 0xA3 f (fun s fr => s.quiet fr (fun u => u.updCell fr.t fr.c (fun x =>
    let x := { x with bindAt := s.clk.cycle + 1 }.setCtx (fun k =>
      { k with bindA := if f.srcA = 15 then none else some f.srcA, bindB := if f.srcB = 15 then none else some f.srcB })
    if f.dstA = 0 then { x with latA := oneLanes, latB := oneLanes } else x)))

/-- TMRG (R226): a pair of head tokens sets the merge state; vector tokens are combined under it. Tokens whose tags
differ or exceed 1, and a head pair without lanes 0 and 1, stop it with code 0x04. -/
def execTmrg (f : CellF) : State → Out :=
  fire 0xA4 f (fun s fr =>
    match s.slotHead fr.t fr.c f.srcA, s.slotHead fr.t fr.c f.srcB with
    | some x, some y =>
      if x.tag != y.tag || decide (2 ≤ x.tag.toNat) then s.cellTrap fr 0x04 0 0 0
      else if x.tag = 1 then
        if x.valid &&& y.valid &&& 3 != 3 then s.cellTrap fr 0x04 0 0 0
        else
          let h := mergeHead (lane x.lanes 0) (lane x.lanes 1) (lane y.lanes 0) (lane y.lanes 1)
          let (big, a, b, l, _) := h.1
          s.finishFiring fr (fun _ => h.2) (fun u =>
            (u.updCell fr.t fr.c (fun z =>
              { z with mrgA := a, mrgB := b, mrgNan := isNaN (lane x.lanes 0) || isNaN (lane y.lanes 0) })).emit fr
              (mkToken (fun i => if i = 0 then big else l) 3 fr.tag false))
      else
        let m := fr.exec &&& x.valid &&& y.valid
        let r (i : Nat) : Fw × BitVec 5 :=
          if !m.getLsbD i then (0, 0)
          else if fr.x.mrgNan then (defaultNaN, 0)
          else fusedPair fr.x.mrgA (lane x.lanes i) fr.x.mrgB (lane y.lanes i)
        s.finishFiring fr (fun i => (r i).2) (fun u => u.emit fr (mkToken (fun i => (r i).1) m fr.tag false))
    | _, _ => s)

end Sys2Proof.Machine
end

