-- ==== Sys2Proof/Machine/CellWindow.lean ====
section
/-! DEFINITION. What the memory firings of cells share: the checks of R213 and R216 on tile-window elements, and the owner
directory (R215) -/

namespace Sys2Proof.Machine

/-- The check of n bytes that must lie in SCRATCH banks (R203, R215): their keys, or the code of R412. -/
def State.scratchRange (s : State) (t off n : Nat) : Except Nat (List Nat) :=
  if off + n > 0x180000 then .error 0x11
  else if (keysFrom off n).all (fun o =>
      let b := (s.tile t).bank (o / 0x20000)
      b.mode == .scratch && b.trans.isNone) then .ok (keysFrom (tileKey t off) n)
  else .error 0x12

/-- Why a write of n bytes into a SCRATCH range fails, with its offset: the range, or an uncorrectable error in a granule
it covers in part (R419). DEDUCED (log 39). -/
def State.scratchFail (s : State) (t off n : Nat) : Option (Nat × Nat) :=
  match s.scratchRange t off n with
  | .error e => some (e, off)
  | .ok ks => if s.badWrite ks then some (0x1D, off) else none

/-- Why an LDS or STS element fails (R213, R419), in the order of R213's list: alignment, range, bank (log 39). -/
def State.elementFail (s : State) (t off n : Nat) (write : Bool) : Option (Nat × Nat) :=
  if off % n != 0 then some (0x13, off)
  else
    match s.windowRange t off n 0 with
    | .error e => some (e.code, off)
    | .ok ks => if (if write then s.badWrite ks else s.badRead ks) then some (0x1D, off) else none

/-- The open or closing directory entry that holds an element (R215): number and entry. -/
def State.ownerOf (s : State) (t off n : Nat) : Option (Nat × OwnerEntry) :=
  (s.tile t).owners.items.find? (fun p => decide (p.2.base ≤ off) && decide (off + n ≤ p.2.base + 8 * p.2.words))

/-- Whether an update to an entry's range is on its way or waits in a tile (R215). -/
def Tile.inFlight (x : Tile) (e : OwnerEntry) : Bool :=
  let hit (u : Update) : Bool := decide (e.base ≤ u.addr) && decide (u.addr < e.base + 8 * e.words)
  x.cells.anyP (fun _ c => c.port.any hit || c.updOut.any hit)

/-- Free the closing entries to whose ranges no update is in flight (R215). -/
def State.freeClosing (s : State) (t : Nat) : State :=
  s.updTile t (fun x => { x with owners := x.owners.keep (fun _ e => !e.closing || x.inFlight e) })

end Sys2Proof.Machine
end

