-- ==== Sys2Proof/Machine/CellMemory.lean ====
section
/-! DEFINITION. The tile-window loads and stores of cells, owner cells and updates, and ordering tokens (R213 to
R219). -/

namespace Sys2Proof.Machine

/-- The offset an element has in a lane: UInt32 of bits [31:0] (R213). DEDUCED (log 39). -/
def State.laneOff (s : State) (fr : Firing) (v i : Nat) : Nat := (s.srcLane fr v i).toNat % 2 ^ 32

/-- The first failing element of an LDS or STS (R213, R414): every lane is checked before any is performed. -/
def State.laneFail (s : State) (fr : Firing) (n : Nat) (write : Bool) : Option (Nat × Nat) :=
  fr.lanes.findSome? (fun i => s.elementFail fr.t (s.laneOff fr fr.f.srcA i) n write)

/-- A load of n bytes in each executing lane, its result formed from the bytes' number (R213). -/
def ldsOp (op : Nat) (f : CellF) (n : Nat) (g : Nat → Fw) : State → Out :=
  fire op f (fun s fr =>
    match s.laneFail fr n false with
    | some (e, off) => s.cellTrap fr e 0 0 (ownTileAddr off)
    | none =>
      s.quiet fr (fun u => u.emit fr (mkToken
        (fun i => g (s.readWord (keysFrom (tileKey fr.t (s.laneOff fr f.srcA i)) n))) fr.exec fr.tag false)))

/-- LDS.I (R213): widths s8, u8, s16, u16 and w32. -/
def execLdsI (f : CellF) : State → Out :=
  match f.srcB with
  | 0 => ldsOp 0x90 f 1 (fun v => intFw (sext32 8 v))
  | 1 => ldsOp 0x90 f 1 intFw
  | 2 => ldsOp 0x90 f 2 (fun v => intFw (sext32 16 v))
  | 3 => ldsOp 0x90 f 2 intFw
  | _ => ldsOp 0x90 f 4 intFw

/-- LDS.F (R213, R69): bits [39:0] of the container, unchanged. -/
def execLdsF (f : CellF) : State → Out := ldsOp 0x91 f 8 (fun v => BitVec.ofNat 40 v)

/-- A store of n bytes of b in each executing lane, in increasing lane order (R213, R214). -/
def stsOp (op : Nat) (f : CellF) (n : Nat) : State → Out :=
  fire op f (fun s fr =>
    match s.laneFail fr n true with
    | some (e, off) => s.cellTrap fr e 0 0 (ownTileAddr off)
    | none =>
      s.quiet fr (fun u => fr.lanes.foldl (fun u i =>
        u.writeKeys (keysFrom (tileKey fr.t (s.laneOff fr f.srcA i)) n) (leBytes n (s.srcLane fr f.srcB i).toNat)) u))

/-- STS.I (R213): 1, 2 or 4 bytes. -/
def execStsI (f : CellF) : State → Out :=
  match f.dstA with
  | 0 => stsOp 0x92 f 1
  | 1 => stsOp 0x92 f 2
  | _ => stsOp 0x92 f 4

/-- STS.F (R213): an FW40 container, bits [63:40] zero. -/
def execStsF (f : CellF) : State → Out := stsOp 0x93 f 8

/-! ### Owner cells -/

/-- The element of an update form (R216). -/
def updBytes (op : UpdOp) : Nat := if op = .fadd then 8 else 4

/-- Why a UPD stops (R216): the first of the three causes that some lane meets, and that lane's offset. -/
def State.updFail (s : State) (fr : Firing) (n : Nat) : Option (Nat × Nat) :=
  let offs := fr.lanes.map (s.laneOff fr fr.f.srcA)
  match offs.find? (fun o => decide (0x180000 ≤ o)) with
  | some o => some (0x11, o)
  | none =>
    match offs.find? (fun o => o % n != 0) with
    | some o => some (0x13, o)
    | none =>
      (offs.find? (fun o => match s.ownerOf fr.t o n with
        | some (_, e) => e.closing
        | none => true)).map (fun o => (0x07, o))

/-- A UPD form (R216, R218): one update per executing lane goes to the cell's update output (R424); the entry for its
old values is reserved. With no executing lane it makes no access (R180). -/
def updOp (code : Nat) (op : UpdOp) (f : CellF) : State → Out :=
  fire code f (fun s fr =>
    match s.updFail fr (updBytes op) with
    | some (e, off) => s.cellTrap fr e 0 0 (if e = 0x07 then 0 else ownTileAddr off)
    | none =>
      if fr.exec = 0 then s.quiet fr (fun u => u.emit fr (mkToken (fun _ => 0) 0 fr.tag false))
      else
        let id := s.newId
        let us := fr.lanes.map (fun i =>
          ({ op := op, addr := s.laneOff fr f.srcA i, val := s.srcLane fr f.srcB i, src := fr.t * 64 + fr.c,
             firing := id.1, lane := i } : Update))
        let lq := if f.dstA = 31 then none else some (f.dstA - 12)
        let p : PendUpd := { id := id.1, lq := lq, left := us.length, tok := mkToken (fun _ => 0) fr.exec fr.tag false }
        id.2.quiet fr (fun u => u.updCell fr.t fr.c (fun x =>
          let x := { x with updOut := x.updOut ++ us, pendUpd := x.pendUpd ++ [p] }
          match lq with
          | none => x
          | some q => { x with lq := x.lq.upd q [] (fun l => l ++ [.reserved id.1]) })))

/-- UPD.ADD (R216). -/
def execUpdAdd (f : CellF) : State → Out := updOp 0x94 .add f
/-- UPD.FADD (R216). -/
def execUpdFadd (f : CellF) : State → Out := updOp 0x95 .fadd f
/-- UPD.MIN (R216). -/
def execUpdMin (f : CellF) : State → Out := updOp 0x96 .min f
/-- UPD.MAX (R216). -/
def execUpdMax (f : CellF) : State → Out := updOp 0x97 .max f
/-- UPD.OR (R216). -/
def execUpdOr (f : CellF) : State → Out := updOp 0x98 .or f
/-- UPD.TAS (R216). -/
def execUpdTas (f : CellF) : State → Out := updOp 0x99 .tas f

/-- Why a claim stops (R215): reserved value, alignment, conflict, or a byte outside one SCRATCH bank. -/
def State.claimFail (s : State) (t w : Nat) : Nat :=
  let words := fld w 34 21
  let base := fld w 20 0
  let n := 8 * words
  if fld w 36 35 != 0 || words == 0 then 0x03
  else if base % 8 != 0 then 0x13
  else if ((s.tile t).owners.find? (fld w 38 37)).isSome ||
      (s.tile t).owners.anyP (fun _ e => decide (e.base < base + n) && decide (base < e.base + 8 * e.words)) then 0x07
  else
    match s.scratchRange t base n with
    | .error e => e
    | .ok _ => if base / 0x20000 = (base + n - 1) / 0x20000 then 0 else 0x12

/-- OWN (R215): a claim takes an entry of the tile's directory in the firing; a release marks it closing and frees it
once no update to its range is in flight. Claims name the cell, so they persist across context switches. -/
def execOwn (f : CellF) : State → Out :=
  fire 0x9A f (fun s fr =>
    let w := (s.srcLane fr f.srcA 0).toNat
    let e := fld w 38 37
    if bitOf w 39 then
      let code := s.claimFail fr.t w
      if code != 0 then s.cellTrap fr code 0 0 (if code < 0x10 then 0 else ownTileAddr (fld w 20 0))
      else
        s.quiet fr (fun u => u.updTile fr.t (fun x =>
          { x with owners := x.owners.set e { cell := fr.c, base := fld w 20 0, words := fld w 34 21, closing := false } }))
    else if fld w 36 35 != 0 then s.cellTrap fr 0x03 0 0 0
    else
      match (s.tile fr.t).owners.find? e with
      | some o =>
        if o.cell = fr.c then
          s.quiet fr (fun u => (u.updTile fr.t (fun x =>
            { x with owners := x.owners.set e { o with closing := true } })).freeClosing fr.t)
        else s.cellTrap fr 0x07 0 0 0
      | none => s.cellTrap fr 0x07 0 0 0)

/-- ORDT (R219): the token goes out at once where every earlier memory firing has been performed, and otherwise by
ORDERING_TOKEN_EMIT, its space reserved. DEDUCED (log 66). -/
def execOrdt (f : CellF) : State → Out :=
  fire 0x9B f (fun s fr =>
    if fr.x.openMemory.isEmpty && fr.x.pendOrdt.isEmpty then
      s.quiet fr (fun u => u.emit fr (mkToken (fun _ => 0) 0 fr.tag false))
    else
      s.quiet fr (fun u => u.updCell fr.t fr.c (fun x =>
        { x with pendOrdt := x.pendOrdt ++ [{ dsts := fr.dsts, tag := fr.tag, waits := x.openMemory }] })))

end Sys2Proof.Machine
end

