-- ==== Sys2Proof/Machine/Hash.lean ====
section
/-! DEFINITION. The named functions of the manual: CRC-32C (R125), Philox4x32-10 (R294, log 12), SHAKE256-256 (R382 to
R384, log 13) and the signatures of XMSS-SHAKE256_20_256 (R11, R383, log 108). -/

namespace Sys2Proof.Machine

/-- Eight steps of the reflected Castagnoli division. -/
def crcSteps : Nat → BitVec 32 → BitVec 32
  | 0, c => c
  | n + 1, c => crcSteps n (if c.getLsbD 0 then (c >>> 1) ^^^ 0x82F63B78#32 else c >>> 1)

/-- CRC-32C (R125). -/
def crc32c (l : List Byte) : BitVec 32 :=
  (l.foldl (fun c b => crcSteps 8 (c ^^^ b.setWidth 32)) 0xFFFFFFFF#32) ^^^ 0xFFFFFFFF#32

/-- One round of Philox4x32 (log 12). PRESUMED (log 12). -/
def philoxRound (c : BitVec 32 × BitVec 32 × BitVec 32 × BitVec 32) (k0 k1 : BitVec 32) :
    BitVec 32 × BitVec 32 × BitVec 32 × BitVec 32 :=
  let (c0, c1, c2, c3) := c
  let p0 : BitVec 64 := c0.setWidth 64 * 0xD2511F53#64
  let p1 : BitVec 64 := c2.setWidth 64 * 0xCD9E8D57#64
  ((p1 >>> 32).setWidth 32 ^^^ c1 ^^^ k0, p1.setWidth 32, (p0 >>> 32).setWidth 32 ^^^ c3 ^^^ k1, p0.setWidth 32)

/-- Rounds of Philox with the key bumped between them (log 12). -/
def philoxRounds : Nat → BitVec 32 × BitVec 32 × BitVec 32 × BitVec 32 → BitVec 32 → BitVec 32 →
    BitVec 32 × BitVec 32 × BitVec 32 × BitVec 32
  | 0, c, _, _ => c
  | n + 1, c, k0, k1 => philoxRounds n (philoxRound c k0 k1) (k0 + 0x9E3779B9#32) (k1 + 0xBB67AE85#32)

/-- Philox4x32-10 of a 64-bit key and four counter words (R294, log 12). PRESUMED (log 12). -/
def philox (key : Word) (c0 c1 c2 c3 : BitVec 32) : List (BitVec 32) :=
  let r := philoxRounds 10 (c0, c1, c2, c3) (key.setWidth 32) ((key >>> 32).setWidth 32)
  [r.1, r.2.1, r.2.2.1, r.2.2.2]

/-- Rotation offsets of Keccak by lane x + 5y (log 13). -/
def keccakRot : List Nat :=
  [0, 1, 62, 28, 27, 36, 44, 6, 55, 20, 3, 10, 43, 25, 39, 41, 45, 15, 21, 8, 18, 2, 61, 56, 14]

/-- The next state of the eight-bit register that gives Keccak's round constants (log 13). -/
def keccakLfsr (r : Nat) : Nat := if r ≥ 128 then (2 * r % 256) ^^^ 0x71 else 2 * r

/-- The round constant whose register starts at r, and the register after it (log 13). -/
def keccakRc (r : Nat) : Word × Nat :=
  (List.range 7).foldl (fun (c, r) j =>
    (if r % 2 = 1 then c ^^^ wd (2 ^ (2 ^ j - 1)) else c, keccakLfsr r)) ((0 : Word), r)

/-- One round of Keccak-f[1600] on 25 lanes (log 13). PRESUMED (log 13). -/
def keccakRound (a : List Word) (rc : Word) : List Word :=
  let at_ (l : List Word) (x y : Nat) : Word := l.getD (x % 5 + 5 * (y % 5)) 0
  let c := (List.range 5).map (fun x => at_ a x 0 ^^^ at_ a x 1 ^^^ at_ a x 2 ^^^ at_ a x 3 ^^^ at_ a x 4)
  let t := (List.range 25).map (fun i =>
    at_ a (i % 5) (i / 5) ^^^ (c.getD ((i % 5 + 4) % 5) 0 ^^^ (c.getD ((i % 5 + 1) % 5) 0).rotateLeft 1))
  let b := (List.range 25).map (fun i =>
    let x := i % 5
    let y := i / 5
    let sx := (x + 3 * y) % 5
    (at_ t sx x).rotateLeft (keccakRot.getD (sx + 5 * x) 0))
  (List.range 25).map (fun i =>
    let x := i % 5
    let y := i / 5
    let v := at_ b x y ^^^ ((~~~ at_ b (x + 1) y) &&& at_ b (x + 2) y)
    if i = 0 then v ^^^ rc else v)

/-- n rounds of Keccak-f[1600] (log 13). -/
def keccakRounds : Nat → Nat → List Word → List Word
  | 0, _, a => a
  | n + 1, r, a =>
    let k := keccakRc r
    keccakRounds n k.2 (keccakRound a k.1)

/-- SHAKE256-256, whose output is 32 bytes (R384, log 13). PRESUMED (log 13). -/
def shake256 (msg : List Byte) : List Byte :=
  let padLen := 136 - msg.length % 136
  let pad : List Byte :=
    if padLen = 1 then [0x9F#8] else 0x1F#8 :: List.replicate (padLen - 2) 0#8 ++ [0x80#8]
  let blocks := chunksOf 136 (msg ++ pad)
  let st := blocks.foldl (fun a b =>
    let ws := wordsOf b
    keccakRounds 24 1 (a.zipIdx.map (fun p => p.1 ^^^ ws.getD p.2 0))) (List.replicate 25 0)
  (bytesOf st).take 32

/-! ### XMSS-SHAKE256_20_256 (R11, R383, log 108) -/

/-- A number in big-endian bytes. -/
def beBytes (len n : Nat) : List Byte := (leBytes len n).reverse

/-- The exclusive or of two byte strings. -/
def xorBytes (a b : List Byte) : List Byte := (a.zip b).map (fun q => q.1 ^^^ q.2)

/-- A hash address (log 108): its type, three words and keyAndMask; layer and tree are zero. -/
structure XAddr where
  kind : Nat
  a : Nat
  b : Nat
  c : Nat
  km : Nat := 0
  deriving DecidableEq, Repr, Inhabited

/-- The 32 bytes of a hash address. -/
def XAddr.bytes (x : XAddr) : List Byte :=
  beBytes 12 0 ++ beBytes 4 x.kind ++ beBytes 4 x.a ++ beBytes 4 x.b ++ beBytes 4 x.c ++ beBytes 4 x.km

/-- The keyed functions (log 108): n is 0 for F, 1 for H, 2 for H_msg, 3 for PRF and 4 for PRF_keygen. PRESUMED (log 108). -/
def xHash (n : Nat) (key msg : List Byte) : List Byte := shake256 (beBytes 32 n ++ key ++ msg)

/-- PRF of a public seed and an address. -/
def XAddr.prf (x : XAddr) (seed : List Byte) (km : Nat) : List Byte := xHash 3 seed { x with km := km }.bytes

/-- n steps of a chain from step i on (log 108). -/
def wotsChain (seed : List Byte) (x : XAddr) : Nat → Nat → List Byte → List Byte
  | 0, _, v => v
  | n + 1, i, v =>
    let x := { x with c := i }
    wotsChain seed x n (i + 1) (xHash 0 (x.prf seed 0) (xorBytes v (x.prf seed 1)))

/-- The 67 digits in base 16 of a 32-byte message and of its checksum (log 108). -/
def wotsDigits (m : List Byte) : List Nat :=
  let d := m.flatMap (fun b => [b.toNat / 16, b.toNat % 16])
  let c := (d.map (fun x => 15 - x)).sum
  d ++ [c / 256 % 16, c / 16 % 16, c % 16]

/-- The hash of two nodes (log 108). -/
def randHash (seed : List Byte) (x : XAddr) (l r : List Byte) : List Byte :=
  xHash 1 (x.prf seed 0) (xorBytes l (x.prf seed 1) ++ xorBytes r (x.prf seed 2))

/-- One level of an L-tree, from its node i on (log 108). -/
def ltreeLevel (seed : List Byte) (idx height : Nat) : List (List Byte) → Nat → List (List Byte)
  | a :: b :: l, i => randHash seed { kind := 1, a := idx, b := height, c := i } a b :: ltreeLevel seed idx height l (i + 1)
  | l, _ => l

/-- The root of the L-tree of a one-time public key of 67 strings (log 108). -/
def ltree (seed : List Byte) (idx : Nat) (pk : List (List Byte)) : List Byte :=
  ((List.range 7).foldl (fun l h => ltreeLevel seed idx h l 0) pk).headD []

/-- String j of the one-time secret key of leaf i (log 108). PRESUMED (log 108). -/
def wotsSecret (sk seed : List Byte) (i j : Nat) : List Byte :=
  xHash 4 sk (seed ++ { kind := 0, a := i, b := j, c := 0 : XAddr }.bytes)

/-- A node of the hash tree of a secret key (log 108). -/
def xmssNode (sk seed : List Byte) : Nat → Nat → List Byte
  | 0, i =>
    ltree seed i ((List.range 67).map (fun j => wotsChain seed { kind := 0, a := i, b := j, c := 0 } 15 0 (wotsSecret sk seed i j)))
  | h + 1, i =>
    randHash seed { kind := 2, a := 0, b := h, c := i } (xmssNode sk seed h (2 * i)) (xmssNode sk seed h (2 * i + 1))

/-- The digest that a signature signs (log 108). -/
def xmssDigest (r root : List Byte) (idx : Nat) (msg : List Byte) : List Byte := xHash 2 (r ++ root ++ beBytes 32 idx) msg

/-- The signature of a message under leaf idx of a tree of height h: the index, the randomizer, the one-time signature and the
path to the root (R383, log 108). PRESUMED (log 108). -/
def xmssSign (h : Nat) (sk prf seed : List Byte) (idx : Nat) (msg : List Byte) : List Byte :=
  let r := xHash 3 prf (beBytes 32 idx)
  let d := xmssDigest r (xmssNode sk seed h 0) idx msg
  beBytes 4 idx ++ r ++
    ((wotsDigits d).zipIdx.flatMap (fun q =>
      wotsChain seed { kind := 0, a := idx, b := q.2, c := 0 } q.1 0 (wotsSecret sk seed idx q.2))) ++
    ((List.range h).flatMap (fun k => xmssNode sk seed k ((idx / 2 ^ k) ^^^ 1)))

/-- A public key: the number of the parameter set, the root and the public seed (log 108). PRESUMED (log 108). -/
def xmssPublic (h : Nat) (sk seed : List Byte) : List Byte := beBytes 4 0x12 ++ xmssNode sk seed h 0 ++ seed

/-- Whether a signature of a message verifies against a public key, for a tree of height h (R382, R383, log 108).
PRESUMED (log 108). -/
def xmssVerify (h : Nat) (key msg sig : List Byte) : Bool :=
  let root := (key.drop 4).take 32
  let seed := (key.drop 36).take 32
  let idx := leNat (sig.take 4).reverse
  let d := xmssDigest ((sig.drop 4).take 32) root idx msg
  let part (k : Nat) : List Byte := (sig.drop (36 + 32 * k)).take 32
  let pk := (wotsDigits d).zipIdx.map (fun q =>
    wotsChain seed { kind := 0, a := idx, b := q.2, c := 0 } (15 - q.1) q.1 (part q.2))
  let node := (List.range h).foldl (fun v k =>
    let x : XAddr := { kind := 2, a := 0, b := k, c := idx / 2 ^ (k + 1) }
    if idx / 2 ^ k % 2 = 0 then randHash seed x v (part (67 + k)) else randHash seed x (part (67 + k)) v) (ltree seed idx pk)
  sig.length == 2180 + 32 * h && key.take 4 == beBytes 4 0x12 && decide (idx < 2 ^ h) && node == root

end Sys2Proof.Machine
end

