-- ==== Sys2Proof/Machine/Commit.lean ====
section
/-! DEFINITION. The commit of a block (R53, R235, R236): the checks made at commit, the stores and atomics in LSID
order, then the commit-class effects in body order. -/

namespace Sys2Proof.Machine

/-! ### Stores and atomics -/

def PStore.lsid : PStore → Nat
  | .store l .. => l
  | .amo l .. => l
  | .fenRel l .. => l
  | .fenAcq l .. => l

def PStore.pos : PStore → Nat
  | .store _ p .. => p
  | .amo _ p .. => p
  | .fenRel _ p _ => p
  | .fenAcq _ p _ => p

/-- Keys a held store or atomic writes. -/
def PStore.keys : PStore → List Nat
  | .store _ _ a w .. => keysFrom a w
  | .amo _ _ a w .. => keysFrom a w
  | .fenRel .. => []
  | .fenAcq .. => []

/-- The effective address of a held store or atomic (R404). -/
def PStore.ea : PStore → Word
  | .store _ _ _ _ _ _ e => e
  | .amo _ _ _ _ _ _ _ _ _ _ e => e
  | .fenRel .. => 0
  | .fenAcq .. => 0

/-- Insert by LSID. -/
def insertStore (x : PStore) : List PStore → List PStore
  | [] => [x]
  | y :: ys => if y.lsid ≤ x.lsid then y :: insertStore x ys else x :: y :: ys

/-- Held stores in increasing LSID order, body order within one LSID (R235). -/
def lsidOrder (l : List PStore) : List PStore := l.foldl (fun acc x => insertStore x acc) []

/-- The bytes a load sees: the block's own stores of lower LSID where they overlap it, memory elsewhere (R53, R243).
DEDUCED (log 30). -/
def forward (stores : List PStore) (l : Nat) (k : Nat) (b : Byte) : Byte :=
  (lsidOrder stores).foldl (fun b p =>
    match p with
    | .store ls _ a w v _ _ => if ls < l ∧ a ≤ k ∧ k < a + w then (leBytes w v.toNat).getD (k - a) b else b
    | _ => b) b

/-- AmoEffect of R245 on values of `bytes` bytes: the new value, if one is written, and the sign-extended old value. -/
def amoEffect (op : AmoOp) (bytes : Nat) (x rb old : Nat) : Option Nat × Word :=
  let w := 8 * bytes
  let m := 2 ^ w
  let x := x % m
  let rb := rb % m
  let old := old % m
  let sx := signed w x
  let sr := signed w rb
  let new := match op with
    | .add => (x + rb) % m
    | .min => if sr < sx then rb else x
    | .max => if sx < sr then rb else x
    | .and => x &&& rb
    | .or => x ||| rb
    | .xor => x ^^^ rb
    | .xchg => rb
    | .cas => if x = old then rb else x
  let writes := match op with
    | .cas => x == old
    | _ => true
  (if writes then some new else none, BitVec.ofInt 64 sx)

/-- Whether a key lies in a tile store. -/
def inTileStore (k : Nat) : Bool := decide (tileBase ≤ k) && decide (k < 2 ^ 64)

/-- Whether a key lies in a remote package that does not answer now: no trained port leads to it, or the packet is lost (R445). -/
def State.remoteLost (s : State) (k : Nat) : Bool :=
  decide (2 ^ 51 ≤ k) && decide (k < 2 ^ 52) &&
  (!s.pkgReachable (fld k 50 43) || s.dev.dropMarks.contains (fld k 50 43, s.sched.moves))

/-- Whether a held store can still be performed: its bank has not left its mode since (R421), its remote package answers (R445) and
no granule that it covers only in part is bad (R419). The code of R412, or 0. -/
def State.storeCode (s : State) (t : Nat) (p : PStore) : Nat :=
  let ks := p.keys
  let closed := ks.any (fun k =>
    inTileStore k && !s.windowByteOk ((k - tileBase) / 2 ^ 21) ((k - tileBase) % 2 ^ 21))
  if closed then 0x12
  else if ks.any s.remoteLost then 0x0D
  else
    match p with
    | .store .. => if s.tileWriteBad t ks then 0x1D else 0
    | .amo .. => if s.badRead ks || s.cachedBad t (ks.headD 0) then 0x1D else 0
    | .fenRel .. => 0
    | .fenAcq .. => 0

/-- A tile-cache action of a release or acquire applies from die scope on (R141). -/
def State.releaseAt (s : State) (t scope : Nat) : State := if scope ≥ 1 then s.cacheRelease t else s
def State.acquireAt (s : State) (t scope : Nat) : State := if scope ≥ 1 then s.cacheFlush t else s

/-- Perform one held store or atomic of instance `inst` (R141, R243 to R245): an atomic's old value reaches rd. From die scope
on a releasing store goes through to the home die cache, so that an acquire of its scope can read it (R134, R141; log 119). The
acquire fence is made again, for the AMOs of lower LSID (R133). DEDUCED (log 119). -/
def State.performStore (s : State) (t inst : Nat) (p : PStore) : State :=
  match p with
  | .store _ _ a w v rel _ =>
    let put (s : State) : State := s.tileWrite t (keysFrom a w) (leBytes w v.toNat)
    match rel with
    | some scope => if scope ≥ 1 then (put (s.cacheRelease t)).cacheClean t else put s
    | none => put s
  | .amo _ _ a w op ord scope rd rb old _ =>
    let s := if ord ≥ 2 then s.releaseAt t scope else s
    let s := s.cacheEvict t a
    let ks := keysFrom a w
    let e := amoEffect op w (s.readWord ks) rb.toNat old.toNat
    let s := match e.1 with
      | some n => s.writeKeys ks (leBytes w n)
      | none => s
    let s := if ord % 2 = 1 then s.acquireAt t scope else s
    s.updCore t (fun c => { c with insts := c.insts.upd inst default (fun i => { i with g := i.g.set rd e.2 }) })
  | .fenRel _ _ scope => s.releaseAt t scope
  | .fenAcq _ _ scope => s.acquireAt t scope

/-! ### Commit-class effects -/

/-- Whether an effect tells another agent of the block's commit, so that the tile's dirty bytes are written back
first (R135). -/
def Effect.tells : Effect → Bool
  | .send .. => true
  | .sendBo .. => true
  | .spawn .. => true
  | .rfwd .. => true
  | .sysc .. => true
  | _ => false

/-- Apply a write to a system register that takes effect at commit (R234, R269). -/
def State.writeCsr (s : State) (t slot c : Nat) (v : Word) : State :=
  if c = 0x10 then s.updOpr t slot (fun o => { o with traptag := v &&& 0x7F })
  else if 0x80 ≤ c ∧ c ≤ 0x87 then
    s.updOpr t slot (fun o => { o with agstat := o.agstat.upd (c - 0x80) 0 (fun x => x &&& ~~~ v) })
  else if 0x90 ≤ c ∧ c ≤ 0x97 then s.hfSet t slot (c - 0x90) v.toNat
  else if 0x200 ≤ c ∧ c ≤ 0x23F then
    let m := (c - 0x200) / 8
    let w := (c - 0x200) % 8
    s.updOpr t slot (fun o => { o with m := o.m.upd m 0 (fun x =>
      (x &&& ~~~ ((0xFFFFFFFFFFFFFFFF#512) <<< (64 * w))) ||| ((v.setWidth 512) <<< (64 * w))) })
  else s

/-- Send a control token to each cell of a tile whose control input is bound to a loop-control body (R58, R163). -/
def State.lcuRelease (s : State) (t body : Nat) (v : Bool) : State :=
  (List.range 64).foldl (fun s c =>
    let x := s.cellAt t c
    let r2 := (x.ctxs.getD x.active {}).r2
    let hit (lo : Nat) : Bool := r2.getLsbD (lo + 8) && r2.getLsbD (lo + 7) && r2.fld (lo + 1) lo == body
    let put (i : Nat) (s : State) : State :=
      s.updCell t c (fun x => { x with ci := x.ci.upd i [] (fun l => l ++ [v]) })
    let s := if hit 0 then put 0 s else s
    if hit 9 then put 1 s else s) s

/-- Start a loop-control body (R58, R234): a running body and a count of 0 change nothing. The first release is made
by LCU_RELEASE. -/
def State.lcuStart (s : State) (t slot body set : Nat) (v : Word) : State :=
  let n := v.fld 31 0
  let b := ((s.tile t).oprAt slot).lcu.getD body {}
  if b.running || n = 0 then s
  else s.updOpr t slot (fun o =>
    { o with lcu := o.lcu.set body (({ b with running := true, count := n, released := 0, done := {}, set := set } : LcuBody)) })

/-- Start a sweep of a tile's region (R63, R229). -/
def State.startSweep (s : State) (anchor ctx : Nat) (carry : Bool) : State :=
  s.updRegion anchor (fun r => { r with sweeps := r.sweeps ++ [{ ctx := ctx, carry := carry, start := s.clk.cycle }] })

/-- Unblock a tag or block it (R56). -/
def Core.setBlocked (c : Core) (t : Nat) (b : Bool) : Core :=
  { c with blocked := if b then c.blocked ||| wd (2 ^ t) else c.blocked &&& ~~~ wd (2 ^ t) }

/-- The record SPAWN sends (R247): the fields the device writes, over what software supplied. -/
def spawnRecord (p : Placement) (parentTile parentSet : Nat) (r : TokenRec) : TokenRec :=
  { r with
    h0 := ((r.h0.put 63 58 p.vi).put 57 46 p.job).put 45 44 p.cls
    h1 := (r.h1.put 47 36 parentTile).put 35 32 parentSet
    rw := ((r.rw.put 63 56 0).put 55 52 0).put 47 45 0 }

/-- Offset of an own-tile window address of n bytes that lies in SCRATCH banks or live arrays of tile t (R247). -/
def State.ownArray (s : State) (t pk : Nat) (a : Word) (n : Nat) : Option Nat :=
  if a.fld 63 57 = 0x7F ∧ a.fld 56 32 = 0 ∧ s.tileSel t pk (a.fld 31 21) = some t then
    match s.windowRange t (a.fld 20 0) n a with
    | .ok _ => some (a.fld 20 0)
    | .error _ => none
  else none

/-- Word H1 of the record at an offset of a tile's own store (R33, R247). -/
def State.spawnH1 (s : State) (t ro : Nat) : Word := wd (leNat (s.mem.getN (tileKey t (ro + 8)) 8))

/-- Whether the record and the payload that a SPAWN sends lie where R247 asks; a record without payload needs none. A reserved
payload format is refused (R68), as a SPAWN array is. DESIGN CHOICE (log 106). -/
def State.spawnOk (s : State) (t pk ro : Nat) (gp : Word) : Bool :=
  let h := s.spawnH1 t ro
  let n := h.fld 63 52
  (match s.windowRange t ro 128 (ownTileAddr ro) with
   | .ok _ => true
   | .error _ => false) &&
  fmtAssigned (h.fld 51 48) && (n == 0 || (s.ownArray t pk gp (64 * n)).isSome)

/-- The record that a SPAWN sends, once the block's stores are performed (R247): its payload lies at the offset of its address. -/
def State.spawned (s : State) (t set ro : Nat) (gp : Word) (p : Placement) : Rec :=
  let r := spawnRecord p t set (recOfBytes (s.mem.getN (tileKey t ro) 128))
  s.enterStage { r := r, pay := s.mem.getN (tileKey t (gp.fld 20 0)) (64 * r.lines) }

/-- Apply one commit-class effect of the block of an instance (R235, R246 to R249, R264 to R269). An ERET names no instance of
another VI's operator (R26). -/
def State.applyEffect (s : State) (t : Nat) (inst : Nat) (i : Inst) (e : Effect) : State :=
  let slot := keySlot i.pk
  match e with
  | .kst k v => s.updCore t (fun c => { c with k := c.k.upd i.set {} (fun m => m.set k v) })
  | .blkt g => s.updCore t (fun c => c.setBlocked g true)
  | .ublkt g => s.updCore t (fun c => c.setBlocked g false)
  | .send tt g m => s.arrive tt g 2 m t inst i.set
  | .sendBo tt b n => s.boAdd tt slot b n
  | .boset b tag target clr =>
    s.updOpr t slot (fun o => { o with bo := o.bo.upd b {} (fun x =>
      let x := if clr then { x with count := 0, raw := 0, took := 0 } else x
      { x with target := target, tag := tag, armed := false }) })
  | .boarm b =>
    (s.updOpr t slot (fun o => { o with bo := o.bo.upd b {} (fun x => { x with armed := true, set := i.set }) })).boCheck
      t slot b
  | .spawn idx ro gp =>
    match s.places.find? i.pk with
    | none => s
    | some p =>
      let rc := s.spawned t (setIdx i.set) ro gp p
      let s := match s.setGroup i.set with
        | some g => s.updRg g.1 (fun g => { g with join := g.join + 1 })
        | none => s
      s.sendTo rc idx t (some p)
  | .join g =>
    match s.setGroup i.set with
    | some rg => (s.updRg rg.1 (fun x => { x with joinTag := some (t, g) })).joinCheck rg.1
    | none => s
  | .rfwd row retire =>
    match s.setGroup i.set with
    | none => s
    | some (id, g) =>
      if retire then s.retireRow id row
      else
        match s.places.find? g.pk with
        | none => s
        | some p =>
          let rc := s.rowRecord g row
          let h := nextHop rc.r (s.parOf p).successor
          let rc' : Rec := { rc with r := carried (s.carryOf g) h.2 }
          let flagged := rwEjected rc.r.rw || rwNoAdmissible rc.r.rw || rwIncomplete rc.r.rw
          let s := s.updRg id (fun g => { g with fwdAt := g.fwdAt.set row s.clk.cycle })
          (if flagged then s.toException rc' t (some p)
           else s.sendTo (if g.stages.find? row = some rc.r.stage then rc' else s.enterStage rc') h.1 t (some p)).rowLeave id row
  | .eqw n v =>
    s.updOpr t slot (fun o =>
      { o with eq := o.eq.set n v, queues := o.queues.upd n {} (fun q => { q with epoch := q.epoch + 1 }) })
  | .eqwPort n m =>
    s.updOpr t slot (fun o => { o with ports := (List.range 64).foldl (fun p c =>
      if m.getLsbD c then p.set c n else p) o.ports })
  | .csrw c v => s.writeCsr t slot c v
  | .lcugo b v => s.lcuStart t slot b i.set v
  | .csweept v =>
    if keyAnchor i.pk = t then s.startSweep t (v.fld 1 0) (v.getLsbD 2) else s
  | .thold g time =>
    if time.toNat ≤ s.clk.time.toNat then s.arrive t g 8 s.clk.time t 0 i.set
    else s.updCore t (fun c => { c with tholds := c.tholds ++ [{ time := time, tag := g, set := i.set, pk := i.pk }] })
  | .sysc code g v =>
    { s with syscs := s.syscs ++ [{ tile := t, pk := i.pk, set := i.set, tag := g, code := code, val := v }] }
  | .eret n abort =>
    match (s.core t).insts.find? n with
    | none => s
    | some x =>
      if x.status == .trapped && s.placeVi x.pk == s.placeVi i.pk then
        if abort then
          let s := s.updCore t (fun c => { c with insts := c.insts.erase n })
          match s.setGroup x.set with
          | some g => s.tryFree g.1
          | none => s
        else s.updCore t (fun c => { c with insts := c.insts.set n { x with status := .ready } })
      else s

/-- Rows that a block's RFWDs name and that have left their group since (R249, R395): the word of the first. -/
def State.rfwdLost (s : State) (t : Nat) (r : BlockRun) : List Nat :=
  r.effects.filterMap (fun e =>
    match e.2 with
    | .rfwd row _ =>
      match s.setGroup (s.instOf t r).set with
      | some g => if g.2.liveRows.contains row then none else some e.1
      | none => some e.1
    | _ => none)

/-- The stores and atomics of a block, performed in LSID order (R235). -/
def State.stored (s : State) (t : Nat) (r : BlockRun) : State :=
  (lsidOrder r.stores).foldl (fun s p => s.performStore t r.inst p) s

/-- A failure found at commit: its code, LSID, body position, address and the detail of R413 (R236, R404). -/
structure CommitFail where
  code : Nat
  lsid : Nat := 0x3F
  pos : Nat
  ea : Word := 0
  detail : Nat := 0
  deriving DecidableEq, Repr, Inhabited

/-- What keeps a SPAWN from reading its arrays, in the state after the block's own stores and atomics: they do not lie where R247
asks or hold a reserved payload format (0x08), or they hold a granule with an uncorrectable error (R419). DESIGN CHOICE (log 106). -/
def State.spawnFail (s : State) (t pk pos ro : Nat) (gp : Word) : Option CommitFail :=
  match s.windowRange t ro 128 (ownTileAddr ro) with
  | .error _ => some { code := 8, pos := pos }
  | .ok _ =>
    if s.badRead (keysFrom (tileKey t ro) 128) then some { code := 0x1D, pos := pos, ea := ownTileAddr ro }
    else if !s.spawnOk t pk ro gp then some { code := 8, pos := pos }
    else if s.badRead (keysFrom (tileKey t (gp.fld 20 0)) (64 * (s.spawnH1 t ro).fld 63 52)) then
      some { code := 0x1D, pos := pos, ea := gp }
    else none

/-- What keeps an RFWD of tile t from sending its row on, in the state after the block's own stores and atomics: an uncorrectable error
in the row's record or payload array (R419), or a reserved payload format (R68). DESIGN CHOICE (log 106). -/
def State.rfwdFail (s : State) (t pos row : Nat) (g : RowGroup) (p : Placement) : Option CommitFail :=
  let rc := s.rowRecord g row
  let ro := g.base + 128 * row
  let po := g.pay + 64 * (s.parOf p).payload * row
  if s.badRead (keysFrom (tileKey g.home ro) 128) then some { code := 0x1D, pos := pos, ea := p.anchorAddr t ro }
  else if !fmtAssigned (rc.r.h1.fld 51 48) then some { code := 8, pos := pos }
  else if s.badRead (keysFrom (tileKey g.home po) rc.pay.length) then some { code := 0x1D, pos := pos, ea := p.anchorAddr t po }
  else none

/-- The records that a block may not send, after its own stores and atomics (R68, R247, R419): the failure of each word that would
read one. -/
def State.sendFailures (s : State) (t : Nat) (r : BlockRun) : List CommitFail :=
  let u := s.stored t r
  let i := s.instOf t r
  r.effects.filterMap (fun e =>
    match e.2 with
    | .spawn _ ro gp => u.spawnFail t i.pk e.1 ro gp
    | .rfwd row false =>
      match s.setGroup i.set with
      | none => none
      | some g => if g.2.liveRows.contains row then (s.places.find? g.2.pk).bind (u.rfwdFail t e.1 row g.2) else none
    | _ => none)

/-- The failures found at commit (R236, R404). -/
def State.commitFailures (s : State) (t : Nat) (r : BlockRun) : List CommitFail :=
  (r.stores.filterMap (fun p =>
    let c := s.storeCode t p
    if c = 0 then none
    else some { code := c, lsid := p.lsid, pos := p.pos, ea := p.ea, detail := if c = 0x0D then s.physDetail c (p.keys.headD 0) 0 else 0 })) ++
  (s.rfwdLost t r).map (fun p => { code := 8, pos := p }) ++ s.sendFailures t r

/-- The failure of lowest body position. -/
def lowestFailure (l : List CommitFail) : Option CommitFail :=
  l.foldl (fun a x => match a with
    | none => some x
    | some y => if x.pos < y.pos then some x else some y) none

/-- Whether a block forwards a row that was ejected in this very cycle: its commit falls in a later cycle, in which it traps
(R395). -/
def State.justEjected (s : State) (t : Nat) (r : BlockRun) : Bool :=
  !(s.rfwdLost t r).isEmpty &&
  (match s.setGroup (s.instOf t r).set with
   | some g => g.2.ejAt == some s.clk.cycle
   | none => false)

/-- The commit of a block whose exit has been taken (R53, R235). The instance continues at word `target` of the TASK
section, or ends (R241), which may free its set (R50). A check that fails at commit traps the block with nothing
performed (R236). -/
def State.commit (s : State) (t : Nat) (r : BlockRun) (target : Option Nat) : State :=
  if r.storeMask &&& ~~~ r.produced != 0 || r.writeMask &&& ~~~ r.written != 0 then s.trapHere t r 2
  else if s.justEjected t r then s
  else
    match lowestFailure (s.commitFailures t r) with
    | some f =>
      if f.code = 8 then s.blockTrap t r f.code 0 f.lsid (r.base + 3 + f.pos) f.ea
      else s.memoryTrap t r f.lsid (r.base + 3 + f.pos) ⟨f.code, f.ea, f.detail⟩
    | none =>
      let i := s.instOf t r
      let s := s.updCore t (fun c =>
        { c with run := none, insts := c.insts.set r.inst { i with g := r.g, block := target.getD i.block } })
      let s := s.stored t r
      let s := if r.effects.any (fun e => e.2.tells) then s.cacheRelease t else s
      let s := r.effects.foldl (fun s e => s.applyEffect t r.inst i e.2) s
      match target with
      | some _ => s
      | none =>
        let s := s.updCore t (fun c => { c with insts := c.insts.erase r.inst })
        match s.setGroup i.set with
        | some g => s.tryFree g.1
        | none => s

end Sys2Proof.Machine
end

