-- ==== Sys2Proof/Machine/TileMemory.lean ====
section
/-! DEFINITION. Loads, stores, acquires, releases, fences and atomics of the tile core (R243 to R245). -/

namespace Sys2Proof.Machine

/-- The VI of the operator an instance belongs to. -/
def State.viOf (s : State) (pk : Nat) : Nat :=
  match s.places.find? pk with
  | some p => p.vi
  | none => 0

/-- Check an access of the block's operator (R243): its keys, or the failure. DEDUCED (log 8). -/
def State.coreAccess (s : State) (t : Nat) (r : BlockRun) (a : Word) (n : Nat) (rd wr : Bool) :
    Res (List Nat) × State :=
  let pk := (s.instOf t r).pk
  s.resolveEa (coreUnit t) t pk (s.viOf pk) a n n rd wr

/-- A load of n bytes at an address: the value, or a trap; the tile cache serves it (R243). DEDUCED (log 30). -/
def loadOp (d l n : Nat) (addr : BlockRun → Word) (ext : Nat → Word) (after : Nat → State → State) (s : State) : Out :=
  withRun s (fun t r =>
    let ea := addr r
    match s.coreAccess t r ea n true false with
    | (.error e, s) => .next (s.trapAccess t r l e)
    | (.ok ks, s) =>
      match s.tileRead t ks with
      | (none, s) => .next (s.trapAccess t r l ⟨0x1D, ea, 0⟩)
      | (some b, s) =>
        let v := leNat ((ks.zip b).map (fun p => forward r.stores l p.1 p.2))
        .next ((after t s).putReg t r d (ext v)))

/-- A store of n bytes (R243): checked now, performed at commit. -/
def storeOp (v l n : Nat) (addr : BlockRun → Word) (rel : Option Nat) (s : State) : Out :=
  withRun s (fun t r =>
    let ea := addr r
    match s.coreAccess t r ea n false true with
    | (.error e, s) => .next (s.trapAccess t r l e)
    | (.ok ks, s) =>
      .next (s.produce t r l (fun r =>
        s.advance t { r with stores := r.stores ++ [.store l r.pos (ks.headD 0) n (r.reg v) rel ea] })))

/-- Sign extension of an n-byte value. -/
def sext (n v : Nat) : Word := BitVec.ofInt 64 (signed (8 * n) v)

/-- A load has no further effect. -/
def noAfter (_ : Nat) (s : State) : State := s

/-- Effective address of format M (R243). -/
def eaM (a i : Nat) (r : BlockRun) : Word := r.reg a + r.disp i

/-- Effective address of format MQ: a signed displacement in 8-byte units (R244). -/
def eaMq (a i : Nat) (r : BlockRun) : Word := r.reg a + BitVec.ofInt 64 (8 * signed 6 i)

def execLdB (d a l i : Nat) (s : State) : Out := loadOp d l 1 (eaM a i) (sext 1) noAfter s
def execLdH (d a l i : Nat) (s : State) : Out := loadOp d l 2 (eaM a i) (sext 2) noAfter s
def execLdW (d a l i : Nat) (s : State) : Out := loadOp d l 4 (eaM a i) (sext 4) noAfter s
def execLd (d a l i : Nat) (s : State) : Out := loadOp d l 8 (eaM a i) wd noAfter s
def execLdBu (d a l i : Nat) (s : State) : Out := loadOp d l 1 (eaM a i) wd noAfter s
def execLdHu (d a l i : Nat) (s : State) : Out := loadOp d l 2 (eaM a i) wd noAfter s
def execLdWu (d a l i : Nat) (s : State) : Out := loadOp d l 4 (eaM a i) wd noAfter s
def execStB (v a l i : Nat) (s : State) : Out := storeOp v l 1 (eaM a i) none s
def execStH (v a l i : Nat) (s : State) : Out := storeOp v l 2 (eaM a i) none s
def execStW (v a l i : Nat) (s : State) : Out := storeOp v l 4 (eaM a i) none s
def execSt (v a l i : Nat) (s : State) : Out := storeOp v l 8 (eaM a i) none s

/-- LD.ACQ (R141, R244): from die scope on, the tile cache is written back and invalidated after the read. -/
def execLdAcq (d a l c i : Nat) (s : State) : Out :=
  loadOp d l 8 (eaMq a i) wd (fun t s => s.acquireAt t c) s

/-- ST.REL (R141, R244). -/
def execStRel (v a l c i : Nat) (s : State) : Out := storeOp v l 8 (eaMq a i) (some c) s

/-- FEN.ACQ (R244) acts when it executes (R235), and once more at commit, for the reads of AMOs of lower LSID (R133 case 5). -/
def execFenAcq (l c : Nat) (s : State) : Out :=
  withRun s (fun t r => .next ((s.acquireAt t c).advance t { r with stores := r.stores ++ [.fenAcq l r.pos c] }))

/-- FEN.REL (R244) acts at commit, in its LSID position. -/
def execFenRel (l c : Nat) (s : State) : Out :=
  withRun s (fun t r => .next (s.advance t { r with stores := r.stores ++ [.fenRel l r.pos c] }))

/-- Whether every key lies in device-virtual memory or in a SCRATCH bank (R245). -/
def State.amoPlace (s : State) (ks : List Nat) : Bool :=
  ks.all (fun k => !inTileStore k ||
    ((s.tile ((k - tileBase) / 2 ^ 21)).bank ((k - tileBase) % 2 ^ 21 / 0x20000)).mode == .scratch)

/-- An AMO (R245): checked now for read and write, performed at commit. A later word of the block reads the value rd
held before the block, which is its working value, since rd is written once. -/
def amoOp (op : AmoOp) (q d a l b c w : Nat) (s : State) : Out :=
  withRun s (fun t r =>
    let ea := r.reg a
    let n := if w = 0 then 4 else 8
    match s.coreAccess t r ea n true true with
    | (.error e, s) => .next (s.trapAccess t r l e)
    | (.ok ks, s) =>
      if !s.amoPlace ks then .next (s.trapAccess t r l ⟨0x12, ea, 0⟩)
      else if s.badRead ks || s.cachedBad t (ks.headD 0) then .next (s.trapAccess t r l ⟨0x1D, ea, 0⟩)
      else
        .next (s.produce t r l (fun r =>
          s.markReg t { r with stores := r.stores ++ [.amo l r.pos (ks.headD 0) n op q c d (r.reg b) (r.reg d) ea] } d)))

def execAmoAdd (q d a l b c w : Nat) (s : State) : Out := amoOp .add q d a l b c w s
def execAmoMin (q d a l b c w : Nat) (s : State) : Out := amoOp .min q d a l b c w s
def execAmoMax (q d a l b c w : Nat) (s : State) : Out := amoOp .max q d a l b c w s
def execAmoAnd (q d a l b c w : Nat) (s : State) : Out := amoOp .and q d a l b c w s
def execAmoOr (q d a l b c w : Nat) (s : State) : Out := amoOp .or q d a l b c w s
def execAmoXor (q d a l b c w : Nat) (s : State) : Out := amoOp .xor q d a l b c w s
def execAmoXchg (q d a l b c w : Nat) (s : State) : Out := amoOp .xchg q d a l b c w s
def execAmoCas (q d a l b c w : Nat) (s : State) : Out := amoOp .cas q d a l b c w s

end Sys2Proof.Machine
end

