-- ==== Sys2Proof/Machine/TileTags.lean ====
section
/-! DEFINITION. Route tags, barrier objects and token records of the tile core (R56, R246 to R249), time and system
instructions (R234, R266 to R270). -/

namespace Sys2Proof.Machine

/-- A word whose one effect is held until commit (R235). -/
def heldOp (e : BlockRun → Effect) (s : State) : Out := withRun s (fun t r => .next (s.holdEffect t r (e r)))

def execBlkt (t : Nat) (s : State) : Out := heldOp (fun _ => .blkt t) s
def execUblkt (t : Nat) (s : State) : Out := heldOp (fun _ => .ublkt t) s

/-- The tile a selector register names (R106, R246). DEDUCED (log 31). -/
def State.selected (s : State) (t : Nat) (r : BlockRun) (g : Nat) : Option Nat :=
  s.tileSel t (s.instOf t r).pk ((r.reg g).fld 10 0)

/-- Whether a tile's task table, for the operator of a block, binds a tag (R246). -/
def State.binds (s : State) (pk tt tag : Nat) : Bool :=
  match s.places.find? pk with
  | none => false
  | some p =>
    match s.imageOf p, p.vtOf tt with
    | some im, some vt => (im.task vt tag).isSome
    | _, _ => false

/-- SEND (R246). DEDUCED (log 31). -/
def execSend (d a t : Nat) (s : State) : Out :=
  withRun s (fun tl r =>
    match s.selected tl r d with
    | none => .next (s.trapHere tl r 8)
    | some tt =>
      if s.binds (s.instOf tl r).pk tt t then .next (s.holdEffect tl r (.send tt t (r.reg a)))
      else .next (s.trapHere tl r 8))

/-- SEND.BO (R246). -/
def execSendBo (d a b : Nat) (s : State) : Out :=
  withRun s (fun tl r =>
    match s.selected tl r d with
    | none => .next (s.trapHere tl r 8)
    | some tt => .next (s.holdEffect tl r (.sendBo tt b ((r.reg a).fld 15 0))))

def execBoset (a t b : Nat) (s : State) : Out := heldOp (fun r => .boset b t ((r.reg a).fld 15 0) false) s
def execBosetClr (a t b : Nat) (s : State) : Out := heldOp (fun r => .boset b t ((r.reg a).fld 15 0) true) s
def execBoarm (b : Nat) (s : State) : Out := heldOp (fun _ => .boarm b) s

/-- SPAWN (R247): the record lies in the tile's own window. What the record says then, and its payload, are checked at commit,
where it is created. -/
def execSpawn (p g i : Nat) (s : State) : Out :=
  withRun s (fun t r =>
    let pk := (s.instOf t r).pk
    if s.noSet t r then .next (s.trapHere t r 7)
    else
      match s.ownArray t pk (r.reg g) 128 with
      | none => .next (s.trapHere t r 8)
      | some ro => .next (s.holdEffect t r (.spawn i ro (r.reg p))))

/-- JOIN (R248). -/
def execJoin (g : Nat) (s : State) : Out :=
  withRun s (fun t r => if s.noSet t r then .next (s.trapHere t r 7) else .next (s.holdEffect t r (.join g)))

/-- RFWD and RFWD.RET (R249): the row's bit is set in k2, the row has not left its group, and no earlier word of the
block forwards or retires it. -/
def forwardRow (a : Nat) (retire : Bool) (s : State) : Out :=
  withRun s (fun t r =>
    if s.noSet t r then .next (s.trapHere t r 7)
    else
      let v := r.reg a
      let row := v.toNat
      let again := r.effects.any (fun e => match e.2 with
        | .rfwd x _ => x == row
        | _ => false)
      let live : Bool := match s.setGroup (s.instOf t r).set with
        | some g => g.2.liveRows.contains row
        | none => false
      if decide (row < 64) && (s.uniform t r 2).getLsbD row && live && !again then .next (s.holdEffect t r (.rfwd row retire))
      else .next (s.trapHere t r 8))

def execRfwd (a : Nat) (s : State) : Out := forwardRow a false s
def execRfwdRet (a : Nat) (s : State) : Out := forwardRow a true s

/-! ### Time and system registers -/

/-- TNOW (R266). -/
def execTnow (d : Nat) (s : State) : Out := withRun s (fun t r => .next (s.putReg t r d s.clk.time))

/-- THOLD (R266): a ninth pending THOLD traps the block. One whose time has passed already counts like the others (log 135).
DESIGN CHOICE (log 135). -/
def execThold (a g : Nat) (s : State) : Out :=
  withRun s (fun t r =>
    let own := (r.effects.filter (fun e => match e.2 with
      | .thold .. => true
      | _ => false)).length
    if (s.core t).tholds.length + own ≥ 8 then .next (s.trapHere t r 9)
    else .next (s.holdEffect t r (.thold g (r.reg a))))

/-- Bits of the cells of a tile that pass a test. -/
def State.cellMask (s : State) (t : Nat) (f : Cell → Bool) : Word :=
  maskOf 64 ((List.range 64).filter (fun c => f (s.cellAt t c)))

/-- The value CSRR reads (R234): write-only registers and reserved bits read zero. What JOINCNT reads without a set is free (log
121). DESIGN CHOICE (log 121). -/
def State.readCsr (s : State) (t : Nat) (r : BlockRun) (c : Nat) : Word :=
  let i := s.instOf t r
  let o := (s.tile t).oprAt (keySlot i.pk)
  if c = 0 then
    let vt := match s.places.find? i.pk with
      | some p => (p.vtOf t).getD 0
      | none => 0
    wd (t % 2 ^ 11 + vt * 2 ^ 11 + t / 144 * 2 ^ 19)
  else if c = 1 then wd r.inst
  else if c = 2 then maskOf 64 (s.core t).sets.keys
  else if c = 3 then
    match s.setGroup i.set with
    | some g => wd g.2.join
    | none => Config.joinless
  else if c = 0x10 then o.traptag
  else if c = 0x40 then s.cellMask t (·.halted)
  else if c = 0x41 then s.cellMask t (·.trapped)
  else if 0x80 ≤ c ∧ c ≤ 0x87 then o.agstat.getD (c - 0x80) 0
  else if 0x90 ≤ c ∧ c ≤ 0x97 then wd (o.hf.getD (c - 0x90) 0)
  else if 0x200 ≤ c ∧ c ≤ 0x23F then
    ((o.m.getD ((c - 0x200) / 8) 0) >>> (64 * ((c - 0x200) % 8))).setWidth 64
  else 0

/-- CSRR (R267). -/
def execCsrr (d c : Nat) (s : State) : Out := withRun s (fun t r => .next (s.putReg t r d (s.readCsr t r c)))

/-- CSRW to a register that takes effect at commit (R234, R267). -/
def execCsrw (a c : Nat) (s : State) : Out := heldOp (fun r => .csrw c (r.reg a)) s

/-- CSRW to LCUGO (R58, R234). -/
def execLcugoWrite (a body : Nat) (s : State) : Out := heldOp (fun r => .lcugo body (r.reg a)) s

/-- CSRW to CSWEEPT (R229, R234). -/
def execCsweeptWrite (a : Nat) (s : State) : Out := heldOp (fun r => .csweept (r.reg a)) s

/-- SYSC (R268). -/
def execSysc (a t c : Nat) (s : State) : Out := heldOp (fun r => .sysc c t (r.reg a)) s

/-- ERET (R269). -/
def execEret (a : Nat) (s : State) : Out := heldOp (fun r => .eret ((r.reg a).fld 4 0) false) s

/-- ERET.ABORT (R269). -/
def execEretAbort (a : Nat) (s : State) : Out := heldOp (fun r => .eret ((r.reg a).fld 4 0) true) s

/-- TRAP (R269): cause software. -/
def execTrap (c : Nat) (s : State) : Out :=
  withRun s (fun t r => .next (s.blockTrap t r 4 c 0x3F r.word 0))

/-- HALT (R270): the core halts after the block, whether it commits or traps. -/
def execHalt (s : State) : Out :=
  withRun s (fun t r => .next ((s.updCore t (fun c => { c with halted := true })).advance t r))

end Sys2Proof.Machine
end

