-- ==== Sys2Proof/Machine/TileStreams.lean ====
section
/-! DEFINITION. Streams and code tables as the tile core issues them (R128, R129, R251, R252, R259, R260), and the
configuration words (R261 to R264). Each is issue-class: a full queue holds the tile core at the word. -/

namespace Sys2Proof.Machine

/-! ### Fields of a stream specification (R252) -/

def Stream.fmt (x : Stream) : Nat := x.w0.fld 63 60
def Stream.scale (x : Stream) : Nat := x.w0.fld 59 57
def Stream.imode (x : Stream) : Bool := x.w0.getLsbD 56
def Stream.rndOvr (x : Stream) : Bool := x.w0.getLsbD 55
def Stream.storeRound (x : Stream) : Nat := x.w0.fld 54 53
def Stream.isStore (x : Stream) : Bool := x.w0.getLsbD 52
def Stream.space (x : Stream) : Nat := x.w0.fld 51 50
def Stream.direct (x : Stream) : Bool := x.w0.getLsbD 49
def Stream.hfPop (x : Stream) : Bool := x.w0.getLsbD 47
def Stream.hfPopIdx (x : Stream) : Nat := x.w0.fld 46 44
def Stream.hfPush (x : Stream) : Bool := x.w0.getLsbD 43
def Stream.hfPushIdx (x : Stream) : Nat := x.w0.fld 42 40
def Stream.doneKind (x : Stream) : Nat := x.w0.fld 39 38
def Stream.bo (x : Stream) : Nat := x.w0.fld 37 33
def Stream.cells (x : Stream) : Nat := x.w0.fld 32 29
def Stream.group (x : Stream) : Nat := x.w0.fld 28 27
def Stream.tagmode (x : Stream) : Nat := x.w0.fld 26 25
def Stream.dstOff (x : Stream) : Nat := x.w0.fld 20 0
def Stream.rows (x : Stream) : Nat := x.w2.fld 63 40
def Stream.rowLen (x : Stream) : Nat := x.w2.fld 39 20
def Stream.stride (x : Stream) : Int := signed 32 (x.w3.fld 63 32)
def Stream.scaleOff (x : Stream) : Nat := x.w3.fld 31 0
/-- Whether a stream's lanes are integer lane values (R252): an INT32 load always. -/
def Stream.intLanes (x : Stream) : Bool := x.imode || (x.fmt == 5 && !x.isStore)

/-- The checks of R252 on a specification, made before issue. -/
def specOk (x : Stream) : Bool :=
  fmtAssigned x.fmt && decide (x.scale ≤ 4) && x.space != 3 && !x.w0.getLsbD 48 && x.doneKind != 3 &&
  x.tagmode != 3 && x.w0.fld 24 21 == 0 && x.w2.fld 19 0 == 0 && decide (1 ≤ x.rows) && decide (1 ≤ x.rowLen) &&
  !(x.scale != 0 && (x.isStore || x.direct || !scalePermitted x.fmt x.scale x.intLanes)) &&
  !(x.fmt == 8 && x.isStore) && !(x.isStore && x.direct) && !(x.doneKind == 2 && x.tag == 0) &&
  !(x.cells == 0 && !x.direct) && !(x.imode && !fmtInt x.fmt)

/-- Whether the 16 entries of an address generator's queue are taken (R259): a stream that runs has left its entry (log 134).
DESIGN CHOICE (log 134). -/
def Ag.full (a : Ag) : Bool := decide (a.queue.length ≥ 16)

/-- Whether a stream of the queue or the running one was accepted before the latest CTSW (R129). -/
def Ag.olderStreams (a : Ag) : Bool :=
  (match a.run with
   | some r => decide (r.s.id < a.swapId)
   | none => false) ||
  a.queue.any (fun q => match q with
    | .stream x => decide (x.id < a.swapId)
    | .marker .. => false)

/-- Apply one code-table operation to an address generator (R128); a swap makes the streams accepted so far, those with an
identifier below `next`, older. -/
def Ag.applyCte (a : Ag) (next : Nat) (o : CteOp) : Ag :=
  match o with
  | .swap => { a with act := 1 - a.act, swapId := next }
  | .write e v => if a.act = 0 then { a with tab1 := a.tab1.set e v } else { a with tab0 := a.tab0.set e v }

/-- Apply held operations, in issue order, until one must wait for a stream accepted before the latest CTSW (R129); `fuel` is
their number. -/
def Ag.applyHeld (next : Nat) : Nat → Ag → Ag
  | 0, a => a
  | fuel + 1, a =>
    match a.held with
    | [] => a
    | o :: rest => if a.olderStreams then a else Ag.applyHeld next fuel { (a.applyCte next o) with held := rest }

/-- The held operations of an address generator that no stream holds back any more are applied (R129). -/
def State.settleTables (s : State) (t n : Nat) : State := s.updAg t n (fun a => a.applyHeld s.sched.ids a.held.length)

/-- Accept a stream (R128, R145, R251): it takes the table copy active now and resolves its handle once. -/
def State.acceptStream (s : State) (t n : Nat) (x : Stream) : State :=
  let s := s.settleTables t n
  let id := s.newId
  let e := if x.space = 1 then (id.2.entryFor x.w1) else (none, id.2)
  e.2.updAg t n (fun a => { a with queue := a.queue ++ [.stream { x with id := id.1, tab := a.act, entry := e.1 }] })

/-- STRM of a specification (R251, R252, R259): a refused one traps the block before issue. -/
def issueStream (n tg : Nat) (w : State → Nat → BlockRun → Word × Word × Word × Word) (s : State) : Out :=
  withRun s (fun t r =>
    let i := s.instOf t r
    let ws := w s t r
    let x : Stream :=
      { id := 0, w0 := ws.1, w1 := ws.2.1, w2 := ws.2.2.1, w3 := ws.2.2.2, pk := i.pk, tag := tg, set := i.set,
        tab := 0, entry := none }
    if !specOk x then .next (s.trapHere t r 5)
    else if ((s.tile t).ag n).full then .next s
    else .next ((s.acceptStream t n x).advance t r))

/-- STRM, direct form (R251). -/
def execStrm (a g n : Nat) (s : State) : Out :=
  issueStream n g (fun _ _ r => (r.reg a, r.reg (a + 1), r.reg (a + 2), r.reg (a + 3))) s

/-- STRM, template form (R251): words 0 and 3 come from template p. -/
def execStrmTemplate (a g p n : Nat) (s : State) : Out :=
  issueStream n g (fun s t r =>
    let o := (s.tile t).oprAt (keySlot (s.instOf t r).pk)
    (o.agt0.getD p 0, r.reg a, r.reg (a + 1), o.agt3.getD p 0)) s

/-! ### Code tables (R128, R129) -/

/-- Issue of a code-table operation (R129): applied at once unless it must wait for older streams or earlier held
operations; 32 held operations hold the tile core (R423). -/
def issueCte (n : Nat) (o : BlockRun → CteOp) (s : State) : Out :=
  withRun s (fun t r =>
    let a := (s.tile t).ag n
    if a.held.isEmpty && !a.olderStreams then
      .next ((s.updAg t n (fun a => a.applyCte s.sched.ids (o r))).advance t r)
    else if a.held.length ≥ 32 then .next s
    else .next ((s.updAg t n (fun a => { a with held := a.held ++ [o r] })).advance t r))

/-- CTSW (R263). -/
def execCtsw (a : Nat) (s : State) : Out := issueCte a (fun _ => .swap) s

/-- CSRW to CTE (R128, R234): entry e of the standby table of address generator ag. -/
def execCteWrite (a ag e : Nat) (s : State) : Out :=
  issueCte ag (fun r => .write e ((r.reg a).setWidth 16)) s

/-! ### Configuration words -/

/-- CFGL (R261): the tile's cells stop at once; the load itself ends with CFGL_COMPLETE. A load issued while another of the
tile is in progress follows it (log 32). DEDUCED (log 32). -/
def execCfgl (g d c m : Nat) (s : State) : Out :=
  withRun s (fun t r =>
    let i := s.instOf t r
    let load : CfglRun := { pk := i.pk, mask := m, active := c, data := d == 1, tag := g, set := i.set }
    .next ((s.updTile t (fun x =>
      if x.cfgl.isSome then { x with cfglWait := x.cfglWait ++ [load] } else { x with cfgl := some load })).advance t r))

/-- CFGBANK (R117, R262): a bank in transition or outside the operator's mask is refused, and the completion says so; for a bank
that is both the spec does not say with which outcome, and the model answers 1 (log 122). A change to the same mode completes in
the next cycle; another one takes as long as its bound (R117). DESIGN CHOICE (log 122). DEDUCED (log 149). -/
def execCfgbank (g m b : Nat) (s : State) : Out :=
  withRun s (fun t r =>
    let i := s.instOf t r
    let bk := (s.tile t).bank b
    let inMask := match s.places.find? i.pk with
      | some p => p.banks.getLsbD b
      | none => false
    let mode : BankMode := if m = 0 then .cache else if m = 1 then .scratch else .fifo
    if bk.trans.isSome then .next ((s.arrive t g 10 1 t 1 i.set).advance t r)
    else if !inMask then .next ((s.arrive t g 10 2 t 1 i.set).advance t r)
    else
      let wait := if mode == bk.mode then 1 else if bk.mode == .cache then 4096 else 2048
      let tr : BankTrans :=
        { target := mode, ready := s.clk.cycle + wait, pk := i.pk, tag := g, set := i.set }
      let s := if bk.mode == .cache && mode != .cache then s.cacheFlushWay t b else s
      .next ((s.updBank t b (fun x => { x with trans := some tr })).advance t r))

/-- EQW (R264): takes effect at commit. -/
def execEqw (a n : Nat) (s : State) : Out := heldOp (fun r => .eqw n (r.reg a)) s

/-- EQW.PORT (R264). -/
def execEqwPort (a n : Nat) (s : State) : Out := heldOp (fun r => .eqwPort n (r.reg a)) s

/-- The cell state of an operator that is not loaded, while its streams and commands go on (R323): what its eviction saved, or
what it left behind when it was switched out without one. DEDUCED (log 68). -/
def Region.away (r : Region) (pk : Nat) : Option Saved := (r.evicted.find? pk).orElse (fun _ => r.aside.find? pk)

/-- Whether a stream may act on cells: its operator's channels stand in the cells of the tile, or away from them while another
operator is loaded, and its streams go on (R316, R323). DEDUCED (log 68). -/
def State.streamHere (s : State) (t : Nat) (x : Stream) : Bool :=
  x.direct || s.loadedOn t == some x.pk || ((s.region (keyAnchor x.pk)).away x.pk).isSome

end Sys2Proof.Machine
end

