-- ==== Sys2Proof/Machine/Engine.lean ====
section
/-! DEFINITION. The command image (R271 to R274), its checks, the engine queues (R275), and the accesses of an
engine: ranges walked in aligned 64-byte groups, each checked whole before any byte of it is performed (R278, R414). -/

namespace Sys2Proof.Machine

/-! ### The command image (R272) and the queue register (R273) -/

def QCmd.code (c : QCmd) : Nat := c.w0.fld 63 56
def QCmd.hfPop (c : QCmd) : Bool := c.w0.getLsbD 47
def QCmd.hfPopIdx (c : QCmd) : Nat := c.w0.fld 46 44
def QCmd.hfPush (c : QCmd) : Bool := c.w0.getLsbD 43
def QCmd.hfPushIdx (c : QCmd) : Nat := c.w0.fld 42 40
def QCmd.done (c : QCmd) : Nat := c.w0.fld 39 38
def QCmd.bo (c : QCmd) : Nat := c.w0.fld 37 33

def eqKind (v : Word) : Nat := v.fld 63 60
def eqDie (v : Word) : Nat := v.fld 59 56
def eqPin (v : Word) : Nat := v.fld 55 54
def eqSpan (v : Word) : Bool := v.getLsbD 53

/-- The kind of queue that takes an operation (R273); 0 for a code that names none. DEDUCED (log 36). -/
def cmdKind (code : Nat) : Nat :=
  match code with
  | 0x99 => 1
  | 0x9A => 1
  | 0xAA => 1
  | 0xAC => 1
  | 0xA4 => 2
  | 0xA5 => 2
  | 0xA6 => 2
  | 0xA7 => 2
  | 0xA8 => 2
  | 0xA3 => 3
  | 0xA9 => 4
  | 0xA1 => 5
  | 0xA0 => 6
  | 0xA2 => 6
  | 0xAB => 7
  | _ => 0

/-- Whether a queue register holds no reserved value (R273). -/
def eqOk (v : Word) : Bool :=
  let k := eqKind v
  decide (k ≤ 7) && (k == 3 || k == 6 || decide (eqDie v ≤ 7) || eqDie v == 15) &&
  (if k = 6 then eqPin v != 3 else eqPin v == 0 && !eqSpan v) && v.fld 52 0 == 0

/-- The unit an engine failure of a queue kind carries (R391); the model path is settled by its own path. -/
def kindUnit (k : Nat) : Nat :=
  match k with
  | 1 => 7
  | 2 => 8
  | 3 => 6
  | 4 => 9
  | 5 => 10
  | _ => 1

/-! ### Field checks of each operation (R279 to R300) -/

/-- An element format and scale kind a command may name: a float-mode format, and a scale it may carry (R68, R77). -/
def fmtScaleOk (fmt kind : Nat) : Bool := fmtFloat fmt && scalePermitted fmt kind false

/-- MV (R279); pin 2 refuses a tile-window W (R281). -/
def mvOk (c : QCmd) (eq : Word) : Bool :=
  let ws := c.w0.fld 31 30
  let y := c.w0.fld 11 8
  (ws == 1 || ws == 2) && c.w0.fld 7 0 == 0 && fmtScaleOk (c.w0.fld 25 22) (c.w0.fld 21 19) &&
  fmtScaleOk (c.w0.fld 18 15) (c.w0.fld 14 12) && fmtAssigned y && y != 8 && decide (1 ≤ c.w4.fld 63 57) &&
  decide (c.w4.fld 63 57 ≤ 64) && c.w4.fld 56 37 != 0 && c.w4.fld 36 17 != 0 && c.w4.fld 16 0 == 0 &&
  !(eqPin eq == 2 && ws == 2)

/-- SCOUT (R283): also refused for too many tiles, or a theta below zero, infinite or a NaN. -/
def scoutOk (c : QCmd) : Bool :=
  let r := 2 ^ c.w0.fld 28 27
  let s := 16 * 2 ^ c.w0.fld 26 25
  let theta := Ex.ofFw (c.w3.setWidth 40)
  c.w0.fld 26 25 != 3 && c.w0.fld 16 0 == 0 && c.w3.fld 63 40 == 0 && c.w4.fld 39 0 == 0 &&
  decide (ceilDiv (c.w4.fld 63 40) s ≤ 512 / r) &&
  (match theta with
   | .fin n _ _ => !n
   | .zero _ => true
   | _ => false)

/-- ATTN (R285, R286); the normalise-only form ignores the fields of R335. -/
def attnOk (c : QCmd) : Bool :=
  let r := 2 ^ c.w0.fld 27 26
  let s := 16 * 2 ^ c.w0.fld 25 24
  let l := c.w4.fld 63 40
  c.w0.fld 6 0 == 0 && c.w4.fld 15 0 == 0 &&
  (l == 0 ||
   (c.w0.fld 25 24 != 3 && fmtScaleOk (c.w0.fld 15 12) (c.w0.fld 11 9) &&
    !(c.w0.getLsbD 28 && decide (512 / r < ceilDiv l s))))

/-- IRED, gather forms (R289) and memory-side atomic (R290); form 3 is reserved. DEDUCED (log 99). -/
def iredOk (c : QCmd) : Bool :=
  let f := c.w0.fld 31 30
  if f = 2 then
    decide (c.w0.fld 29 26 ≤ 7) && decide (c.w0.fld 22 20 ≤ 4) && c.w0.fld 19 0 == 0 &&
    c.w2.toNat % (if c.w0.getLsbD 25 then 8 else 4) == 0 && c.w2.fld 63 57 == 0
  else
    f != 3 && fmtScaleOk (c.w0.fld 29 26) (c.w0.fld 25 23) && c.w0.fld 22 0 == 0 && c.w2.toNat % 4 == 0 &&
    c.w3.toNat % 8 == 0 && c.w4.fld 63 48 != 0 && c.w4.fld 47 36 != 0 && c.w4.fld 35 0 == 0

/-- The COLL forms (R291, R292, R295). Word 3 of a COLL.SMP, which the spec neither uses nor reserves, may hold anything (log 139).
DESIGN CHOICE (log 139). -/
def collOk (c : QCmd) : Bool :=
  let p := c.w4.fld 63 48
  let i := c.w4.fld 47 32
  let n := c.w4.fld 31 0
  c.w0.fld 14 0 == 0 && decide (1 ≤ p) && decide (p ≤ 256) && decide (i < p) && n != 0 &&
  (c.code != 0xA4 || decide (n ≤ 256)) && (if c.code = 0xA8 then n == 64 else c.w1 == 0)

/-- SAMPLE (R293); a grammar mask's offset is base / 8 with base a multiple of 8 (R338). -/
def sampleOk (c : QCmd) : Bool :=
  c.w0.fld 30 0 == 0 && c.w4.fld 63 32 != 0 &&
  (c.w2 == 0 || (c.w4.fld 31 0 % 8 == 0 && hOffset c.w2 == c.w4.fld 31 0 / 8))

/-- Whether two byte ranges of one space overlap. -/
def rangesMeet (a b n : Nat) : Bool := decide (a < b + n) && decide (b < a + n)

/-- COPY (R296): ranges named by address are compared here, those named by handle when the copy runs. -/
def copyOk (c : QCmd) : Bool :=
  c.w0.fld 29 0 == 0 && c.w4 == 0 && c.w3 != 0 && decide (c.w3.toNat ≤ 2 ^ 40) &&
  !(!c.w0.getLsbD 31 && !c.w0.getLsbD 30 && rangesMeet c.w1.toNat c.w2.toNat c.w3.toNat)

/-- PUBL (R297): fields, and an entry of the issuing VI that is not read_only_shared. -/
def publOk (c : QCmd) (vi : Nat) (e : HEntry) : Bool :=
  decide (c.w0.fld 31 29 ≤ 4) && c.w0.fld 28 0 == 0 && c.w2.fld 63 57 == 0 && c.w3.toNat % 8 == 0 &&
  c.w3.fld 63 57 == 0 && hVi c.w1 == vi && !e.shared

/-- PROMO (R298): fields, the issuing VI, and the tier that the direction needs. -/
def promoOk (c : QCmd) (vi : Nat) (e : HEntry) : Bool :=
  c.w0.fld 30 0 == 0 && c.w3 == 0 && c.w4 == 0 && c.w2.toNat % 65536 == 0 && hVi c.w1 == vi &&
  e.tier == (if c.w0.getLsbD 31 then 0 else 1)

/-- WBUILD (R299): also refused for a length of 0, of which the spec says only that it is a whole number of pages (log 123).
DESIGN CHOICE (log 123). -/
def wbuildOk (c : QCmd) : Bool :=
  c.w0.fld 31 0 == 0 && c.w1.toNat % 65536 == 0 && c.w3 != 0 && c.w3.toNat % 65536 == 0 && c.w4.toNat % 4 == 0

/-- Records that a hamper holds or that wait before it. -/
def Hamper.inside (h : Hamper) : List Rec :=
  h.net ++ (match h.forming with | some f => f.rows | none => []) ++ h.closed.flatMap (·.rows) ++ h.groups.flatMap (·.recs)

/-- The generations of the records that count as in a stage (R300, R435): those in the network and in hampers, but for those
on an exception route, and the live rows of row groups, whose stage and generation stand in the group. -/
def State.stageGens (s : State) (vi job stage : Nat) : List Nat :=
  let mine (r : Rec) : Bool := !r.out && r.r.vi == vi && r.r.job == job && r.r.stage == stage
  let waiting := s.net.map (·.body) ++ s.places.vals.flatMap (fun p => p.hamper.inside)
  let live := s.rgs.vals.flatMap (fun g =>
    match s.places.find? g.pk with
    | some p =>
      if p.vi = vi ∧ p.job = job then (g.liveRows.filter (fun i => g.stages.find? i == some stage)).map (fun _ => g.wgen) else []
    | none => [])
  (waiting.filter mine).map (·.r.wgen) ++ live

/-- Records of a generation that remain in a stage. -/
def State.genCount (s : State) (vi job stage gen : Nat) : Nat :=
  ((s.stageGens vi job stage).filter (· == gen)).length

/-- WSWITCH (R300): refused while records of the new generation are in the stage, or while another switch of the stage
waits, the current generation too (log 140); else the current generation is accepted. DESIGN CHOICE (log 140). -/
def State.wswitchOk (s : State) (c : QCmd) (vi job : Nat) : Bool :=
  let stage := c.w1.fld 7 0
  let g := c.w0.fld 31 28
  let st := s.stage (jobKey vi job * 256 + stage)
  c.w0.fld 27 0 == 0 && c.w1.fld 63 8 == 0 && c.w2 == 0 && c.w3 == 0 && c.w4 == 0 &&
  st.switch.isNone && (g == st.gen || s.genCount vi job stage g == 0)

/-- The entry a handle names as it stands, for the checks of PUBL and PROMO. -/
def State.plainEntry (s : State) (h : Word) : HEntry := (s.vi (hVi h)).handles.getD (hIndex h) noEntry

/-- The checks an operation states, on a command of a VI and job under a queue register. -/
def State.opOk (s : State) (c : QCmd) (eq : Word) (vi job : Nat) : Bool :=
  match c.code with
  | 0x99 => copyOk c
  | 0x9A => publOk c vi (s.plainEntry c.w1)
  | 0xA0 => mvOk c eq
  | 0xA1 => scoutOk c
  | 0xA2 => attnOk c
  | 0xA3 => iredOk c
  | 0xA4 => collOk c
  | 0xA5 => collOk c
  | 0xA6 => collOk c
  | 0xA7 => collOk c
  | 0xA8 => collOk c
  | 0xA9 => sampleOk c
  | 0xAA => wbuildOk c
  | 0xAB => s.wswitchOk c vi job
  | 0xAC => promoOk c vi (s.plainEntry c.w1)
  | _ => false

/-- Why a command is refused (R274, R412): 0 accepted, 1 refused, 2 unbound queue or the wrong kind.
DEDUCED (log 34). -/
def State.cmdRefusal (s : State) (c : QCmd) (eq : Word) (vi job : Nat) : Nat :=
  if eqKind eq = 0 then 2
  else if !eqOk eq then 1
  else if cmdKind c.code != eqKind eq then 2
  else if c.w0.fld 55 48 != 0 || c.w0.getLsbD 32 || c.done == 3 then 1
  else if s.opOk c eq vi job then 0
  else 1

/-! ### Issue (R275) -/

/-- An engine queue of an operator's copy in a tile. -/
def State.queueAt (s : State) (t slot q : Nat) : EngQueue := ((s.tile t).oprAt slot).queues.getD q {}

/-- Commands one queue holds (R275). -/
def queueDepth : Nat := 16

/-- The place of an issuer among those of one cycle (R275): the tile core first, then the cells by increasing number. -/
def Issuer.rank : Issuer → Nat
  | .cell c _ => c + 1
  | _ => 0

/-- A queue with a command entered (R275): behind what entered earlier, and in the order of one cycle among what entered in
its own cycle. Its round is that of its place (R436). -/
def EngQueue.enter (e : EngQueue) (c : QCmd) : EngQueue :=
  let late := (e.items.reverse.takeWhile (fun x => x.cycle == c.cycle && decide (c.by_.rank < x.by_.rank))).reverse
  let keep := e.items.take (e.items.length - late.length)
  let bump := if c.code = 0x9A then 1 else 0
  { e with
    items := keep ++ { c with epoch := (late.head?.map (·.epoch)).getD e.epoch } ::
      late.map (fun x => { x with epoch := x.epoch + bump })
    epoch := e.epoch + bump }

/-- Enter a command in a queue (R275). -/
def State.enqueue (s : State) (t slot q : Nat) (c : QCmd) : State :=
  let id := s.newId
  id.2.updOpr t slot (fun o =>
    { o with queues := o.queues.upd q {} (fun e => e.enter { c with id := id.1, cycle := s.clk.cycle }) })

/-- Issue of a command by a tile core (R271 to R275): refused, it traps the block; a full queue holds the core; else it
enters its queue, after the tile's dirty bytes are written back (R135). -/
def issueCmd (code a tg n : Nat) (s : State) : Out :=
  withRun s (fun t r =>
    let i := s.instOf t r
    let slot := keySlot i.pk
    let c : QCmd :=
      { id := 0, w0 := r.reg a, w1 := r.reg (a + 1), w2 := r.reg (a + 2), w3 := r.reg (a + 3), w4 := r.reg (a + 4),
        by_ := .core i.set tg, epoch := 0 }
    let eq := ((s.tile t).oprAt slot).eq.getD n 0
    let job := match s.places.find? i.pk with
      | some p => p.job
      | none => 0
    if c.code != code || (c.done == 2 && tg == 0) || s.cmdRefusal c eq (s.viOf i.pk) job != 0 then
      .next (s.trapHere t r 6)
    else if (s.queueAt t slot n).items.length ≥ queueDepth then .next s
    else .next (((s.cacheRelease t).enqueue t slot n c).advance t r))

def execCopy (a t n : Nat) (s : State) : Out := issueCmd 0x99 a t n s
def execPubl (a t n : Nat) (s : State) : Out := issueCmd 0x9A a t n s
def execMv (a t n : Nat) (s : State) : Out := issueCmd 0xA0 a t n s
def execScout (a t n : Nat) (s : State) : Out := issueCmd 0xA1 a t n s
def execAttn (a t n : Nat) (s : State) : Out := issueCmd 0xA2 a t n s
def execIredGatherSum (a t n : Nat) (s : State) : Out := issueCmd 0xA3 a t n s
def execIredGatherMax (a t n : Nat) (s : State) : Out := issueCmd 0xA3 a t n s
def execIredAtomic (a t n : Nat) (s : State) : Out := issueCmd 0xA3 a t n s
def execCollTri (a t n : Nat) (s : State) : Out := issueCmd 0xA4 a t n s
def execCollSum (a t n : Nat) (s : State) : Out := issueCmd 0xA5 a t n s
def execCollMax (a t n : Nat) (s : State) : Out := issueCmd 0xA6 a t n s
def execCollGath (a t n : Nat) (s : State) : Out := issueCmd 0xA7 a t n s
def execCollSmp (a t n : Nat) (s : State) : Out := issueCmd 0xA8 a t n s
def execSample (a t n : Nat) (s : State) : Out := issueCmd 0xA9 a t n s
def execWbuild (a t n : Nat) (s : State) : Out := issueCmd 0xAA a t n s
def execWswitch (a t n : Nat) (s : State) : Out := issueCmd 0xAB a t n s
def execPromo (a t n : Nat) (s : State) : Out := issueCmd 0xAC a t n s
def execPromoDemote (a t n : Nat) (s : State) : Out := issueCmd 0xAC a t n s

/-! ### Accesses of an engine (R278, R414) -/

/-- A byte range of a command: at an effective address of its issuer, at a device-virtual address of a VI, or at an address word
whose form is none that its place takes (R106); `al` is the alignment that its elements need (R107, R278). -/
inductive Loc where
  | ea (a : Word) (al : Nat)
  | dv (vi a al : Nat)
  | wrong (a : Word)
  deriving DecidableEq, Repr, Inhabited

/-- On whose behalf an engine accesses memory: issuing tile, placement and VI, whether attic is reachable (R114), the TLB it
goes through (R19), whether other packages are out of reach (R287), the fault domain it works for (R389), and whether a cellar engine
makes its writes (R115). -/
structure Eng where
  tile : Nat
  pk : Nat
  vi : Nat
  attic : Bool
  unit : Option Nat := none
  near : Bool := false
  domain : Nat := 0
  cellar : Bool := false
  deriving DecidableEq, Repr, Inhabited

/-- Address of position i of a range. -/
def Loc.at_ (l : Loc) (i : Nat) : Nat :=
  match l with
  | .ea a _ => (a + wd i).toNat
  | .dv _ a _ => a + i
  | .wrong a => (a + wd i).toNat

/-- A range from its position i on. -/
def Loc.from_ (l : Loc) (i : Nat) : Loc :=
  match l with
  | .ea a al => .ea (a + wd i) al
  | .dv v a al => .dv v (a + i) al
  | .wrong a => .wrong (a + wd i)

/-- The level that the record of an address which no agent reaches there names (R413). -/
def State.locLevel (s : State) (e : Eng) (l : Loc) (i : Nat) : Nat :=
  match l with
  | .ea .. => s.leafLevel e.vi (l.at_ i)
  | .dv v .. => s.leafLevel v (l.at_ i)
  | .wrong _ => 0

/-- Whether a key lies in attic memory. -/
def isAtticKey (k : Nat) : Bool := decide (2 ^ 41 ≤ k) && decide (k < 2 ^ 42)

/-- Whether a key lies in another package. -/
def isRemoteKey (k : Nat) : Bool := decide (2 ^ 51 ≤ k) && decide (k < 2 ^ 52)

/-- The link on which an attic transfer of some keys fails (R444), if one does: a link that is down fails every transfer; poison
in a granule that is read, and a time-out, fail on the link that serves the granule (R378). -/
def State.atticFault (s : State) (ks : List Nat) (rd : Bool) : Option Nat :=
  let l := ks.filter isAtticKey
  if l.isEmpty then none
  else if !s.dev.linksDown.isEmpty then s.dev.linksDown.head?
  else
    (l.find? (fun k => s.dev.atticMarks.contains (atticLink (k - 2 ^ 41), s.sched.moves) ||
      (s.bad.contains (granuleOf k) && (rd || !coversGranule ks (granuleOf k))))).map (fun k => atticLink (k - 2 ^ 41))

/-- The keys of n bytes from position i of a range, checked whole (R106 to R112, R414). -/
def State.engKeys (s : State) (e : Eng) (l : Loc) (i n : Nat) (rd wr : Bool) : Res (List Nat) × State :=
  let dv (s : State) (v a al : Nat) : Res (List Nat) × State :=
    match s.windowCheck v a n rd wr with
    | (.error f, s) => (.error f, s)
    | (.ok _, s) => if a % al != 0 then (.error ⟨0x13, wd a, 0⟩, s) else s.resolveDv e.attic e.unit v a n rd wr
  let r := match l with
    | .dv v a al => dv s v (a + i) (if i = 0 then al else 1)
    | .wrong a => (.error ⟨0x10, a + wd i, 0⟩, s)
    | .ea a al =>
      let al := if i = 0 then al else 1
      if a.fld 63 57 == 0 then dv s e.vi (a.toNat + i) al else s.resolveEa e.unit e.tile e.pk e.vi (a + wd i) n al rd wr
  match r with
  | (.ok ks, s) =>
    if e.near && ks.any isRemoteKey then (.error ⟨0x17, wd (l.at_ i), s.locLevel e l i * 2 ^ 24⟩, s)
    else
      match s.atticFault ks rd with
      | some x =>
        (.error ⟨0x0C, wd (l.at_ i), x⟩, s.atticNote x (s.workRec e.tile e.pk e.vi e.domain { loc := wd (l.at_ i) }))
      | none => (.ok ks, s)
  | r => r

/-- The aligned 64-byte groups of n bytes at an address (R414): how many there are, and the position and the length of the
k-th. -/
def groupCount (a n : Nat) : Nat := if n = 0 then 0 else (a % 64 + n + 63) / 64
def groupAt (a n k : Nat) : Nat × Nat :=
  let lo := 64 * k - a % 64
  (lo, min n (64 * (k + 1) - a % 64) - lo)

/-- All those groups, as (position, length) pairs. -/
def groupsOf (a n : Nat) : List (Nat × Nat) := (List.range (groupCount a n)).map (groupAt a n)

/-- Read n bytes of a range group by group: the bytes of the groups before the first that fails, and the failure. -/
def State.engRead (s : State) (e : Eng) (l : Loc) (n : Nat) : (List Byte × Option Fail) × State :=
  (groupsOf (l.at_ 0) n).foldl (fun (acc : (List Byte × Option Fail) × State) g =>
    match acc.1.2 with
    | some _ => acc
    | none =>
      match acc.2.engKeys e l g.1 g.2 true false with
      | (.error f, s) => ((acc.1.1, some f), s)
      | (.ok ks, s) =>
        if s.badRead ks then ((acc.1.1, some ⟨0x1D, wd (l.at_ g.1), 0⟩), s)
        else ((acc.1.1 ++ s.readKeys ks, none), s)) (([], none), s)

/-- Read m bytes from position i of a range of n: the groups they meet are checked whole (R414). The bytes before the first
failing group, and the failure. -/
def State.engReadPart (s : State) (e : Eng) (l : Loc) (n i m : Nat) : (List Byte × Option Fail) × State :=
  let a := l.at_ 0
  let g0 := (a % 64 + i) / 64
  (List.range ((a % 64 + i + m + 63) / 64 - g0)).foldl (fun (acc : (List Byte × Option Fail) × State) k =>
    match acc.1.2 with
    | some _ => acc
    | none =>
      let g := groupAt a n (g0 + k)
      match acc.2.engKeys e l g.1 g.2 true false with
      | (.error f, s) => ((acc.1.1, some f), s)
      | (.ok ks, s) =>
        if s.badRead ks then ((acc.1.1, some ⟨0x1D, wd (l.at_ g.1), 0⟩), s)
        else
          let lo := i + acc.1.1.length - g.1
          ((acc.1.1 ++ s.readKeys ((ks.drop lo).take (m - acc.1.1.length)), none), s)) (([], none), s)

/-- The attic pages that written keys lie in get their tags again (R125). -/
def State.retag (s : State) (keys : List Nat) : State :=
  let pages := (keys.filter isAtticKey).map (fun k => (k - 2 ^ 41) / 65536)
  pages.eraseDups.foldl (fun s p =>
    { s with tags := s.tags.set p (crc32c (s.mem.getN (2 ^ 41 + p * 65536) 65536)) }) s

/-- Write bytes of an engine at checked keys; the copy engine writes the tags of the attic pages it writes (R125), and a cellar
engine leaves no sector of its own in a die cache (R115). -/
def State.engPut (s : State) (e : Eng) (ks : List Nat) (b : List Byte) : State :=
  if e.cellar then s.engineStore ks b else if e.attic then (s.writeKeys ks b).retag ks else s.writeKeys ks b

/-- Write bytes at a range group by group: how many were written, and the failure that stopped it. -/
def State.engWrite (s : State) (e : Eng) (l : Loc) (b : List Byte) : (Nat × Option Fail) × State :=
  (groupsOf (l.at_ 0) b.length).foldl (fun (acc : (Nat × Option Fail) × State) g =>
    match acc.1.2 with
    | some _ => acc
    | none =>
      match acc.2.engKeys e l g.1 g.2 false true with
      | (.error f, s) => ((acc.1.1, some f), s)
      | (.ok ks, s) =>
        if s.badWrite ks then ((acc.1.1, some ⟨0x1D, wd (l.at_ g.1), 0⟩), s)
        else ((acc.1.1 + g.2, none), s.engPut e ks ((b.drop g.1).take g.2))) ((0, none), s)

/-- Whether a whole range can be read and written: the first failing group, with nothing performed. -/
def State.engCheck (s : State) (e : Eng) (l : Loc) (n : Nat) (rd wr : Bool) : Option Fail × State :=
  (groupsOf (l.at_ 0) n).foldl (fun (acc : Option Fail × State) g =>
    match acc.1 with
    | some _ => acc
    | none =>
      match acc.2.engKeys e l g.1 g.2 rd wr with
      | (.error f, s) => (some f, s)
      | (.ok ks, s) =>
        ((if (rd && s.badRead ks) || (wr && s.badWrite ks) then some ⟨0x1D, wd (l.at_ g.1), 0⟩ else none), s)) (none, s)

/-- The words of a range, all or nothing. -/
def State.engWords (s : State) (e : Eng) (l : Loc) (n : Nat) : Res (List Word) × State :=
  match s.engRead e l (8 * n) with
  | ((_, some f), s) => (.error f, s)
  | ((b, none), s) => (.ok (wordsOf b), s)

/-- FW40 values of 8-byte containers (R69). -/
def fwOf (l : List Word) : List Fw := l.map (·.setWidth 40)

/-- FW40 values as 8-byte containers. -/
def containers (l : List Fw) : List Byte := l.flatMap (fun x => leBytes 8 x.toNat)

/-! ### Rows of elements in a storage format (R278) -/

/-- Bytes of a row: its elements, then its scales. -/
def rowBytes (fmt kind n : Nat) : Nat :=
  packedBytes fmt n + (if kind = 0 then 0 else ceilDiv n (scaleBlock kind) * scaleBytes kind)

/-- The exact values of a row of n elements, each times its block's scale (R78, R79), and the decode flags.
DESIGN CHOICE (log 33). -/
def decodeRow (fmt kind n : Nat) (tab : Nat → BitVec 16) (b : List Byte) : List Ex × Flags :=
  let elems := (rawElems fmt n b).map (fun w => decodeElem fmt false tab w)
  let sb := b.drop (packedBytes fmt n)
  let scales := if kind = 0 then [] else
    (List.range (ceilDiv n (scaleBlock kind))).map (fun k =>
      scaleFw kind (leNat ((sb.drop (k * scaleBytes kind)).take (scaleBytes kind))))
  let vals := elems.zipIdx.map (fun p =>
    let x := Ex.ofFw p.1.1
    if kind = 0 then x
    else match scales[p.2 / scaleBlock kind]? with
      | some sc => x.mul (Ex.ofFw sc.1)
      | none => x)
  (vals, (elems ++ scales).foldl (fun f p => f ||| p.2) 0)

/-- The code table that a command's C4 elements index. The spec names no table for an engine, so its entries are free values,
taken as the command begins its work (log 33). DESIGN CHOICE (log 33). -/
def engTable (base : Nat) : Nat → BitVec 16 := fun e => (Config.freeWord (base + e)).setWidth 16

/-- Take the free values of a code table: their base, which a command keeps. DESIGN CHOICE (log 33). -/
def State.takeTable (s : State) : Nat × State :=
  (s.sched.free, { s with sched := { s.sched with free := s.sched.free + 16 } })

end Sys2Proof.Machine
end

