-- ==== Sys2Proof/Machine/ModelOps.lean ====
section
/-! DEFINITION. The work of each engine operation (R279 to R300, R329 to R340, R418, R434): what a command reads,
computes and writes. The longer ones are done in units, so that other agents see a command's work in part (R131, R145): a group
of a copy, a row of MV, a bag of a gather, a key tile of ATTN. -/

namespace Sys2Proof.Machine

/-- What performing a command gives: its result with the failure to report and the records it named, a stall, or bytes that
land group by group. -/
inductive Perf where
  | done (r : CmdRes) (f : Option Fail) (recs : List Word)
  | stalled (h : Word)
  | lands (l : Landing)
  deriving Repr, Inhabited

/-- What one unit of a command's work gives: the command goes on, or it has ended or stalled with what was done so far. -/
inductive Work where
  | more (rc : RunCmd)
  | ends (rc : RunCmd) (p : Perf)
  deriving Repr, Inhabited

/-- The agent a command is for an access (R114, R130): an engine of the die that its queue register names, which kinds 3 and 6
ignore (R273). A cellar engine writes what a gather or an atomic gives (R115, R289, R290). -/
def RunCmd.eng (rc : RunCmd) : Eng :=
  { tile := rc.tile, pk := rc.pk, vi := rc.vi, attic := cmdKind rc.c.code == 1, domain := rc.domain,
    cellar := cmdKind rc.c.code == 3,
    unit := engineUnit (if eqDie rc.eq = 15 ∨ cmdKind rc.c.code = 3 ∨ cmdKind rc.c.code = 6 then rc.tile else 144 * eqDie rc.eq)
      (cmdKind rc.c.code) }

/-- Whether a command came from a submission entry. -/
def RunCmd.front (rc : RunCmd) : Bool :=
  match rc.c.by_ with
  | .front .. => true
  | _ => false

/-- A range at an address word that is device virtual: a word of another form fails as such (R105, R106, R278). -/
def RunCmd.dvLoc (rc : RunCmd) (a : Word) (al : Nat) : Loc := if a.fld 63 57 = 0 then .dv rc.vi a.toNat al else .wrong a

/-- A range at an address word with the alignment of its elements: an effective address, or for a submission entry a
device-virtual one (R107, R278, R303). A word that is device virtual in a place that a table calls a tile-window address is taken
as such (log 137). DEDUCED (log 117). DESIGN CHOICE (log 137). -/
def RunCmd.loc (rc : RunCmd) (a : Word) (al : Nat) : Loc := if rc.front then rc.dvLoc a al else .ea a al

/-- Row j of a handle that has dereferenced to an entry, in the space of the entry's VI (R120). R278 asks R107 of address words
only, so a row may begin at any byte. DEDUCED (log 117). -/
def HEntry.row (e : HEntry) (h : Word) (j : Nat) : Loc := .dv e.vi (e.addrOf h j) 1

/-- A command that stops at a failed group (R414). -/
def failed (f : Fail) (count : Nat) (flags : Flags) (recs : List Word) : Perf :=
  .done { err := f.code, count := count, flags := flags } (some f) recs

/-- A command refused after acceptance (R274, R401). -/
def refusedCmd : Perf := .done { err := 1, refused := true } (some ⟨1, 0, 0⟩) []

/-- A command that ends well. -/
def doneCmd (count aux : Nat) (flags : Flags) : Perf := .done { count := count, aux := aux, flags := flags } none []

/-- Dereference a handle word for n elements (R120), with what to do for each outcome. -/
def State.withHandle (s : State) (rc : RunCmd) (h : Word) (n : Nat) (write : Bool) (recs : List Word)
    (k : HEntry → State → Perf × State) : Perf × State :=
  match s.deref h n write rc.vi with
  | (.fail c, s) => (failed ⟨c, h, 0⟩ 0 0 recs, s)
  | (.stall _, s) => (.stalled h, s)
  | (.ready e, s) => k e s

/-- Read a whole range, or end the command. -/
def State.withRead (s : State) (rc : RunCmd) (l : Loc) (n count : Nat) (flags : Flags) (recs : List Word)
    (k : List Byte → State → Perf × State) : Perf × State :=
  match s.engRead rc.eng l n with
  | ((_, some f), s) => (failed f count flags recs, s)
  | ((b, none), s) => k b s

/-- Write a whole range, or end the command. -/
def State.withWrite (s : State) (rc : RunCmd) (l : Loc) (b : List Byte) (count : Nat) (flags : Flags)
    (recs : List Word) (k : State → Perf × State) : Perf × State :=
  match s.engWrite rc.eng l b with
  | ((_, some f), s) => (failed f count flags recs, s)
  | ((_, none), s) => k s

/-- Set one status bit of a record in memory (R35, R287). -/
def State.markRecord (s : State) (rc : RunCmd) (a : Word) (bit : Nat) : Option Fail × State :=
  match s.engRead rc.eng (.ea (a + 24) 8) 8 with
  | ((_, some f), s) => (some f, s)
  | ((b, none), s) =>
    let w := s.engWrite rc.eng (.ea (a + 24) 8) (leBytes 8 (leNat b ||| 2 ^ bit))
    (w.1.2, w.2)

/-! ### Bytes on their way to memory (R131, R145) -/

/-- A command whose bytes have landed: it ends as they say, or goes on with the progress they stand for. -/
def landEnd (rc : RunCmd) (l : Landing) (s : State) : Work × State :=
  let rc := { rc with land := none }
  match l.stop, l.ok with
  | some (c, w, d), _ => (.ends rc (.done { l.bad with err := c } (some ⟨c, w, d⟩) l.recs), s)
  | none, some r => (.ends rc (.done r none []), s)
  | none, none => (.more { rc with pos := l.pos, cnt := l.cnt, fl := l.fl, aux := l.aux }, s)

/-- Whether a landing has a group or a mark left. -/
def RunCmd.landing (rc : RunCmd) (l : Landing) : Bool :=
  decide (l.k < groupCount ((rc.loc l.addr l.al).at_ 0) l.bytes.length) || l.mark.isSome

/-- A landing after one of its writes. -/
def landNext (rc : RunCmd) (l : Landing) (s : State) : Work × State :=
  if rc.landing l then (.more { rc with land := some l }, s) else landEnd rc l s

/-- One write of a landing: its next group, or the mark in its record after them. -/
def landUnit (rc : RunCmd) (l : Landing) (s : State) : Work × State :=
  let stop (f : Fail) (s : State) : Work × State :=
    (.ends { rc with land := none } (.done { l.bad with err := f.code } (some f) l.recs), s)
  let at_ := rc.loc l.addr l.al
  let g := groupAt (at_.at_ 0) l.bytes.length l.k
  if l.k < groupCount (at_.at_ 0) l.bytes.length then
    match s.engWrite rc.eng (at_.from_ g.1) ((l.bytes.drop g.1).take g.2) with
    | ((_, some f), s) => stop f s
    | ((_, none), s) => landNext rc { l with k := l.k + 1 } s
  else
    match l.mark with
    | none => landEnd rc l s
    | some m =>
      match s.markRecord rc m.1 m.2 with
      | (some f, s) => stop f s
      | (none, s) => landNext rc { l with mark := none } s

/-- What a command's status would show of the work it has done (R276, R414). -/
def RunCmd.soFar (rc : RunCmd) : CmdRes :=
  { count := if rc.c.code = 0x99 then rc.pos else rc.cnt, flags := rc.fl,
    aux := if rc.c.code = 0xA0 then (if rc.path = 1 then 1 else 0) else rc.aux }

/-! ### COPY, PUBL, PROMO, WBUILD -/

/-- Group k of the destination of a copy (R296, R299, R414): its bytes from the source, whose groups that hold them are checked
before any byte of it is written. The bytes, and the failure, which leaves the whole group unwritten. -/
def State.copyGroup (s : State) (e : Eng) (src dst : Loc) (n k : Nat) : (List Byte × Option Fail) × State :=
  let g := groupAt (dst.at_ 0) n k
  match s.engReadPart e src n g.1 g.2 with
  | ((_, some f), s) => (([], some f), s)
  | ((b, none), s) => let w := s.engWrite e (dst.from_ g.1) b; ((b, w.1.2), w.2)

/-- The space and first byte of a range, to compare two ranges (R296). -/
def State.locSpace (s : State) (rc : RunCmd) (l : Loc) : Nat × Nat :=
  match l with
  | .dv v a _ => (v, a)
  | .wrong a => (128, a.toNat)
  | .ea a _ =>
    if a.fld 63 57 = 0 then (rc.vi, a.toNat)
    else (64 + (s.tileSel rc.tile rc.pk (a.fld 31 21)).getD 0, a.fld 20 0)

/-- One group of a COPY between two located ranges (R296): they may not overlap. -/
def copyUnit (rc : RunCmd) (src dst : Loc) (s : State) : Work × State :=
  let n := rc.c.w3.toNat
  let a := s.locSpace rc src
  let b := s.locSpace rc dst
  if a.1 == b.1 && rangesMeet a.2 b.2 n then (.ends rc refusedCmd, s)
  else
    match s.copyGroup rc.eng src dst n rc.pos with
    | ((_, some f), s) => (.ends rc (failed f (ceilDiv (groupAt (dst.at_ 0) n rc.pos).1 64) 0 []), s)
    | ((_, none), s) =>
      if rc.pos + 1 < groupCount (dst.at_ 0) n then (.more { rc with pos := rc.pos + 1 }, s)
      else (.ends rc (doneCmd (ceilDiv n 64) 0 0), s)

/-- A unit of a command that stands on a handle's dereference (R120). -/
def State.onHandle (s : State) (rc : RunCmd) (h : Word) (n : Nat) (write : Bool) (count : Nat) (recs : List Word)
    (k : HEntry → State → Work × State) : Work × State :=
  match s.deref h n write rc.vi with
  | (.fail c, s) => (.ends rc (failed ⟨c, h, 0⟩ count rc.fl recs), s)
  | (.stall _, s) => (.ends rc (.stalled h), s)
  | (.ready e, s) => k e s

/-- COPY (R296): a handle counts Ceil(len / stride) elements. -/
def workCopy (rc : RunCmd) (s : State) : Work × State :=
  let n := rc.c.w3.toNat
  let at_ (isH : Bool) (w : Word) (write : Bool) (s : State) (k : Loc → State → Work × State) : Work × State :=
    if isH then
      let stride := max 1 (s.plainEntry w).stride
      s.onHandle rc w (ceilDiv n stride) write rc.pos [] (fun e s => k (e.row w 0) s)
    else k (rc.loc w 1) s
  at_ (rc.c.w0.getLsbD 31) rc.c.w1 false s (fun src s =>
    at_ (rc.c.w0.getLsbD 30) rc.c.w2 true s (fun dst s => copyUnit rc src dst s))

/-- The entries of a VI whose stall notice was written, after one of them is rewritten: a change of its tier allows
another notice (R417). -/
def Vi.noticedAfter (v : Vi) (idx : Nat) (e : HEntry) : List Nat :=
  if (v.handles.getD idx noEntry).tier = e.tier then v.noticed else v.noticed.filter (· != idx)

/-- A VI with an entry of its slice rewritten in a cycle: the cycle is kept where the entry's page comes with it (R126, R417). -/
def Vi.writeEntry (v : Vi) (idx : Nat) (e : HEntry) (cycle : Nat) : Vi :=
  { v with
    handles := v.handles.set idx e, noticed := v.noticedAfter idx e
    pubAt := if e.tier = 0 ∧ (v.handles.getD idx noEntry).tier ≠ 0 then v.pubAt.upd idx [] (fun l => cycle :: l) else v.pubAt }

/-- Write an entry of a handle table in one step that every handle cache sees (R126): no older entry is resolved from then
on. -/
def State.publishEntry (s : State) (vi idx : Nat) (e : HEntry) : State :=
  s.updVi vi (fun v => { v.writeEntry idx e s.clk.cycle with hOld := v.hOld.erase idx })

/-- Whether the page of a handle's entry came in time for an access that stalled on it in a cycle: up to and including the cycle of
its time-out (R417). -/
def State.pubInTime (s : State) (h : Word) (since timeout : Nat) : Bool :=
  ((s.vi (hVi h)).pubAt.getD (hIndex h) []).any (fun c => decide (since ≤ c) && decide (c ≤ since + usCycles timeout))

/-- Whether an access that stalled on a handle's entry in a cycle may resume (R120, R417): the page came in time, or the entry is of
tier 0 before the time-out, where an older copy of it made the access stall (R126). -/
def State.mayResume (s : State) (h : Word) (since timeout : Nat) : Bool :=
  s.pubInTime h since timeout || ((s.plainEntry h).tier == 0 && decide (s.clk.cycle ≤ since + usCycles timeout))

/-- The effective page_timeout of an operator (R417). -/
def State.pageTimeoutOf (s : State) (pk : Nat) : Nat :=
  match s.places.find? pk with
  | some p => p.pageTimeout
  | none => 0

/-- Whether an access that stalled on the entry of h before cycle c is to resume and has not: stalled accesses resume in the order in
which they stalled (R126). A stream counts while its operator's cells are there to take it on. -/
def State.stalledBefore (s : State) (h : Word) (c : Nat) : Bool :=
  let on (x : Word) (since : Option Nat) (timeout : Nat) : Bool :=
    hVi x == hVi h && hIndex x == hIndex h &&
    (match since with | some d => decide (d < c) && s.mayResume x d timeout | none => false)
  s.cmds.anyP (fun _ rc => rc.res.isNone && on rc.stallH rc.stall rc.timeout) ||
  s.tiles.anyP (fun t x => x.ags.anyP (fun _ a =>
    match a.run with
    | some r => s.streamHere t r.s && on r.s.w1 r.stall (s.pageTimeoutOf r.s.pk)
    | none => false))

/-- Whether a handle names an entry in use of its own generation (R120). -/
def State.entryLive (s : State) (h : Word) : Bool :=
  decide (hIndex h < (s.vi (hVi h)).slice) && (s.plainEntry h).valid && (s.plainEntry h).gen == hGen h

/-- PUBL (R297, R436): skipped when a command of its round failed. The spec states no count for its status, and it is 0 (log
128). DESIGN CHOICE (log 128). -/
def performPubl (rc : RunCmd) (s : State) : Perf × State :=
  let h := rc.c.w1
  if rc.skip then (.done { err := 0x09 } (some ⟨0x09, h, 0⟩) [], s)
  else if !publOk rc.c rc.vi (s.plainEntry h) then (refusedCmd, s)
  else if !s.entryLive h then (failed ⟨0x18, h, 0⟩ 0 0 [], s)
  else
    let e := s.plainEntry h
    let s := s.publishEntry (hVi h) (hIndex h) { e with w1 := e.w1.put 56 0 (rc.c.w2.fld 56 0) }
    if rc.c.w3 = 0 then (doneCmd 0 0 0, s)
    else s.withWrite rc (.dv rc.vi rc.c.w3.toNat 8) (leBytes 8 rc.c.w4.toNat) 0 0 [] (fun s => (doneCmd 0 0 0, s))

/-- The keys of 64 attic bytes at a device-physical address for a command, or the failure (R114, R444). An address outside the attic
fails with no walk, so which of the levels 5 to 1 of R413 its record names is free (log 100). DEDUCED (log 100). -/
def State.atticKeys (s : State) (rc : RunCmd) (pa : Nat) (rd : Bool) : Res (List Nat) × State :=
  match atticOff pa, atticOff (pa + 63) with
  | some _, some _ =>
    match s.atticFault (keysFrom pa 64) rd with
    | some x => (.error ⟨0x0C, wd pa, x⟩, s.atticNote x (s.workRec rc.tile rc.pk rc.vi rc.domain { loc := wd pa }))
    | none => (.ok (keysFrom pa 64), s)
  | _, _ => let f := s.pick 5; (.error ⟨0x17, wd pa, (f.1 + 1) * 2 ^ 24⟩, f.2)

/-- One group of a page that is promoted: read from the attic, written to HBM (R126). A transfer that a link fails names the
failing page, as a CRC mismatch does (R418, R444). -/
def State.promoteGroup (s : State) (rc : RunCmd) (pa : Nat) (dst : Loc) : Except Fail (List Byte) × State :=
  match s.atticKeys rc pa true with
  | (.error f, s) => (.error (if f.code = 0x0C then { f with loc := wd (pa / 65536 * 65536), detail := rc.cnt } else f), s)
  | (.ok ks, s) =>
    let b := s.readKeys ks
    match s.engWrite rc.eng dst b with
    | ((_, some f), s) => (.error f, s)
    | ((_, none), s) => (.ok b, s)

/-- One group of a page that is demoted: read from HBM, written to the attic (R127). -/
def State.demoteGroup (s : State) (rc : RunCmd) (src pa : Nat) : Except Fail (List Byte) × State :=
  match s.atticKeys rc pa false with
  | (.error f, s) => (.error f, s)
  | (.ok ks, s) =>
    match s.engRead rc.eng (.dv rc.vi src 1) 64 with
    | ((_, some f), s) => (.error f, s)
    | ((b, none), s) => (.ok b, s.writeKeys ks b)

/-- The end of a page whose bytes are all copied: a promoted page must match its tag (R418), a demoted one gets it (R125). -/
def State.promoPageEnd (s : State) (rc : RunCmd) (demote : Bool) (pa : Nat) (b : List Byte) : Option Fail × State :=
  let p := fld pa 40 0 / 65536
  if demote then (none, { s with tags := s.tags.set p (crc32c b) })
  else ((if crc32c b != s.tags.getD p 0 then some ⟨0x1E, wd pa, rc.cnt⟩ else none), s)

/-- PROMO (R298, R126, R127, R418): its entry is read when it begins, then one group of 64 bytes is a unit, and the entry is
published after the last page. -/
def workPromo (rc : RunCmd) (s : State) : Work × State :=
  let h := rc.c.w1
  let e0 := s.plainEntry h
  if rc.pos = 0 && !s.entryLive h then (.ends rc (failed ⟨0x18, h, 0⟩ 0 0 []), s)
  else if rc.pos = 0 && !promoOk rc.c rc.vi e0 then (.ends rc refusedCmd, s)
  else
    let rc := if rc.pos = 0 then { rc with words := [e0.w0, e0.w1, e0.w2, e0.w3] } else rc
    let e : HEntry := ⟨rc.words.getD 0 0, rc.words.getD 1 0, rc.words.getD 2 0, rc.words.getD 3 0⟩
    let pages := ceilDiv (e.bound * e.stride) 65536
    let demote := rc.c.w0.getLsbD 31
    let attic := if demote then rc.c.w2.toNat else e.atticPa
    let off := 64 * rc.pos
    let publish (s : State) : State :=
      let now := s.plainEntry h
      s.publishEntry rc.vi (hIndex h) (if demote then { now with w0 := now.w0.put 45 44 1, w3 := now.w3.put 51 0 (fld attic 51 0) }
        else { now with w0 := now.w0.put 45 44 0, w1 := now.w1.put 56 0 (rc.c.w2.fld 56 0) })
    if pages = 0 then (.ends rc (doneCmd 0 0 0), publish s)
    else match (if demote then s.demoteGroup rc (e.base + off) (attic + off)
      else s.promoteGroup rc (attic + off) (rc.dvLoc (rc.c.w2 + wd off) 1)) with
    | (.error f, s) => (.ends rc (failed f rc.cnt 0 []), s)
    | (.ok b, s) =>
      let buf := rc.buf ++ b
      if buf.length < 65536 then (.more { rc with pos := rc.pos + 1, buf := buf }, s)
      else
        match s.promoPageEnd rc demote (attic + off / 65536 * 65536) buf with
        | (some f, s) => (.ends rc (failed f rc.cnt 0 []), s)
        | (none, s) =>
          if rc.cnt + 1 < pages then (.more { rc with pos := rc.pos + 1, cnt := rc.cnt + 1, buf := [] }, s)
          else (.ends rc (doneCmd pages 0 0), publish s)

/-- The end of a WBUILD page (R299): its bytes against its tag, where there is a tag array. -/
def State.buildPageEnd (s : State) (rc : RunCmd) (b : List Byte) : Option Fail × State :=
  if rc.c.w4 = 0 then (none, s)
  else
    match s.engRead rc.eng (rc.loc (rc.c.w4 + wd (4 * rc.cnt)) 4) 4 with
    | ((_, some f), s) => (some f, s)
    | ((t, none), s) =>
      ((if (crc32c b).toNat != leNat t then some ⟨0x1E, wd (rc.c.w2.toNat + 65536 * rc.cnt), rc.cnt⟩ else none), s)

/-- WBUILD (R299, R418): one group of 64 bytes is a unit. -/
def workWbuild (rc : RunCmd) (s : State) : Work × State :=
  let n := rc.c.w3.toNat
  match s.copyGroup rc.eng (rc.dvLoc rc.c.w2 1) (rc.dvLoc rc.c.w1 1) n rc.pos with
  | ((_, some f), s) => (.ends rc (failed f rc.cnt 0 []), s)
  | ((b, none), s) =>
    let buf := rc.buf ++ b
    if buf.length < 65536 then (.more { rc with pos := rc.pos + 1, buf := buf }, s)
    else
      match s.buildPageEnd rc buf with
      | (some f, s) => (.ends rc (failed f rc.cnt 0 []), s)
      | (none, s) =>
        if 65536 * (rc.cnt + 1) < n then (.more { rc with pos := rc.pos + 1, cnt := rc.cnt + 1, buf := [] }, s)
        else (.ends rc (doneCmd (rc.cnt + 1) 0 0), s)

/-! ### Cellar engines (R114, R281, R433) -/

/-- The cellar engine of a local HBM byte (R114): 32 for each stack, by channel. -/
def engineOfPa (pa : Nat) : Option Nat := if pa < 2 ^ 40 then some (fld pa 39 36 * 32 + fld pa 12 8) else none

/-- The cellar engine that holds a device-virtual byte of a VI. -/
def State.engineAt (s : State) (vi a : Nat) : Option Nat :=
  match s.walk vi (a / 65536 * 65536) true false with
  | .error _ => none
  | .ok w =>
    match s.physTarget false (w.frame + a % 65536) with
    | .error _ => none
    | .ok k => engineOfPa k

/-- The cellar engines that hold n bytes of a VI, one look for each 256-byte granule (R114). -/
def State.enginesOf (s : State) (vi a n : Nat) : List Nat :=
  ((List.range ((a + n - 1) / 256 + 1 - a / 256)).filterMap (fun g => s.engineAt vi (max a ((a / 256 + g) * 256)))).eraseDups

/-- Whether n bytes need a cellar engine that has failed (R433). -/
def State.engineDown (s : State) (vi a n : Nat) : Bool :=
  !s.dev.failedEngines.isEmpty && (s.enginesOf vi a n).any s.dev.failedEngines.contains

/-! ### IRED (R289, R290) -/

/-- One row of a table as FW40 values (R278, R289). -/
def rowFw (fmt kind n : Nat) (tab : Nat → BitVec 16) (b : List Byte) : List Fw × Flags :=
  if kind = 0 then
    let l := (rawElems fmt n b).map (decodeElem fmt false tab)
    (l.map Prod.fst, l.foldl (fun f p => f ||| p.2) 0)
  else
    let r := decodeRow fmt kind n tab b
    let l := r.1.map (·.toFw .rne)
    (l.map Prod.fst, l.foldl (fun f p => f ||| p.2) r.2)

/-- Combine two rows by FADD or FMAX (R289). -/
def combineRows (mx : Bool) (a b : List Fw) : List Fw × Flags :=
  let l := List.zipWith (fun x y => if mx then fminmax true x y else fadd .rne x y) a b
  (l.map Prod.fst, l.foldl (fun f p => f ||| p.2) 0)

/-- One bag of a gather over index words (R289): its rows are read, then its bytes land. `i` counts the index words taken. -/
def gatherBag (rc : RunCmd) (mx : Bool) (fmt kind w rb : Nat) (tab : Nat → BitVec 16) :
    List Nat → Nat → Option (List Fw) → Flags → State → Work × State
  | [], _, _, fl, s => (.ends rc (doneCmd rc.cnt 0 fl), s)
  | x :: xs, i, acc, fl, s =>
    let stop (f : Fail) (s : State) : Work × State := (.ends rc (failed f rc.cnt fl []), s)
    let next (acc : Option (List Fw)) (fl : Flags) (s : State) : Work × State :=
      if bitOf x 31 then
        let l : Landing :=
          { addr := rc.c.w3 + wd (8 * w * rc.cnt), al := 8, bytes := containers (acc.getD (List.replicate w 0)), pos := i + 1,
            cnt := rc.cnt + 1, fl := fl, ok := if xs.isEmpty then some { count := rc.cnt + 1, flags := fl } else none,
            bad := { count := rc.cnt, flags := fl } }
        (.more { rc with land := some l }, s)
      else gatherBag rc mx fmt kind w rb tab xs (i + 1) acc fl s
    if x % 2 ^ 31 = 0x7FFFFFFF then next acc fl s
    else
      let h := rc.c.w1
      let pos := hOffset h + x % 2 ^ 31
      if pos ≥ 2 ^ 26 then stop ⟨0x1B, h, 0⟩ s
      else
        let hp := h.put 25 0 pos
        match s.deref hp 1 false rc.vi with
        | (.fail c, s) => stop ⟨c, h, 0⟩ s
        | (.stall _, s) => (.ends rc (.stalled h), s)
        | (.ready e, s) =>
          if s.engineDown e.vi (e.addrOf hp 0) rb then stop ⟨7, 0, 0⟩ s
          else if e.stride < rb then
            (.ends rc (.done { err := 1, count := rc.cnt, flags := fl, refused := true } (some ⟨1, h, 0⟩) []), s)
          else
            match s.engRead rc.eng (e.row hp 0) rb with
            | ((_, some f), s) => stop f s
            | ((b, none), s) =>
              let r := rowFw fmt kind w tab b
              match acc with
              | none => next (some r.1) (fl ||| r.2) s
              | some a =>
                let m := combineRows mx a r.1
                next (some m.1) (fl ||| r.2 ||| m.2) s

/-- Index words as numbers. -/
def idxWords (b : List Byte) : List Nat := (chunksOf 4 b).map leNat

/-- IRED, gather-sum and gather-max (R289): the last index word must end a bag, and the table's stride must cover a row (R278).
A bag is a unit. DEDUCED (log 99). -/
def workGather (rc : RunCmd) (s : State) : Work × State :=
  let fmt := rc.c.w0.fld 29 26
  let kind := rc.c.w0.fld 25 23
  let n := rc.c.w4.fld 63 48
  let w := rc.c.w4.fld 47 36
  match s.engRead rc.eng (rc.loc rc.c.w2 4) (4 * n) with
  | ((_, some f), s) => (.ends rc (failed f rc.cnt rc.fl []), s)
  | ((b, none), s) =>
    let idx := idxWords b
    if !bitOf (idx.getLastD 0) 31 then (.ends rc refusedCmd, s)
    else if s.entryLive rc.c.w1 && decide ((s.plainEntry rc.c.w1).stride < rowBytes fmt kind w) then (.ends rc refusedCmd, s)
    else
      let t := if rc.words.isEmpty then s.takeTable else ((rc.words.headD 0).toNat, s)
      gatherBag { rc with words := [wd t.1] } (rc.c.w0.fld 31 30 == 1) fmt kind w (rowBytes fmt kind w) (engTable t.1)
        (idx.drop rc.pos) rc.pos none rc.fl t.2

/-- The AMO operation of an aop code (R290). -/
def aopOf (n : Nat) : AmoOp :=
  match n with
  | 0 => .add
  | 1 => .min
  | 2 => .max
  | 3 => .and
  | 4 => .or
  | 5 => .xor
  | 6 => .xchg
  | _ => .cas

/-- IRED, memory-side atomic (R139, R290): the sector leaves the die cache before the cellar engine performs it, whether or not it
writes, and the old value is written to res as a plain write. -/
def performAtomic (rc : RunCmd) (s : State) : Perf × State :=
  let w := if rc.c.w0.getLsbD 25 then 8 else 4
  match s.engKeys rc.eng (.dv rc.vi rc.c.w2.toNat w) 0 w true true with
  | (.error f, s) => (failed f 0 0 [], s)
  | (.ok ks, s) =>
    if s.engineDown rc.vi rc.c.w2.toNat w then (failed ⟨7, 0, 0⟩ 0 0 [], s)
    else if s.badRead ks then (failed ⟨0x1D, rc.c.w2, 0⟩ 0 0 [], s)
    else
      let x := s.readWord ks
      let e := amoEffect (aopOf (rc.c.w0.fld 29 26)) w x rc.c.w3.toNat rc.c.w4.toNat
      let s := match e.1 with
        | some v => s.engineStore ks (leBytes w v)
        | none => s.engineSync ks
      if rc.c.w1 = 0 then (doneCmd 1 0 0, s)
      else s.withWrite rc (rc.loc rc.c.w1 w) (leBytes w x) 0 0 [] (fun s => (doneCmd 1 0 0, s))

/-! ### MV (R279, R280) -/

/-- Rows of W as exact values, by rising row: the rows read before the first failing group. -/
def readRows (rc : RunCmd) (fmt kind k rb : Nat) (tab : Nat → BitVec 16) (at_ : Nat → Loc) :
    Nat → Nat → List (List Ex) → Flags → State → ((List (List Ex) × Flags) × Option Fail) × State
  | 0, _, acc, fl, s => (((acc.reverse, fl), none), s)
  | n + 1, j, acc, fl, s =>
    match s.engRead rc.eng (at_ j) rb with
    | ((_, some f), s) => (((acc.reverse, fl), some f), s)
    | ((b, none), s) =>
      let r := decodeRow fmt kind k tab b
      readRows rc fmt kind k rb tab at_ n (j + 1) (r.1 :: acc) (fl ||| r.2) s

/-- The bytes of a row of Y at an address that are performed before a failure at the next element: its whole groups
(R414). -/
def wholeGroups (a : Nat) (fmt n : Nat) (y : List Byte) : List Byte :=
  let len := n * elemBits fmt / 8
  y.take (len - (a + len) % 64)

/-- Row b of Y (R280): row b of X against every row of W. With `stop`, W's rows end at one that fails. The flags so far, the
address and the bytes of the row's store, and the failure that ends the command without it. -/
def mvRow (rc : RunCmd) (mode : Rnd) (smode : Nat) (ws : List (List Ex)) (stop : Option Fail) (tab : Nat → BitVec 16) (b : Nat)
    (fl : Flags) (s : State) : (Flags × Word × List Byte × Option Fail) × State :=
  let xf := rc.c.w0.fld 18 15
  let xk := rc.c.w0.fld 14 12
  let yf := rc.c.w0.fld 11 8
  let k := rc.c.w4.fld 56 37
  let split := rc.c.w0.fld 29 26
  let xb := rowBytes xf xk k
  match s.engRead rc.eng (rc.loc (rc.c.w2 + wd (b * roundUp xb 64)) (elemBytes xf)) xb with
  | ((_, some f), s) => ((fl, 0, [], some f), s)
  | ((bs, none), s) =>
    let x := decodeRow xf xk k tab bs
    let vs := ws.map (fun w => if split = 0 then dot mode x.1 w else treeDot mode (split + 1) x.1 w)
    let st := vs.map (fun v => storeElem yf smode false v.1)
    let fl := (vs ++ st.map (fun p => ((0 : Fw), p.2))).foldl (fun f p => f ||| p.2) (fl ||| x.2)
    let y := packElems yf (st.map Prod.fst)
    let a := rc.c.w3 + wd (b * roundUp (packedBytes yf (rc.c.w4.fld 36 17)) 64)
    ((fl, a, if stop.isSome then wholeGroups ((rc.loc a 1).at_ 0) yf ws.length y else y, none), s)

/-- Effective rounding of the issuing operator (R280, R278). -/
def State.roundOf (s : State) (pk : Nat) : Rnd :=
  match s.places.find? pk with
  | some p => Rnd.ofField p.round
  | none => .rne
def State.storeRoundOf (s : State) (pk : Nat) : Nat :=
  match s.places.find? pk with
  | some p => p.storeRound
  | none => 0

/-- MV (R280) once its path is chosen: for a row of Y, W's rows are read in one unit, and then its bytes land. -/
def workMv (rc : RunCmd) (s : State) : Work × State :=
  let wf := rc.c.w0.fld 25 22
  let wk := rc.c.w0.fld 21 19
  let k := rc.c.w4.fld 56 37
  let n := rc.c.w4.fld 36 17
  let rb := rowBytes wf wk k
  let aux := if rc.path = 1 then 1 else 0
  let run (at_ : Nat → Loc) (s : State) : Work × State :=
    let t := if rc.words.isEmpty then s.takeTable else ((rc.words.headD 0).toNat, s)
    let rc := { rc with words := [wd t.1] }
    match readRows rc wf wk k rb (engTable t.1) at_ n 0 [] rc.fl t.2 with
    | (((ws, fl), stop), s) =>
      match mvRow rc (s.roundOf rc.pk) (s.storeRoundOf rc.pk) ws stop (engTable t.1) rc.pos fl s with
      | ((fl, _, _, some f), s) =>
        (.ends rc (.done { err := f.code, count := rc.pos, aux := aux, flags := fl } (some f) []), s)
      | ((fl, a, y, none), s) =>
        let l : Landing :=
          { addr := a, al := elemBytes (rc.c.w0.fld 11 8), bytes := y, pos := rc.pos + 1, cnt := rc.pos + 1, fl := fl,
            stop := stop.map (fun f => (f.code, f.loc, f.detail)),
            ok := if rc.pos + 1 < rc.c.w4.fld 63 57 then none else some { count := rc.pos + 1, aux := aux, flags := fl },
            bad := { count := rc.pos, aux := aux, flags := fl } }
        (.more { rc with land := some l }, s)
  if rc.c.w0.fld 31 30 = 1 then
    s.onHandle rc rc.c.w1 n false rc.pos [] (fun e s =>
      if e.stride < rb then (.ends rc refusedCmd, s) else run (e.row rc.c.w1) s)
  else run (fun j => rc.loc (rc.c.w1 + wd (j * roundUp rb 8)) (elemBytes wf)) s

/-! ### SCOUT (R283, R284) -/

/-- FMAX over a list, with flags (R190); the list is not empty. -/
def fmaxList : List Fw → Fw × Flags
  | [] => (fwInf true, 0)
  | x :: xs => xs.foldl (fun a y => let r := fminmax true a.1 y; (r.1, a.2 ||| r.2)) (x, 0)

/-- The marks of one query row (R284), and the flags its arithmetic raised. -/
def scoutRow (theta : Ex) (sTile tiles : Nat) (q : List Ex) (keys : List (List Ex)) : List Nat × Flags :=
  let sc := keys.map (fun k => dot .rne q k)
  let bnd := (chunksOf sTile (sc.map Prod.fst)).map fmaxList
  let top := fmaxList (bnd.map Prod.fst)
  let marks := (List.range tiles).filter (fun t =>
    let d := exSum .rne [Ex.ofFw (bnd.getD t (0, 0)).1, (Ex.ofFw top.1).neg, theta]
    t == 0 || t == tiles - 1 || (!d.isNan && !(d.lt (.zero false))))
  (marks, (sc ++ bnd).foldl (fun f p => f ||| p.2) top.2)

/-- SCOUT: all 512 bits of the mask register are written in one step, before the completion. -/
def performScout (rc : RunCmd) (s : State) : Perf × State :=
  let mq := rc.c.w0.fld 31 29
  let r := 2 ^ rc.c.w0.fld 28 27
  let sT := 16 * 2 ^ rc.c.w0.fld 26 25
  let d := rc.c.w0.fld 24 17 + 1
  let l := rc.c.w4.fld 63 40
  let w := 512 / r
  let theta := Ex.ofFw (rc.c.w3.setWidth 40)
  let rb := packedBytes 3 d + 2
  s.withHandle rc rc.c.w1 l false [] (fun e s =>
    if e.stride < rb then (refusedCmd, s)
    else
      let keys := (List.range l).foldl (fun (acc : (List (List Ex) × Flags × Option Fail) × State) j =>
        match acc.1.2.2 with
        | some _ => acc
        | none =>
          match acc.2.engRead rc.eng (e.row rc.c.w1 j) rb with
          | ((_, some f), s) => ((acc.1.1, acc.1.2.1, some f), s)
          | ((b, none), s) =>
            let sc := bf16Fw (leNat ((b.drop (packedBytes 3 d)).take 2))
            let row := (rawElems 3 d b).map (fun x => (elemEx 3 (fun _ => 0) x).mul (Ex.ofFw sc.1))
            ((row :: acc.1.1, acc.1.2.1 ||| sc.2, none), s)) (([], 0, none), s)
      match keys with
      | ((_, fl, some f), s) => (failed f 0 fl [], s)
      | ((ks, fl, none), s) =>
        let rows := (List.range r).foldl (fun (acc : (List (List Ex) × Flags × Option Fail) × State) i =>
          match acc.1.2.2 with
          | some _ => acc
          | none =>
            match acc.2.engWords rc.eng (rc.loc (rc.c.w2 + wd (8 * i * (d + 2))) 8) d with
            | (.error f, s) => ((acc.1.1, acc.1.2.1, some f), s)
            | (.ok ws, s) =>
              let st := (fwOf ws).map (fun x => storeElem 7 0 false x)
              (((acc.1.1 ++ [st.map (fun p => taperedEx 5 p.1)]), st.foldl (fun f p => f ||| p.2) acc.1.2.1, none), s))
          (([], fl, none), s)
        match rows with
        | ((_, fl, some f), s) => (failed f 0 fl [], s)
        | ((qs, fl, none), s) =>
          let out := qs.map (fun q => scoutRow theta sT (ceilDiv l sT) q ks.reverse)
          let mask := maskOf 512 (out.zipIdx.flatMap (fun p => p.1.1.map (p.2 * w + ·)))
          let s := s.updOpr rc.tile (keySlot rc.pk) (fun o => { o with m := o.m.set mq mask })
          (doneCmd r 0 (out.foldl (fun f p => f ||| p.2) fl), s))

/-! ### ATTN (R285 to R288, R329 to R335) -/

/-- Fields of a query row's attention header word (R34). -/
def ahKind (w : Word) : Nat := w.fld 63 62
def ahPos (w : Word) : Nat := w.fld 41 18
def ahParent (w : Word) : Nat := w.fld 9 4
def ahMode (w : Word) : Nat := w.fld 3 0

/-- The rows from a draft row up to its root (R331), the row first; none where the chain leaves the command, meets a row
that is no draft row, or does not end in 63 steps. -/
def draftChain (hs : List Word) : Nat → Nat → Option (List Nat)
  | 0, _ => none
  | fuel + 1, r =>
    match hs[r]? with
    | none => none
    | some h =>
      if ahKind h != 2 then none
      else if ahParent h = r then some [r]
      else (draftChain hs fuel (ahParent h)).map (r :: ·)

/-- Whether the query rows' headers pass the checks of R330 and R331. R331 states its checks of a chain and a position for every draft
row, and asks the whole group in the command for modes 9 and 10 alone; a draft row of any mode is refused here whose chain leaves
the command (log 143). DESIGN CHOICE (log 143). -/
def headersOk (hs : List Word) : Bool :=
  hs.zipIdx.all (fun p =>
    let m := ahMode p.1
    if m ≥ 11 then false
    else if m ≥ 9 || ahKind p.1 == 2 then
      match draftChain hs 64 p.2 with
      | none => false
      | some ch => ahPos p.1 == ahPos (hs.getD (ch.getLastD 0) 0) + (ch.length - 1)
    else true)

/-- Whether key j at position p is visible to query row r (R329, R330). -/
def keyVisible (hs : List Word) (rows r j p : Nat) : Bool :=
  let h := hs.getD r 0
  let m := ahMode h
  let chain := (draftChain hs 64 r).getD []
  if ahKind h = 3 then false
  else if m = 0 then decide (p ≤ ahPos h)
  else if m ≤ 7 then decide (p ≤ ahPos h) && decide (ahPos h < p + 2 ^ (m + 8))
  else if m = 8 then true
  else if m = 9 then decide (p < ahPos (hs.getD (chain.getLastD 0) 0))
  else decide (j < rows) && chain.contains j

/-- The triple of one tile of keys for a query row (R286). -/
def tileTriple (q : List Ex) (d : Nat) (keys : List (List Ex × List Ex)) : Triple × Flags :=
  match keys with
  | [] => (identityTriple d, 0)
  | ks =>
    let sc := ks.map (fun k => dot .rne q k.1)
    let m := fmaxList (sc.map Prod.fst)
    let p := sc.map (fun x =>
      if (Ex.ofFw x.1).eqv (Ex.ofFw m.1) then (fwOne, (0 : Flags))
      else
        let t := toQ824 (exSum .rne [Ex.ofFw x.1, (Ex.ofFw m.1).neg])
        let e := cexp2 t.1
        (e.1, t.2 ||| e.2))
    let pe := p.map (fun x => Ex.ofFw x.1)
    let l := chunkSum .rne pe
    let v := (List.range d).map (fun i => chunkSum .rne (List.zipWith (fun a k => a.mul (k.2.getD i (.zero false))) pe ks))
    (m.1 :: l.1 :: v.map Prod.fst, (sc ++ p ++ v).foldl (fun f x => f ||| x.2) (m.2 ||| l.2))

/-- The output of row r (R285, R287): its bytes, flags and bit of aux, and whether its record is marked fully_masked; with norm
the normalised triple. -/
def attnOut (norm : Bool) (r : Nat) (hdr word1 : Word) (t : Triple) : List Byte × Flags × Nat × Bool :=
  if norm then
    let n := normaliseTriple t
    (containers n.1.1, n.2, if n.1.2 then 2 ^ r else 0, n.1.2 && word1 != 0 && ahKind hdr != 3)
  else (containers t, 0, 0, false)

/-- Row r of ATTN's output: its Result, whose bytes then land. -/
def attnRow (rc : RunCmd) (norm : Bool) (d r : Nat) (rows : List (List Word)) (recs : List Word)
    (result : Nat → State → (Triple × Flags × Option Fail) × State) (s : State) : Work × State :=
  match result r s with
  | ((_, f2, some f), s) => (.ends rc (.done { err := f.code, aux := rc.aux, flags := rc.fl ||| f2 } (some f) recs), s)
  | ((t, f2, none), s) =>
    let row := rows.getD r []
    let o := attnOut norm r (row.getD 0 0) (row.getD 1 0) t
    let fl := rc.fl ||| f2 ||| o.2.1
    let l : Landing :=
      { addr := rc.c.w3 + wd (8 * r * (d + 2)), al := 8, bytes := o.1, pos := rc.pos + 1, cnt := 0, fl := fl,
        aux := rc.aux ||| o.2.2.1, mark := if o.2.2.2 then some (row.getD 1 0, 55) else none,
        ok := if r + 1 < rows.length then none else some { count := r + 1, aux := rc.aux ||| o.2.2.1, flags := fl },
        bad := { aux := rc.aux, flags := fl }, recs := recs }
    (.more { rc with land := some l }, s)

/-- Read the K and V parts of keys of a list (R285): only visible keys are read. -/
def readKeysKv (rc : RunCmd) (fmt kind d : Nat) (tab : Nat → BitVec 16) (at_ : Nat → Loc) :
    List Nat → State → ((List (List Ex × List Ex) × Flags) × Option Fail) × State
  | [], s => ((([], 0), none), s)
  | j :: js, s =>
    let rb := rowBytes fmt kind d
    match s.engRead { rc.eng with near := true } (at_ j) (2 * rb) with
    | ((_, some f), s) => ((([], 0), some f), s)
    | ((b, none), s) =>
      let k := decodeRow fmt kind d tab (b.take rb)
      let v := decodeRow fmt kind d tab (b.drop rb)
      match readKeysKv rc fmt kind d tab at_ js s with
      | (((l, fl), f), s) => ((((k.1, v.1) :: l, k.2 ||| v.2 ||| fl), f), s)

/-- The triple of key tile t for query row r (R286): only visible keys of a marked tile are read. -/
def attnTile (rc : RunCmd) (hs : List Word) (row : List Word) (tab : Nat → BitVec 16) (at_ : Nat → Loc) (r t : Nat) (s : State) :
    (Triple × Flags × Option Fail) × State :=
  let nr := 2 ^ rc.c.w0.fld 27 26
  let sT := 16 * 2 ^ rc.c.w0.fld 25 24
  let d := rc.c.w0.fld 23 16 + 1
  let l := rc.c.w4.fld 63 40
  let vis := if rc.c.w0.getLsbD 28 && !rc.mask.getLsbD (r * (512 / nr) + t) then [] else
    ((List.range (min sT (l - t * sT))).map (t * sT + ·)).filter (fun j => keyVisible hs nr r j (rc.c.w4.fld 39 16 + j))
  match readKeysKv rc (rc.c.w0.fld 15 12) (rc.c.w0.fld 11 9) d tab at_ vis s with
  | (((_, fl), some f), s) => (([], fl, some f), s)
  | (((ks, fl), none), s) =>
    let tr := tileTriple ((fwOf (row.drop 2)).map Ex.ofFw) d ks
    ((tr.1, fl ||| tr.2, none), s)

/-- Key tile t for every query row: the partial triples with it, or the failure. -/
def attnTiles (rc : RunCmd) (hs : List Word) (rows : List (List Word)) (tab : Nat → BitVec 16) (at_ : Nat → Loc) (t : Nat)
    (s : State) : (RunCmd × Option Fail) × State :=
  rows.zipIdx.foldl (fun (acc : (RunCmd × Option Fail) × State) q =>
    match acc.1.2 with
    | some _ => acc
    | none =>
      match attnTile acc.1.1 hs q.1 tab at_ q.2 t acc.2 with
      | ((tr, fl, f), s) =>
        (({ acc.1.1 with fl := acc.1.1.fl ||| fl, parts := acc.1.1.parts.upd q.2 [] (fun l => l ++ [tr]) }, f), s))
    ((rc, none), s)

/-- Result(r) of R286: a row's tile triples merged by PairTree. -/
def attnResult (rc : RunCmd) (d tiles r : Nat) (s : State) : (Triple × Flags × Option Fail) × State :=
  let m := pairTree mergeTriple tiles ((rc.parts.getD r []).map some)
  ((m.1.getD (identityTriple d), m.2, none), s)

/-- The triple found at an output slot (R335). -/
def slotTriple (rc : RunCmd) (d r : Nat) (s : State) : (Triple × Flags × Option Fail) × State :=
  match s.engWords rc.eng (rc.loc (rc.c.w3 + wd (8 * r * (d + 2))) 8) (d + 2) with
  | (.error f, s) => (([], 0, some f), s)
  | (.ok ws, s) => ((fwOf ws, 0, none), s)

/-- The query rows in the words of a query block. -/
def queryRows (d : Nat) (ws : List Word) : List (List Word) := chunksOf (d + 2) ws

/-- The records that query rows name (R285, R416, R417). -/
def rowRecords (rows : List (List Word)) : List Word :=
  rows.filterMap (fun row => if row.getD 1 0 != 0 && ahKind (row.getD 0 0) != 3 then some (row.getD 1 0) else none)

/-- The query block of a command that has begun its work (R285). -/
def RunCmd.query (rc : RunCmd) : List (List Word) := queryRows (rc.c.w0.fld 23 16 + 1) (rc.words.drop 1)

/-- The start of ATTN's work (R285, R330, R331): its query block is read and its headers checked. The rows named before a group
that fails are those it ejects. -/
def attnBegin (rc : RunCmd) (s : State) : Work × State :=
  let nr := 2 ^ rc.c.w0.fld 27 26
  let d := rc.c.w0.fld 23 16 + 1
  match s.engRead rc.eng (rc.loc rc.c.w2 8) (8 * nr * (d + 2)) with
  | ((b, some f), s) => (.ends rc (failed f 0 0 (rowRecords (queryRows d (wordsOf b)))), s)
  | ((b, none), s) =>
    let t := s.takeTable
    let rc := { rc with words := wd t.1 :: wordsOf b, pos := 1 }
    if headersOk (rc.query.map (·.getD 0 0)) then (.more rc, t.2) else (.ends rc refusedCmd, t.2)

/-- ATTN (R285 to R288): after its query block, a key tile of every row is a unit, with the partial triples held between them;
then each output row, whose bytes land. Its normalise-only form has no keys (R335): there the triple of a pad row is the one in its
slot too, as for each row (log 144). DESIGN CHOICE (log 144). -/
def workAttn (rc : RunCmd) (s : State) : Work × State :=
  let nr := 2 ^ rc.c.w0.fld 27 26
  let d := rc.c.w0.fld 23 16 + 1
  let l := rc.c.w4.fld 63 40
  let norm := rc.c.w0.getLsbD 7
  let fmt := rc.c.w0.fld 15 12
  let rb := 2 * rowBytes fmt (rc.c.w0.fld 11 9) d
  let tiles := ceilDiv l (16 * 2 ^ rc.c.w0.fld 25 24)
  let rows := rc.query
  let hs := rows.map (·.getD 0 0)
  let recs := rowRecords rows
  let tile (at_ : Nat → Loc) (s : State) : Work × State :=
    match attnTiles rc hs rows (engTable (rc.words.headD 0).toNat) at_ (rc.pos - 1) s with
    | ((rc, some f), s) => (.ends rc (failed f 0 rc.fl recs), s)
    | ((rc, none), s) => (.more { rc with pos := rc.pos + 1 }, s)
  if rc.pos = 0 then attnBegin rc s
  else if l = 0 ∧ !norm then (.ends rc (doneCmd nr 0 0), s)
  else if tiles < rc.pos then
    attnRow rc norm d (rc.pos - tiles - 1) rows recs (if l = 0 then slotTriple rc d else attnResult rc d tiles) s
  else if rc.c.w0.getLsbD 8 then tile (fun j => rc.loc (rc.c.w1 + wd (j * roundUp rb 8)) (elemBytes fmt)) s
  else
    s.onHandle rc rc.c.w1 l false 0 recs (fun e s =>
      if e.stride < rb then (.ends rc refusedCmd, s) else tile (e.row rc.c.w1) s)

/-! ### Sampling (R293 to R295, R434) -/

/-- A sampling configuration (R293). -/
structure SampleCfg where
  c : Fw
  topK : Nat
  topP : Nat
  seed : Word
  pos : Nat
  draw : Nat
  out : Nat
  deriving DecidableEq, Repr, Inhabited

/-- The configuration in 32 bytes, or none where R434 refuses it. Bits [63:40] of word 0, which R293 neither names nor calls
reserved, are ignored as those of a container are (R69; log 138). DESIGN CHOICE (log 138). -/
def cfgOf (ws : List Word) : Option SampleCfg :=
  let w0 := ws.getD 0 0
  let w1 := ws.getD 1 0
  let w3 := ws.getD 3 0
  let c : Fw := w0.setWidth 40
  let badC := match Ex.ofFw c with
    | .zero _ => false
    | .fin n _ _ => n
    | _ => true
  if w1.fld 63 57 == 0 || decide (64 < w1.fld 63 57) || w1.fld 56 32 != 0 || w3.fld 31 21 != 0 ||
     badC || w3.fld 20 0 % 128 != 0 then none
  else some
    { c := c, topK := w1.fld 63 57, topP := w1.fld 31 0, seed := ws.getD 2 0, pos := w3.fld 63 40,
      draw := w3.fld 39 32, out := w3.fld 20 0 }

/-- Greedy: c is a zero of either sign (R293, R294). -/
def SampleCfg.greedy (c : SampleCfg) : Bool :=
  match Ex.ofFw c.c with
  | .zero _ => true
  | _ => false

/-- Whether candidate x ranks ahead of y (R294): larger q, then lower token. -/
def ranksAhead (x y : Int × Nat) : Bool := decide (y.1 < x.1) || (x.1 == y.1 && decide (x.2 < y.2))

/-- Insert a candidate in rank order, keeping at most k. -/
def insertCand (k : Nat) (x : Int × Nat) : List (Int × Nat) → List (Int × Nat)
  | [] => [x]
  | y :: ys => if ranksAhead x y then (x :: y :: ys).take k else (y :: insertCand k x ys).take k

/-- The top k candidates in rank order. -/
def topCands (k : Nat) (l : List (Int × Nat)) : List (Int × Nat) := l.foldl (fun acc x => insertCand k x acc) []

/-- Exact value of u / 2^32. -/
def frac32 (u : Nat) : Ex := if u = 0 then .zero false else .fin false u (-32)

/-- Cumulative sums of weights (R294). -/
def cumSums : Fw → List Fw → List (Fw × Flags)
  | _, [] => []
  | acc, w :: ws => let r := fadd .rne acc w; (r.1, r.2) :: cumSums r.1 ws

/-- The token a ranked candidate list draws (R294): top-p and the draw. -/
def drawToken (cfg : SampleCfg) (cs : List (Int × Nat)) : Nat × Flags :=
  match cs with
  | [] => (0xFFFFFFFF, 0)
  | c0 :: rest =>
    let ws := rest.map (fun c => cexp2 (max (c.1 - c0.1) (-(2 ^ 31 : Int))))
    let sums := (fwOne, (0 : Flags)) :: cumSums fwOne (ws.map Prod.fst)
    let sv := sums.map (fun p => Ex.ofFw p.1)
    let total := sv.getLastD (.zero false)
    let n := if cfg.topP = 0 then cs.length else
      ((List.range cs.length).find? (fun i => !((sv.getD i (.zero false)).lt ((frac32 cfg.topP).mul total)))).getD
        (cs.length - 1) + 1
    let u := ((philox cfg.seed (BitVec.ofNat 32 cfg.pos) (BitVec.ofNat 32 cfg.draw) 0 0).headD 0).toNat
    let lim := (frac32 u).mul (sv.getD (n - 1) (.zero false))
    let i := ((List.range n).find? (fun i => lim.lt (sv.getD i (.zero false)))).getD (n - 1)
    ((cs.getD i c0).2, (ws ++ sums).foldl (fun f p => f ||| p.2) 0)

/-- The token of a candidate list under a configuration: greedy takes rank 0 (R294). -/
def pickToken (cfg : SampleCfg) (l : List (Int × Nat)) : Nat × Flags :=
  let cs := topCands cfg.topK l
  if cfg.greedy then ((cs.getD 0 (0, 0xFFFFFFFF)).2, 0) else drawToken cfg cs

/-- A drawn token on its way to carry word C0 of the record at rec, with no_admissible when there is none (R294). -/
def tokenLanding (cfg : SampleCfg) (tok : Nat) (none_ : Bool) (count aux : Nat) (fl : Flags) (recs : List Word) : Landing :=
  let a := ownTileAddr cfg.out
  { addr := a + 32, al := 8, bytes := leBytes 8 (tok % 2 ^ 32), pos := 1, cnt := 0, fl := fl,
    mark := if none_ then some (a, 54) else none,
    ok := some { count := count, aux := if none_ then aux ||| 1 else aux, flags := fl }, bad := { flags := fl }, recs := recs }

/-- A candidate-list entry (R295). -/
def candBytes (c : Int × Nat) : List Byte := leBytes 8 ((c.1 % 2 ^ 32).toNat * 2 ^ 32 + c.2 % 2 ^ 32)

/-- An unused entry of a candidate list (R295). -/
def noCand : Int × Nat := (-(2 ^ 31), 0xFFFFFFFF)

/-- SAMPLE (R293, R294, R434); its list or its token lands in groups. The spec states no count for its status, and it is 1 (log
128). DEDUCED (log 101). DESIGN CHOICE (log 128). -/
def performSample (rc : RunCmd) (s : State) : Perf × State :=
  let list := rc.c.w0.getLsbD 31
  let v := rc.c.w4.fld 63 32
  let base := rc.c.w4.fld 31 0
  let gm := rc.c.w2
  match s.engWords rc.eng (rc.loc rc.c.w3 8) 4 with
  | (.error f, s) => (failed f 0 0 [], s)
  | (.ok ws, s) =>
    match cfgOf ws with
    | none => (refusedCmd, s)
    | some cfg =>
      let recs := if list then [] else [ownTileAddr cfg.out]
      let body (mask : Nat → Bool) (s : State) : Perf × State :=
        s.withRead rc (rc.loc rc.c.w1 8) (8 * v) 0 0 recs (fun b s =>
          let lg := fwOf (wordsOf b)
          let adm := (lg.zipIdx).filter (fun p => mask p.2)
          let nan := adm.any (fun p => isNaN p.1)
          let adm := adm.filter (fun p => !isNaN p.1)
          let c := if cfg.greedy then fwOne else cfg.c
          let qs := adm.map (fun p => (toQ824 ((Ex.ofFw p.1).mul (Ex.ofFw c)), (base + p.2) % 2 ^ 32))
          let fl := qs.foldl (fun f q => f ||| q.1.2) (flagIf nan flagInvalid)
          let aux := if nan then 2 else 0
          let cands := qs.map (fun q => (q.1.1, q.2))
          if list then
            let cs := topCands cfg.topK cands
            let out := (cs ++ List.replicate (64 - cs.length) noCand).flatMap candBytes
            (.lands
              { addr := ownTileAddr cfg.out, al := 8, bytes := out, pos := 1, cnt := 0, fl := fl,
                ok := some { count := 1, aux := if cands.isEmpty then aux ||| 1 else aux, flags := fl }, bad := { flags := fl } }, s)
          else
            let t := pickToken cfg cands
            (.lands (tokenLanding cfg t.1 cands.isEmpty 1 aux (fl ||| t.2) recs), s))
      if gm = 0 then body (fun _ => true) s
      else
        let e := s.plainEntry gm
        if s.entryLive gm && (!e.grammar || e.stride != 1) then (refusedCmd, s)
        else
          s.withHandle rc gm (ceilDiv v 8) false recs (fun e s =>
            s.withRead rc (e.row gm 0) (ceilDiv v 8) 0 0 recs (fun m s =>
              body (fun t => (m.getD (t / 8) 0).getLsbD (t % 8)) s))

/-! ### Collectives (R291, R292, R295) -/

/-- Words of one party's contribution by form (R292, R295). -/
def collWords (c : QCmd) : Nat :=
  if c.code = 0xA4 then c.w4.fld 31 0 + 2 else c.w4.fld 31 0

/-- The identity an empty party contributes (R292); for COLL.SMP a list of unused entries (R295). -/
def collIdentity (c : QCmd) : List Word :=
  let n := c.w4.fld 31 0
  if c.code = 0xA4 then (identityTriple n).map (·.setWidth 64)
  else if c.code = 0xA6 then List.replicate n ((fwInf true).setWidth 64)
  else if c.code = 0xA8 then List.replicate 64 0x80000000FFFFFFFF
  else List.replicate n 0

/-- The result of all contributions in index order (R292): words and flags. -/
def collCombine (c : QCmd) (parts : List (List Word)) : List Word × Flags :=
  let p := parts.length
  if c.code = 0xA7 then (parts.flatten, 0)
  else if c.code = 0xA4 then
    let r := pairTree mergeTriple p (parts.map (fun x => some (fwOf x)))
    ((r.1.getD []).map (·.setWidth 64), r.2)
  else
    let r := pairTree (combineRows (c.code == 0xA6)) p (parts.map (fun x => some (fwOf x)))
    ((r.1.getD []).map (·.setWidth 64), r.2)

/-- A contribution at the length a form takes: a party of another length leaves the words it lacks open (log 35).
DESIGN CHOICE (log 35). -/
def State.fitWords (s : State) (n : Nat) (l : List Word) : List Word × State :=
  if l.length ≥ n then (l.take n, s)
  else
    let k := n - l.length
    (l ++ (List.range k).map (fun i => Config.freeWord (s.sched.free + i)),
     { s with sched := { s.sched with free := s.sched.free + k } })

/-- The result of a party that holds all contributions (R432): its range is checked whole before any byte of it is written, and then
lands in groups (R131, R145). COLL.SMP draws with the configuration read at its start, from every entry but the unused ones (R295).
DESIGN CHOICE (log 35). -/
def performColl (rc : RunCmd) (s : State) : Perf × State :=
  let p := rc.c.w4.fld 63 48
  let parts := (List.range p).foldl (fun (acc : List (List Word) × State) i =>
    let r := acc.2.fitWords (collWords rc.c) (rc.got.getD i [])
    (acc.1 ++ [r.1], r.2)) ([], s)
  let s := parts.2
  if rc.c.code = 0xA8 then
    match cfgOf rc.words with
    | none => (refusedCmd, s)
    | some cfg =>
      let cands := parts.1.flatten.filterMap (fun w =>
        if w = 0x80000000FFFFFFFF then none else some (signed 32 (w.fld 63 32), w.fld 31 0))
      let t := pickToken cfg cands
      (.lands (tokenLanding cfg t.1 cands.isEmpty p 0 t.2 [ownTileAddr cfg.out]), s)
  else
    let r := collCombine rc.c parts.1
    let out := rc.loc rc.c.w3 8
    match s.engCheck rc.eng out (8 * r.1.length) false true with
    | (some f, s) => (failed f 0 r.2 [], s)
    | (none, s) =>
      (.lands
        { addr := rc.c.w3, al := 8, bytes := bytesOf r.1, pos := 1, cnt := 0, fl := r.2, ok := some { count := p, flags := r.2 },
          bad := { flags := r.2 } }, s)

/-- A unit that is a command's whole work, but for the bytes that land after it. -/
def whole (rc : RunCmd) (r : Perf × State) : Work × State :=
  match r.1 with
  | .lands l => (.more { rc with land := some l }, r.2)
  | p => (.ends rc p, r.2)

/-- The next unit of the work of a command of a local operation, or of a command whose bytes are landing. -/
def State.work (s : State) (rc : RunCmd) : Work × State :=
  let c := rc.c.code
  if let some l := rc.land then landUnit rc l s
  else if c = 0x99 then workCopy rc s
  else if c = 0x9A then whole rc (performPubl rc s)
  else if c = 0xA0 then workMv rc s
  else if c = 0xA1 then whole rc (performScout rc s)
  else if c = 0xA2 then workAttn rc s
  else if c = 0xA3 then (if rc.c.w0.fld 31 30 = 2 then whole rc (performAtomic rc s) else workGather rc s)
  else if c = 0xA9 then whole rc (performSample rc s)
  else if c = 0xAA then workWbuild rc s
  else workPromo rc s

/-- At most how many units a command's work has. -/
def State.workUnits (s : State) (rc : RunCmd) : Nat :=
  let c := rc.c.code
  (match rc.land with
   | some l => l.bytes.length / 64
   | none => 0) +
  if c = 0x99 ∨ c = 0xAA then rc.c.w3.toNat / 64 + 2
  else if c = 0xA0 then rc.c.w4.fld 63 57 * (packedBytes (rc.c.w0.fld 11 8) (rc.c.w4.fld 36 17) / 64 + 3)
  else if c = 0xA2 then ceilDiv (rc.c.w4.fld 63 40) 16 + 2 ^ rc.c.w0.fld 27 26 * (rc.c.w0.fld 23 16 / 8 + 6) + 2
  else if c = 0xA3 then (rc.c.w4.fld 63 48 + 1) * (rc.c.w4.fld 47 36 / 8 + 3)
  else if c = 0xAC then (s.plainEntry rc.c.w1).bound * (s.plainEntry rc.c.w1).stride / 64 + 1024
  else 12

/-- A command's work from where it stands, for at most so many units. -/
def State.workOn (s : State) (rc : RunCmd) : Nat → Work × State
  | 0 => (.more rc, s)
  | n + 1 =>
    match s.work rc with
    | (.more rc, s) => s.workOn rc n
    | r => r

end Sys2Proof.Machine
end

