-- ==== Sys2Proof/Machine/Hampers.lean ====
section
/-! DEFINITION. Hampers (R39 to R50, R250, R426 to R428, R455): records placed into tiles, tiles that close and fire, and
records delivered to route tags. -/

namespace Sys2Proof.Machine

/-! ### Tile slots (R455) -/

/-- Set bits of a bank mask. -/
def bankCount (m : BitVec 12) : Nat := ((List.range 12).filter m.getLsbD).length

/-- Bytes of a tile slot of an operator with payload P. -/
def slotBytes (payload : Nat) : Nat := 64 * (128 + 64 * payload)

/-- Tile slots of a placement's hamper. -/
def State.tileSlots (s : State) (p : Placement) : Nat :=
  min 16 (bankCount p.hbanks * 131072 / slotBytes (s.parOf p).payload)

/-- Offset of a tile slot in the anchor tile. -/
def State.slotBase (s : State) (p : Placement) (j : Nat) : Nat :=
  ((List.range 12).find? p.hbanks.getLsbD).getD 0 * 0x20000 + j * slotBytes (s.parOf p).payload

/-- Tile slots that the live row groups of a placement occupy. -/
def State.liveSlots (s : State) (pk : Nat) : List Nat :=
  s.rgs.vals.filterMap (fun g => if g.pk = pk then g.tileSlot else none)

/-- Tile slots that a hamper's own tiles and draft groups occupy. -/
def Hamper.ownSlots (h : Hamper) : List Nat :=
  (match h.forming with | some f => [f.tileSlot] | none => []) ++ h.closed.map (·.tileSlot) ++ h.groups.map (·.tileSlot)

/-- Records that wait in a hamper (R40, R317). -/
def Hamper.waiting (h : Hamper) : Nat :=
  (match h.forming with | some f => f.rows.length | none => 0) + (h.closed.map (·.rows.length)).sum +
  (h.groups.map (·.recs.length)).sum

/-- What a hamper needs to know to place records: its parameters, its slots and those of live row groups, and the cycle. -/
structure HamperCtx where
  par : HamperPar
  slots : Nat
  live : List Nat
  cycle : Nat
  deriving DecidableEq, Repr, Inhabited

/-- The lowest free tile slot (log 9). DESIGN CHOICE (log 9). -/
def HamperCtx.free (c : HamperCtx) (h : Hamper) : Option Nat :=
  firstBelow c.slots (fun j => !(c.live.contains j || h.ownSlots.contains j))

/-! ### Closing (R42, R43, R45) -/

/-- Arrival of the oldest record of a tile. -/
def Forming.oldest (f : Forming) : Nat := f.rows.foldl (fun a r => min a r.at_) ((f.rows.head?.map (·.at_)).getD 0)

/-- Whether the forming tile's timeout has expired (R42). -/
def HamperCtx.due (c : HamperCtx) (f : Forming) : Bool := decide (f.oldest + usCycles c.par.timeout ≤ c.cycle)

/-- Close the forming tile with a cause; a timeout that has also expired is recorded with it (R45). -/
def HamperCtx.close (c : HamperCtx) (h : Hamper) (cause : Nat) : Hamper :=
  match h.forming with
  | none => h
  | some f =>
    { h with forming := none
             closed := h.closed ++ [{ rows := f.rows, cause := if c.due f then cause ||| 2 else cause, at_ := c.cycle,
                                      tileSlot := f.tileSlot }] }

/-- Whether a record came to a forming tile in a cycle, by itself or as the last of its draft group (R45). -/
def Forming.late (f : Forming) (c : Nat) (r : Rec) : Bool :=
  r.at_ == c || (r.grp.isSome && f.rows.any (fun x => x.grp == r.grp && x.at_ == c))

/-- Close the forming tile with a cause, without the records that came in this cycle: they are not in it and open the next
forming tile (R45), or wait before the hamper while no tile slot is free. A tile that holds no other record stays open. -/
def HamperCtx.closeOld (c : HamperCtx) (h : Hamper) (cause : Nat) : Hamper :=
  match h.forming with
  | none => h
  | some f =>
    let late := f.rows.filter (f.late c.cycle)
    let old := f.rows.filter (fun r => !f.late c.cycle r)
    if old.isEmpty then h
    else
      let h := c.close { h with forming := some { f with rows := old } } cause
      if late.isEmpty then h
      else
        match c.free h with
        | some j => { h with forming := some { rows := late, tileSlot := j } }
        | none => { h with net := late ++ h.net }

/-- Whether a tile that was forming when this cycle began has been closed in it. -/
def HamperCtx.fresh (c : HamperCtx) (x : Closed) : Bool := x.at_ == c.cycle && x.rows.any (fun r => decide (r.at_ < c.cycle))

/-- Record with the tiles closed in this cycle the causes that hold for them in it as well (R45). -/
def HamperCtx.alsoCause (c : HamperCtx) (h : Hamper) (f : Closed → Nat) : Hamper :=
  if h.closed.any c.fresh then
    { h with closed := h.closed.map (fun x => if c.fresh x then { x with cause := x.cause ||| f x } else x) }
  else h

/-- Close a tile that has all its rows (R42). -/
def HamperCtx.fillCheck (c : HamperCtx) (h : Hamper) : Hamper :=
  match h.forming with
  | some f => if f.rows.length ≥ c.par.height then c.close h 1 else h
  | none => h

/-! ### Placing (R41) -/

/-- A record into a tile's rows: ahead of the first record of its sequence with a higher position, else last (R41). -/
def insertRow (r : Rec) : List Rec → List Rec
  | [] => [r]
  | x :: xs =>
    if x.r.seqSlot = r.r.seqSlot ∧ r.r.position < x.r.position then r :: x :: xs else x :: insertRow r xs

/-- The weight generation of a tile's rows (R44). -/
def rowsGen (l : List Rec) : Nat := (l.head?.map (·.r.wgen)).getD 0
def Forming.gen (f : Forming) : Nat := rowsGen f.rows
def Closed.gen (x : Closed) : Nat := rowsGen x.rows

/-- The causes for which records of one generation cannot join a tile of some rows (R41, R42): generation, or no rows left. -/
def HamperCtx.misfit (c : HamperCtx) (l rows : List Rec) : Nat :=
  (if rowsGen rows = rowsGen l then 0 else 8) + (if rows.length + l.length ≤ c.par.height then 0 else 16)

/-- The causes that records coming to the hamper give a tile that closed in their cycle (R45); a full tile has no rows left to ask
for. -/
def HamperCtx.meets (c : HamperCtx) (l : List Rec) (x : Closed) : Nat :=
  if x.cause.testBit 0 || !l.any (·.grp.isSome) then c.misfit l x.rows &&& 8 else c.misfit l x.rows

/-- Put records of one generation into one tile (R41): the forming tile closes first where they cannot join it, with every
cause that holds in that cycle; a record that comes in the cycle of the timeout is not in the tile (R45). None while no tile
slot is free, and none where the tile that has to close took a record in this very cycle: it closes in a later one, for a record
of its closing cycle is not in it (log 145). DEDUCED (log 145). -/
def HamperCtx.placeTogether (c : HamperCtx) (h : Hamper) (l : List Rec) : Option Hamper :=
  let h := c.alsoCause h (c.meets l)
  let put (h : Hamper) (f : Forming) : Hamper :=
    c.fillCheck { h with forming := some { f with rows := l.foldl (fun a r => insertRow r a) f.rows } }
  let opened (h : Hamper) : Option Hamper := (c.free h).map (fun j => put h { rows := [], tileSlot := j })
  match h.forming with
  | none => opened h
  | some f =>
    let cause := c.misfit l f.rows
    if cause = 0 ∧ !c.due f then some (put h f)
    else if f.rows.any (f.late c.cycle) then none
    else opened (c.close h cause)

/-- Place a draft group: rows of two generations never share a tile (R44), so each run of one generation is placed by
itself. -/
def HamperCtx.placeGroup (c : HamperCtx) (h : Hamper) (l : List Rec) : Option Hamper :=
  (l.splitBy (fun a b => a.r.wgen == b.r.wgen)).foldl (fun h g => h.bind (fun h => c.placeTogether h g)) (some h)

/-- Close a draft group that is being collected, and place it (R41): its own slot is free from then on.
DEDUCED (log 77). -/
def HamperCtx.endGroup (c : HamperCtx) (h : Hamper) (g : DraftGroup) : Option Hamper :=
  c.placeGroup { h with groups := h.groups.filter (fun x => x.id != g.id) } g.recs

/-- Begin a draft group with its first record (R41); `id` is its identifier. DEDUCED (log 77). -/
def HamperCtx.beginGroup (c : HamperCtx) (h : Hamper) (id : Nat) (r : Rec) : Option Hamper :=
  let r := { r with grp := some id, idx := 0 }
  if r.r.draftCount ≤ 1 then c.placeGroup h [r]
  else
    (c.free h).map (fun j =>
      { h with groups := h.groups ++
          [{ id := id, seqSlot := r.r.seqSlot, count := r.r.draftCount, recs := [r], tileSlot := j }] })

/-- Whether a draft group has been collected for the hamper's timeout (R41). -/
def HamperCtx.groupDue (c : HamperCtx) (g : DraftGroup) : Bool :=
  decide ((g.recs.head?.map (·.at_)).getD 0 + usCycles c.par.timeout ≤ c.cycle)

/-- Place one arriving record (R41): a draft record joins or begins its group, any other record ends the group of its
sequence and joins the forming tile. -/
def HamperCtx.placeRec (c : HamperCtx) (h : Hamper) (id : Nat) (r : Rec) : Option Hamper :=
  let g := h.groups.find? (fun g => g.seqSlot == r.r.seqSlot)
  if r.r.kind = 2 then
    match g with
    | none => c.beginGroup h id r
    | some g =>
      if r.r.draftCount = g.count ∧ !c.groupDue g then
        let recs := g.recs ++ [{ r with grp := some g.id, idx := g.recs.length }]
        if recs.length = g.count then c.endGroup h { g with recs := recs }
        else some { h with groups := h.groups.map (fun x => if x.id = g.id then { x with recs := recs } else x) }
      else (c.endGroup h g).bind (fun h => c.beginGroup h id r)
  else
    match g with
    | none => c.placeTogether h [r]
    | some g => (c.endGroup h g).bind (fun h => c.placeTogether h [r])

/-! ### A hamper of the state -/

/-- The placing context of a hamper now. -/
def State.hamperCtx (s : State) (pk : Nat) (p : Placement) : HamperCtx :=
  { par := s.parOf p, slots := s.tileSlots p, live := s.liveSlots pk, cycle := s.clk.cycle }

/-- The rows that a hamper holds in its tile slots: slot, index and record. -/
def Hamper.rowsIn (h : Hamper) : List (Nat × Nat × Rec) :=
  let put (j : Nat) (l : List Rec) := l.zipIdx.map (fun q => (j, q.2, q.1))
  (match h.forming with | some f => put f.tileSlot f.rows | none => []) ++
    h.closed.flatMap (fun c => put c.tileSlot c.rows) ++ h.groups.flatMap (fun g => put g.tileSlot g.recs)

/-- Keys of a row's record and payload in a slot. -/
def State.rowKeys (s : State) (p : Placement) (j i lines : Nat) : List Nat :=
  let b := s.slotBase p j
  let pay := (s.parOf p).payload
  keysFrom (tileKey p.anchor (b + 128 * i)) 128 ++ keysFrom (tileKey p.anchor (b + 8192 + 64 * pay * i)) (64 * lines)

/-- The bank errors after a hamper has written rows into its slots: a row written there replaces the granules it covers; one
that an error had hit where it lay before is still hit where it lies now (R419). -/
def State.refreshSlots (s : State) (p : Placement) (old new : Hamper) : State :=
  let was := old.rowsIn
  let keys (q : Nat × Nat × Rec) : List Nat := s.rowKeys p q.1 q.2.1 q.2.2.r.lines
  let moved := new.rowsIn.filter (fun q => !was.contains q)
  let hit := moved.filter (fun q => was.any (fun o => o.2.2 == q.2.2 && s.badRead (keys o)))
  let covered := (moved.filter (fun q => !hit.contains q)).map keys
  let still := s.bad.filter (fun g => !covered.any (fun ks => coversGranule ks g))
  { s with bad := still ++ ((hit.map (fun q => granuleOf ((keys q).headD 0))).filter (fun g => !still.contains g)) }

/-- Set a hamper. -/
def State.setHamper (s : State) (pk : Nat) (p : Placement) (h : Hamper) : State :=
  (s.refreshSlots p p.hamper h).updHamper pk (fun _ => h)

/-- Close the forming tile if its timeout has expired (R42). -/
def State.closeDue (s : State) (pk : Nat) : State :=
  match s.places.find? pk with
  | none => s
  | some p =>
    let c := s.hamperCtx pk p
    match p.hamper.forming with
    | some f => if c.due f then s.setHamper pk p (c.closeOld p.hamper 2) else s
    | none => s

/-- Let a record enter a hamper, if the hamper has room for it (R40, R41, R455). -/
def State.enterHamper (s : State) (pk : Nat) (r : Rec) : Option State :=
  match s.places.find? pk with
  | none => none
  | some p =>
    if p.hamper.waiting ≥ 256 then none
    else
      let id := s.newId
      ((s.hamperCtx pk p).placeRec p.hamper id.1 { r with at_ := s.clk.cycle }).map (fun h =>
        id.2.setHamper pk p { h with stage := if r.out then h.stage else some r.r.stage })

/-- Whether a rotation slot of an operator began in this cycle: what comes to its hamper in that cycle came before it (R45). -/
def State.slotBegan (s : State) (pk : Nat) (p : Placement) : Bool :=
  let r := s.rots.getD p.die {}
  r.active == some pk && r.began == s.clk.cycle

/-- Whether a record has been on its way for a cycle at least: a WSWITCH accepted in the cycle in which it enters its stage finds
it there (R328, R345; log 10). DEDUCED (log 10). -/
def State.onItsWay (s : State) (n : NetRec) : Bool := n.body.out || decide (n.body.born < s.clk.cycle)

/-- Whether no record of the same sender to the same place is ahead of record idx in the network: a path never
reorders its records (R38, R66). DEDUCED (log 69). -/
def State.netFirst (s : State) (idx : Nat) (n : NetRec) : Bool :=
  (s.net.take idx).all (fun m => !(m.dest == n.dest && m.src == n.src))

/-- Whether a record's payload is longer than its operator's P (R38). DEDUCED (log 76). -/
def State.tooLong (s : State) (p : Placement) (r : Rec) : Bool := decide ((s.parOf p).payload < r.r.lines)

/-- Eject a record that is too long, without its payload (R426). DEDUCED (log 76). -/
def State.ejectLong (s : State) (p : Placement) (r : Rec) : State :=
  let r' : Rec := { r with r := { r.r with h1 := r.r.h1.put 63 52 0 }, pay := [] }
  (s.report (rowRec r.r (some p) 11 1 0x20 1 0 0xFF)).ejectTo r' 1 0 p.anchor (some p)

/-- A record that comes to a place whose operator has been unplaced since it was sent: its entry is unresolved now, so it is
ejected there (R315, R426). Its record names no tile, and its route index is free. DEDUCED (log 80). -/
def State.ejectAdrift (s : State) (idx : Nat) (n : NetRec) : State :=
  let f := State.takeFree { s with net := listDrop s.net idx }
  (f.2.report (rowRec n.body.r none 1 1 0x21 (2 + f.1.fld 7 0 * 256) n.body.lastRg n.body.lastRow)).ejectTo n.body 2 0 n.src
    none

/-- HAMPER_RECORD_ARRIVAL (R40, R41, R426): a record of the network reaches its hamper. Records that find no room wait in
arrival order. DEDUCED (log 69). -/
def execHamperRecordArrival (idx : Nat) (s : State) : Out :=
  match s.net[idx]? with
  | none => .next s
  | some n =>
    match n.dest with
    | .tag .. => .next s
    | .hamper pk =>
      match s.places.find? pk with
      | none => .next (s.ejectAdrift idx n)
      | some p =>
        if !s.netFirst idx n || !s.onItsWay n || s.slotBegan pk p then .next s
        else
          let s : State := { s with net := listDrop s.net idx }
          if s.tooLong p n.body then .next (s.ejectLong p n.body)
          else
            let wait := s.updHamper pk (fun h => { h with net := h.net ++ [n.body] })
            if (match s.places.find? pk with
                | some q => q.hamper.net.isEmpty
                | none => false) then .next ((s.enterHamper pk n.body).getD wait)
            else .next wait

/-- HAMPER_ADMIT (R40): the oldest waiting record enters as space frees. -/
def execHamperAdmit (pk : Nat) (s : State) : Out :=
  match s.places.find? pk with
  | none => .next s
  | some p =>
    match p.hamper.net with
    | [] => .next s
    | r :: rest =>
      if s.slotBegan pk p then .next s
      else .next (((s.updHamper pk (fun h => { h with net := rest })).enterHamper pk r).getD s)

/-- HAMPER_TIMEOUT (R42). -/
def execHamperTimeout (pk : Nat) (s : State) : Out := .next (s.closeDue pk)

/-- End the draft group of a sequence whose timeout has expired: it is closed short and placed (R41). -/
def State.endDueGroup (s : State) (pk seqSlot : Nat) : State :=
  match s.places.find? pk with
  | none => s
  | some p =>
    let c := s.hamperCtx pk p
    match p.hamper.groups.find? (fun g => g.seqSlot == seqSlot) with
    | none => s
    | some g =>
      if !c.groupDue g || s.slotBegan pk p then s
      else
        match c.endGroup p.hamper g with
        | some h => s.setHamper pk p h
        | none => s

/-- DRAFT_GROUP_TIMEOUT (R41): a group still collecting after its timeout is closed short and placed. -/
def execDraftGroupTimeout (pk seqSlot : Nat) (s : State) : Out := .next (s.endDueGroup pk seqSlot)

/-- What a hamper does by the end of a cycle: draft groups and the forming tile whose timeout has expired in it close (R41, R42,
R67). -/
def State.hamperDue (s : State) (pk : Nat) : State :=
  let ended := match s.places.find? pk with
    | some p => p.hamper.groups.foldl (fun (s : State) (g : DraftGroup) => s.endDueGroup pk g.seqSlot) s
    | none => s
  ended.closeDue pk

/-- Cycles that may pass, n at most, before a timeout of a hamper expires: no forming tile with a row is open longer than its
timeout (R67); what has expired and waits leaves one. -/
def State.hamperRoom (s : State) (p : Placement) (n : Nat) : Nat :=
  let room (n from_ : Nat) : Nat := min n (max 1 (from_ + usCycles (s.parOf p).timeout - s.clk.cycle))
  let n := match p.hamper.forming with
    | some f => room n f.oldest
    | none => n
  p.hamper.groups.foldl (fun n g => room n ((g.recs.head?.map (·.at_)).getD 0)) n

/-! ### Firing (R46 to R49) -/

/-- Whether a region holds an operator of class 0 (R320). -/
def State.hasClass0 (s : State) (anchor : Nat) : Bool := s.places.anyP (fun k p => keyAnchor k == anchor && p.cls == 0)

/-- Live row groups of a placement that hold a set in a tile. -/
def State.liveSetsOf (s : State) (pk t : Nat) : Nat :=
  (s.rgs.vals.filter (fun g => g.pk == pk && g.tiles.contains t)).length

/-- Whether a class 2 or 3 operator on a region with a class 0 operator has used its share of sets (R320). -/
def State.setsSpent (s : State) (pk : Nat) (p : Placement) (tiles : List Nat) : Bool :=
  decide (2 ≤ p.cls) && s.hasClass0 (keyAnchor pk) && tiles.any (fun t => decide (12 ≤ s.liveSetsOf pk t))

/-- The row of a tile that holds record `idx` of a draft group. DESIGN CHOICE (log 51). -/
def parentRow (rows : List Rec) (grp : Option Nat) (idx : Nat) : Option Nat :=
  (rows.zipIdx.find? (fun q => q.1.grp == grp && q.1.idx == idx)).map Prod.snd

/-- Rewrite draft_parent of a draft row to its parent's row index (R49); a parent that is not in the tile leaves the field
a free value (log 51). DESIGN CHOICE (log 51). -/
def State.rewriteParent (s : State) (rows : List Rec) (r : Rec) : Rec × State :=
  if r.r.kind != 2 || r.grp.isNone then (r, s)
  else
    let x := match parentRow rows r.grp (r.r.ah.fld 9 4) with
      | some i => (i, s)
      | none => let f := s.takeFree; (f.1.fld 5 0, f.2)
    ({ r with r := { r.r with ah := r.r.ah.put 9 4 x.1 } }, x.2)

/-- The registers a firing loads (R48): k0 to k8, and the uniform template. DEDUCED (log 70). -/
def State.firingRegs (s : State) (p : Placement) (k : List Word) : KMap Word :=
  let tpl := match s.imageOf p with
    | some im => im.unif
    | none => {}
  (k.zipIdx).foldl (fun m q => m.set q.2 q.1) tpl

/-- The record of a row that an uncorrectable error has hit in its hamper's slot (R419, R413). -/
def State.hitRec (s : State) (p : Placement) (rgid : Nat) (c : Closed) (q : Rec × Nat) : ErrRec :=
  let k := ((s.rowKeys p c.tileSlot q.2 q.1.r.lines).find? (fun k => s.badRead [k])).getD (tileKey p.anchor 0)
  { rowRec q.1.r (some p) 3 1 0x1D 0 rgid q.2 with
    loc := ownTileAddr (k - tileKey p.anchor 0), count := s.cecAt 3 p.anchor }

/-- The stages that the records of some rows are in (R44, R435). -/
def stagesOf (l : List (Rec × Nat)) : KMap Nat := l.foldl (fun m q => if q.1.out then m else m.set q.2 q.1.r.stage) {}

/-- Fire a closed tile that has left its hamper (R46 to R49), with the rows that an uncorrectable error has hit ejected
first (R419). -/
def State.fireTile (s : State) (pk : Nat) (p : Placement) (c : Closed) (set board : Nat) : State :=
  let par := s.parOf p
  let rows := c.rows.zipIdx
  let hit (s : State) (q : Rec × Nat) : Bool := s.badRead (s.rowKeys p c.tileSlot q.2 q.1.r.lines)
  let lost := rows.filter (hit s)
  let good := rows.filter (fun q => !hit s q)
  let rgid := p.hamper.nextRg
  let s := lost.foldl (fun s q =>
    (s.report (s.hitRec p rgid c q)).ejectTo
      { q.1 with r := carried par.carry q.1.r, lastRg := rgid, lastRow := q.2 } 5 0 p.anchor (some p)) s
  if good.isEmpty then s
  else
    let b := s.slotBase p c.tileSlot
    let s := good.foldl (fun s q =>
      let r := s.rewriteParent c.rows q.1
      let s := r.2.writeKeys (keysFrom (tileKey p.anchor (b + 128 * q.2)) 128) r.1.r.bytes
      s.writeKeys (keysFrom (tileKey p.anchor (b + 8192 + 64 * par.payload * q.2)) r.1.pay.length) r.1.pay) s
    let mask : BitVec 64 := maskOf 64 (good.map Prod.snd)
    let gen := (c.rows.head?.map (·.r.wgen)).getD 0
    let id := s.newId
    let g : RowGroup :=
      { rgid := rgid, pk := pk, set := set, tiles := p.tiles, rows := mask, gone := 0, home := p.anchor, base := b,
        pay := b + 8192, tileSlot := some c.tileSlot, wgen := gen, fired := s.clk.cycle, stages := stagesOf good,
        causes := c.causes }
    let s := { id.2 with rgs := s.rgs.set id.1 g }
    let s := s.updHamper pk (fun h => { h with nextRg := (h.nextRg + 1) % 2 ^ 32, fires := h.fires + 1 })
    p.tiles.foldl (fun s t =>
      let at_ (x : Nat) : Word := if t = p.anchor then ownTileAddr x else 0
      let k := s.firingRegs p [wd rgid, wd good.length, mask, at_ b, at_ (b + 8192), wd c.cause, wd gen, s.clk.time, wd board]
      let a : Arrival :=
        { tag := par.fireTag, kind := 0, msg := wd rgid, src := p.anchor, detail := 0, set := setRef id.1 set,
          cycle := s.clk.cycle, closeAt := some c.at_ }
      s.updCore t (fun x =>
        { x with sets := x.sets.set set id.1, k := x.k.set (setRef id.1 set) k, arrivals := x.arrivals ++ [a] })) s

/-- Whether a firing of an operator's hamper still waits outside a full arrival store: the hamper is held (R52, R316). -/
def State.hamperHeld (s : State) (pk : Nat) (p : Placement) : Bool :=
  p.tiles.any (fun t => s.sendsHeld t (fun a => a.kind == 0 && s.tagOwner t a.tag == some pk))

/-- Closed tiles of loaded operators that a full arrival store has held back: a cause of R429. DEDUCED (log 71). -/
def State.noteHeld (s : State) : State :=
  s.noteClosed (fun k p => (s.region (keyAnchor k)).loaded == some k && s.hamperHeld k p) 20

/-- Whether an operator's hamper may fire now, but for a free set (R52, R67, R316, R320, R394, R429). -/
def State.mayFire (s : State) (pk : Nat) (p : Placement) : Bool :=
  let r := s.region (keyAnchor pk)
  r.loaded == some pk && !s.isHeld p && r.draining != some pk && !s.setsSpent pk p p.tiles && !s.hamperHeld pk p

/-- HAMPER_FIRE (R42, R46): the oldest closed tile of a resident or in-bank operator fires. DEDUCED (log 70).
DEDUCED (log 98). -/
def execHamperFire (pk : Nat) (s : State) : Out :=
  match s.places.find? pk with
  | none => .next s
  | some p =>
    match p.hamper.closed, s.freeSetOf p.tiles with
    | c :: rest, some set =>
      if (s.parOf p).binding = 1 ∨ !s.mayFire pk p then .next s
      else .next ((s.updHamper pk (fun h => { h with closed := rest })).fireTile pk p c set 0)
    | _, _ => .next s

/-- HAMPER_STARVED (R428): a tile that has waited 65,536 µs, once, with the causes that hold it. A region that was not freed for
evaluation is one that has not loaded the operator (log 132). DEDUCED (log 132). -/
def execHamperStarved (pk idx : Nat) (s : State) : Out :=
  match s.places.find? pk with
  | none => .next s
  | some p =>
    match p.hamper.closed[idx]? with
    | none => .next s
    | some c =>
      if c.noted || decide (s.clk.cycle < c.at_ + usCycles 65536) then .next s
      else
        let bit (i : Nat) (b : Bool) : Nat := if b then 2 ^ i else 0
        let d := bit 0 ((s.region (keyAnchor pk)).loaded != some pk) + bit 1 (s.isHeld p) +
          bit 2 ((s.freeSetOf p.tiles).isNone || s.setsSpent pk p p.tiles) + bit 3 ((s.parOf p).binding == 1 && !c.reached)
        let s := s.updHamper pk (fun h => { h with closed := h.closed.set idx { c with noted := true } })
        .next (s.report (s.tileRec p.anchor pk { severity := 0, unit := 11, code := 3, detail := d }))

/-! ### Records to route tags (R250) -/

/-- The tile slot of the operator's hamper in which a record delivered to a tag lies: on whichever tile the tag is, the backing is
that of the anchor tile (log 11). DESIGN CHOICE (log 11). -/
def State.tagPlace (s : State) (pk : Nat) (p : Placement) : Option Nat := (s.hamperCtx pk p).free p.hamper

/-- Fire one record on a route tag of a tile (R250), in tile slot j. DESIGN CHOICE (log 11). -/
def State.fireTag (s : State) (t tag pk : Nat) (p : Placement) (n : NetRec) (set j : Nat) : State :=
  let r := n.body
  let id := s.newId
  let b := s.slotBase p j
  let g : RowGroup :=
    { rgid := 0, pk := pk, set := set, tiles := [t], rows := 1, gone := 0, home := p.anchor, base := b, pay := b + 8192,
      tileSlot := some j, wgen := r.r.wgen, fired := s.clk.cycle, stages := stagesOf [(r, 0)] }
  let k := s.firingRegs p [0, 1, 1, p.anchorAddr t b, p.anchorAddr t (b + 8192), 0, wd r.r.wgen, s.clk.time, 0]
  let s := { id.2 with rgs := s.rgs.set id.1 g }
  let s := s.writeKeys (keysFrom (tileKey p.anchor b) 128) r.r.bytes
  let s := s.writeKeys (keysFrom (tileKey p.anchor (b + 8192)) r.pay.length) r.pay
  (s.updCore t (fun x => { x with sets := x.sets.set set id.1, k := x.k.set (setRef id.1 set) k })).arrive
    t tag 1 (p.anchorAddr t b) n.src 0 (setRef id.1 set)

/-- ROUTE_TAG_DELIVERY (R250): the record waits while no set index is free, and behind one of its sender that waits outside a
full arrival store (R52); one whose payload is too long for the operator is ejected (R38). -/
def execRouteTagDelivery (idx : Nat) (s : State) : Out :=
  match s.net[idx]? with
  | none => .next s
  | some n =>
    match n.dest with
    | .hamper _ => .next s
    | .tag t tag pk =>
      match s.places.find? pk with
      | none => .next (s.ejectAdrift idx n)
      | some p =>
        if !s.netFirst idx n || !s.onItsWay n then .next s
        else
          let out := { s with net := listDrop s.net idx }
          if s.tooLong p n.body then .next (out.ejectLong p n.body)
          else
            match s.freeSetOf [t], s.tagPlace pk p with
            | some set, some j =>
              if s.setsSpent pk p [t] || s.sendsHeld t (fun a => a.kind == 1 && a.src == n.src) then .next s
              else .next (out.fireTag t tag pk p n set j)
            | _, _ => .next s

end Sys2Proof.Machine
end

