-- ==== Sys2Proof/Machine/Placement.lean ====
section
/-! DEFINITION. Region control blocks and their charges (R27 to R31), the route tables of jobs (R32, R313), the removal of a
placement (R315), the end of a front-end command (R305) and the policy for malformed submissions (R439). -/

namespace Sys2Proof.Machine

/-! ### Cells and banks emptied -/

/-- A context with its SCL bindings cleared (R225). DEDUCED (log 102). -/
def Ctx.unbound (k : Ctx) : Ctx := { k with bindA := none, bindB := none }

/-- The cell state that step 3 of R261 resets, with the spill rings (R421); sticky flags are kept (R87). -/
def Cell.reset (x : Cell) : Cell :=
  { x with
    v := {}, q := {}, xin := {}, lq := {}, er := [], ci := {}, ring := {}, ringPos := {}, latA := oneLanes, latB := oneLanes,
    ctxs := x.ctxs.mapVals (fun _ k => k.unbound), sys := none, planeA := zeroPlane, planeS := zeroPlane, rowCtr := 0,
    mrgA := fwOne, mrgB := fwOne, mrgNan := false, halted := false, trapped := false, port := [], portStuck := false,
    updOut := [], pendUpd := [], pendOrdt := [], pendDone := [], drainNoted := false }

/-- Every cell of a tile changed; cells never touched are written too. -/
def State.updCells (s : State) (t : Nat) (f : Nat → Cell → Cell) : State :=
  s.updTile t (fun x => { x with cells := KMap.ofList ((List.range 64).map (fun c => f c (x.cell c))) })

/-- Memory with the bytes of a range of keys cleared; what is not listed reads as zero. -/
def Memory.clear (m : Memory) (lo hi : Nat) : Memory := ⟨m.cells.filter (fun p => decide (p.1 < lo) || decide (hi ≤ p.1))⟩

/-- A tile-store bank cleared, soft errors with it. -/
def State.clearBank (s : State) (t b : Nat) : State :=
  let lo := tileKey t (b * 0x20000)
  { s with mem := s.mem.clear lo (lo + 0x20000), bad := s.bad.filter (fun g => decide (g < lo) || decide (lo + 0x20000 ≤ g)) }

/-! ### RCBs (R27 to R31) -/

/-- Fields of an RCB (R27). -/
def Rcb.vi (r : Rcb) : Nat := r.w0.fld 63 58
def Rcb.level (r : Rcb) : Nat := r.w0.fld 57 56
def Rcb.index (r : Rcb) : Nat := r.w0.fld 55 44
def Rcb.parent (r : Rcb) : Nat := r.w0.fld 43 32

/-- Inheritable field n of R28: tiles, banks, hbm_share, hamper_slots, handles, class, trap_en, round, store_round,
page_timeout, fault_domain. -/
def Rcb.field (r : Rcb) (n : Nat) : Nat :=
  match n with
  | 0 => r.w1.fld 63 53
  | 1 => r.w1.fld 52 39
  | 2 => r.w1.fld 38 31
  | 3 => r.w1.fld 30 18
  | 4 => r.w2.fld 63 44
  | 5 => r.w2.fld 43 42
  | 6 => r.w2.fld 41 37
  | 7 => r.w2.fld 36 35
  | 8 => r.w2.fld 34 33
  | 9 => r.w2.fld 32 19
  | _ => r.w0.fld 15 0

/-- An RCB of a VI. -/
def State.rcb (s : State) (vi idx : Nat) : Option Rcb := (s.vi vi).rcbs.find? idx

/-- Effective value of a field (R28), a tenant's where no level below overrides it. The tree has three levels. -/
def effectiveIn (l : KMap Rcb) (n : Nat) : Nat → Nat → Nat
  | 0, _ => 0
  | fuel + 1, idx =>
    match l.find? idx with
    | none => 0
    | some r => if r.level = 0 || r.w0.getLsbD (16 + n) then r.field n else effectiveIn l n fuel r.parent

/-- Effective class (R30): never more urgent than the parent's; a clear override bit stands for the parent's class. -/
def classIn (l : KMap Rcb) : Nat → Nat → Nat
  | 0, _ => 0
  | fuel + 1, idx =>
    match l.find? idx with
    | none => 0
    | some r =>
      if r.level = 0 then r.field 5
      else
        let up := classIn l fuel r.parent
        if r.w0.getLsbD 21 then max (r.field 5) up else up

/-- Effective value of field n of an RCB of a VI (R28, R30). -/
def State.effective (s : State) (vi idx n : Nat) : Nat :=
  let l := (s.vi vi).rcbs
  if n = 5 then classIn l 3 idx else effectiveIn l n 3 idx

/-- An RCB index and its ancestors (R29). -/
def chainIn (l : KMap Rcb) : Nat → Nat → List Nat
  | 0, _ => []
  | fuel + 1, idx =>
    match l.find? idx with
    | none => []
    | some r => if r.level = 0 then [idx] else idx :: chainIn l fuel r.parent

/-- An amount of each charged resource: tiles, banks, hamper slots. -/
structure Charge where
  tiles : Nat
  banks : Nat
  hampers : Nat
  deriving DecidableEq, Repr, Inhabited

/-- Words 4 and 5 of an RCB (R27): handles_used is counted for the tenant alone (R119). -/
def State.usageWords (s : State) (vi idx : Nat) : List Word :=
  match s.rcb vi idx with
  | none => [0, 0]
  | some r =>
    [wd (r.tiles * 2 ^ 53 + r.banks * 2 ^ 39 + r.hampers * 2 ^ 18),
     wd ((if r.level = 0 then (s.vi vi).hUsed else 0) % 2 ^ 20 * 2 ^ 44)]

/-- The device writes words 4 and 5 where the RCB was registered from, in the space of the VI that registered it.
DEDUCED (log 86). -/
def State.writeUsage (s : State) (vi idx : Nat) : State :=
  match s.rcb vi idx with
  | none => s
  | some r =>
    match s.resolveDv false none (if r.level = 0 then 0 else vi) (r.addr + 32) 16 false true with
    | (.error _, s1) => s1
    | (.ok ks, s1) => if s1.badWrite ks then s1 else s1.writeKeys ks (bytesOf (s.usageWords vi idx))

/-- Whether a charge keeps every level of the chain within its effective budget (R29). -/
def State.chargeFits (s : State) (vi idx : Nat) (c : Charge) : Bool :=
  (chainIn (s.vi vi).rcbs 3 idx).all (fun i =>
    match s.rcb vi i with
    | none => false
    | some r =>
      decide (r.tiles + c.tiles ≤ s.effective vi i 0) && decide (r.banks + c.banks ≤ s.effective vi i 1) &&
      decide (r.hampers + c.hampers ≤ s.effective vi i 3))

/-- One RCB changed. -/
def State.updRcb (s : State) (vi idx : Nat) (f : Rcb → Rcb) : State :=
  match s.rcb vi idx with
  | none => s
  | some r => s.updVi vi (fun v => { v with rcbs := v.rcbs.set idx (f r) })

/-- Add a charge to an RCB and its ancestors (R29). -/
def State.addCharge (s : State) (vi idx : Nat) (c : Charge) : State :=
  (chainIn (s.vi vi).rcbs 3 idx).foldl (fun s i =>
    s.updRcb vi i (fun r =>
      { r with tiles := r.tiles + c.tiles, banks := r.banks + c.banks, hampers := r.hampers + c.hampers })) s

/-- Charge an RCB and its ancestors (R29), whose usage words follow. DEDUCED (log 86). -/
def State.charge (s : State) (vi idx : Nat) (c : Charge) : State :=
  (chainIn (s.vi vi).rcbs 3 idx).foldl (fun s i => s.writeUsage vi i) (s.addCharge vi idx c)

/-- Whether a list of charges, each of a VI and an RCB, fits as a whole (R29, R312). -/
def State.chargesFit (s : State) : List (Nat × Nat × Charge) → Bool
  | [] => true
  | (vi, idx, c) :: l => s.chargeFits vi idx c && (s.addCharge vi idx c).chargesFit l

/-- Take a charge back. -/
def State.uncharge (s : State) (vi idx : Nat) (c : Charge) : State :=
  (chainIn (s.vi vi).rcbs 3 idx).foldl (fun s i =>
    (s.updRcb vi i (fun r =>
      { r with tiles := r.tiles - c.tiles, banks := r.banks - c.banks, hampers := r.hampers - c.hampers })).writeUsage vi i) s

/-- What a placement is charged (R311, R312, R455). -/
def Placement.charged (p : Placement) : Charge :=
  { tiles := p.w * p.h, banks := bankCount (p.banks ||| p.save) * (p.w * p.h) + bankCount p.hbanks, hampers := 1 }

/-! ### Route tables (R32, R178, R313) -/

/-- The physical form of an internal ROUTE entry for a placement (R313). -/
def physRoute (p : Placement) (e : Word) : Word :=
  let vt := e.fld 43 36
  let hamper := e.getLsbD 8
  wd (e.fld 63 56 * 2 ^ 56 + 2 ^ 55 + (if hamper then 2 ^ 54 + p.slot * 2 ^ 52 else 0) +
      (p.anchor + vt) * 2 ^ 41 + (if hamper then 0 else e.fld 5 0))

/-- The resolved form of an external entry: the hamper of a placed operator. -/
def hamperRoute (p : Placement) (idx : Nat) : Word := wd (idx * 2 ^ 56 + 2 ^ 55 + 2 ^ 54 + p.slot * 2 ^ 52 + p.anchor * 2 ^ 41)

/-- The registration identifier of R306. DEDUCED (log 73). -/
def regIdOf (vi job idx serial : Nat) : Word := wd (vi * 2 ^ 42 + job * 2 ^ 30 + idx * 2 ^ 18 + serial % 2 ^ 18)

/-- The placement of an operator, by the identifier of its RCB's latest registration (R306); an earlier one is stale.
DEDUCED (log 81). -/
def State.placeOf (s : State) (id : Word) : Option (Nat × Placement) :=
  s.places.items.find? (fun q =>
    match s.rcb q.2.vi q.2.rcb with
    | some r => regIdOf q.2.vi q.2.job q.2.rcb r.serial == id
    | none => false)

/-- The placement of the operator that was placed under an identifier, as route entries name it (R313). DEDUCED (log 81). -/
def State.placedAs (s : State) (id : Word) : Option (Nat × Placement) := s.places.items.find? (fun q => q.2.regId == id)

/-- Enter the ROUTE section of a placed operator into its job's table, and resolve the job's external entries that name it
(R313). -/
def State.enterRoutes (s : State) (p : Placement) (routes : List Word) : State :=
  let key := jobKey p.vi p.job
  let s := routes.foldl (fun s e =>
    let idx := e.fld 63 56
    if e.getLsbD 55 then
      let s := s.updJob key (fun j => { j with external := j.external.set idx (wd (e.fld 47 0)) })
      match s.placedAs (wd (e.fld 47 0)) with
      | some (_, q) =>
        if q.vi = p.vi ∧ q.job = p.job then
          s.updJob key (fun j => { j with routes := j.routes.set idx (hamperRoute q idx) })
        else s
      | none => s
    else s.updJob key (fun j => { j with routes := j.routes.set idx (physRoute p e) })) s
  s.updJob key (fun j =>
    let named := j.external.items.filter (fun x => x.2 == p.regId)
    { j with routes := named.foldl (fun m x => m.set x.1 (hamperRoute p x.1)) j.routes })

/-- Release a placement's route entries, and leave those that name its hamper unresolved (R313, R315). -/
def State.dropRoutes (s : State) (p : Placement) : State :=
  s.updJob (jobKey p.vi p.job) (fun j =>
    let named := (j.external.items.filter (fun x => x.2 == p.regId)).map Prod.fst
    { j with routes := j.routes.keep (fun k _ => !(p.routes.contains k || named.contains k)),
             external := j.external.keep (fun k _ => !p.routes.contains k) })

/-! ### Removing a placement (R315) -/

/-- Records of a hamper. -/
def Hamper.records (h : Hamper) : List Rec :=
  (match h.forming with | some f => f.rows | none => []) ++ h.closed.flatMap (·.rows) ++ h.groups.flatMap (·.recs)

/-- A bank that leaves an operator's allocation: CACHE mode, no lines, no transition, cleared (R116). -/
def State.releaseBank (s : State) (t b : Nat) : State := (s.updBank t b (fun _ => {})).clearBank t b

/-- Whether an issuer is a submission entry. -/
def Issuer.isFront : Issuer → Bool
  | .front .. => true
  | _ => false

/-- An engine issuer of a placement is gone: its completion goes nowhere, and work it had on cells goes on without them. -/
def RunCmd.orphan (dead : Nat) (rc : RunCmd) : RunCmd := { rc with pk := dead, path := if rc.path = 0 then 1 else rc.path }

/-- An address generator without a placement's streams and markers (R259, R260). -/
def Ag.without (pk : Nat) (a : Ag) : Ag :=
  { a with
    queue := a.queue.filter (fun i => match i with
      | .stream x => x.pk != pk
      | .marker _ _ p _ _ => p != pk)
    run := match a.run with
      | some r => if r.s.pk = pk then none else some r
      | none => none }

/-- Route tags that a placement's task table binds in its tile t. -/
def State.tagsOf (s : State) (p : Placement) (t : Nat) : List Nat :=
  match s.imageOf p, p.vtOf t with
  | some im, some vt => (taskTable (im.tasks.getD vt [])).map (fun e => e.1)
  | _, _ => []

/-- A cell whose contexts no longer hold a placement's contents (R318). -/
def Cell.disown (pk : Nat) (y : Cell) : Cell :=
  { y with ctxs := y.ctxs.mapVals (fun _ k => if k.owner = some pk then { k with owner := none } else k) }

/-- Everything a placement had in one of its tiles leaves it: its banks, registers, streams, instances, arrivals, pending
THOLDs, blocked tags, and sets. DEDUCED (log 80). -/
def State.leaveTile (s : State) (pk : Nat) (p : Placement) (t : Nat) : State :=
  let tags := s.tagsOf p t
  let mine := p.banks ||| p.save ||| (if t = p.anchor then p.hbanks else 0)
  let s := ((List.range 12).filter mine.getLsbD).foldl (fun s b => (s.emptyWay t b).releaseBank t b) s
  let s := s.updTile t (fun x =>
    { x with
      opr := x.opr.erase p.slot
      ags := x.ags.mapVals (fun _ a => a.without pk)
      cfgl := (x.cfgl.toList ++ x.cfglWait).find? (fun c => c.pk != pk)
      cfglWait := ((x.cfgl.toList ++ x.cfglWait).filter (fun c => c.pk != pk)).tail })
  let s := s.updCore t (fun c =>
    { c with
      insts := c.insts.keep (fun _ i => i.pk != pk)
      run := match c.run with
        | some r => if (c.insts.getD r.inst default).pk = pk then none else some r
        | none => none
      arrivals := c.arrivals.filter (fun a => !tags.contains a.tag)
      tholds := c.tholds.filter (fun h => h.pk != pk)
      blocked := tags.foldl (fun w g => w.put g g 0) c.blocked })
  s.updTile t (fun x => { x with cells := x.cells.mapVals (fun _ y => y.disown pk) })

/-- The cells of a region's tiles after their loaded operator is gone (R421): channels and rings are empty. -/
def State.emptyCells (s : State) (p : Placement) : State :=
  p.tiles.foldl (fun s t =>
    (s.updCells t (fun _ x => { x.reset with agOut := {}, ecmds := [] })).updTile t (fun x => { x with owners := {} })) s

/-- Whether a record of the network goes to a hamper. -/
def NetRec.toHamper (n : NetRec) : Bool :=
  match n.dest with
  | .hamper _ => true
  | .tag .. => false

/-- Whether a record of the network is bound for a placement's hamper or one of its route tags. -/
def NetRec.boundFor (pk : Nat) (n : NetRec) : Bool :=
  match n.dest with
  | .hamper k => k == pk
  | .tag _ _ k => k == pk

/-- A saved operator whose contexts no longer hold a placement's contents (R318). -/
def Saved.disown (pk : Nat) (v : Saved) : Saved :=
  { v with cells := v.cells.mapVals (fun _ m => m.mapVals (fun _ y => y.disown pk)) }

/-- Remove a placement (R315): what waits in its hamper and its live rows must have been dealt with before. A record that is
still in the network for it finds its place gone. The sets and arrivals that go with it end the waits of closed tiles of other
operators, which R429 names as causes. DEDUCED (log 71). DEDUCED (log 80). -/
def State.unplaceOp (s : State) (pk : Nat) : State :=
  match s.places.find? pk with
  | none => s
  | some p =>
    let anchor := keyAnchor pk
    let loaded := (s.region anchor).loaded == some pk
    let s := (s.noteSetWait p.tiles).noteHeld
    let s := (s.rgs.items.filter (fun g => g.2.pk == pk)).foldl (fun s g =>
      (g.2.tiles.foldl (fun (s : State) t => s.freeSet t g.2.set) { s with rgs := s.rgs.erase g.1 }).freeUniforms
        (setRef g.1 g.2.set)) s
    let s := p.tiles.foldl (fun s t => s.leaveTile pk p t) s
    let s := if loaded then s.emptyCells p else s
    let s := (s.dropRoutes p).uncharge p.vi p.rcb p.charged
    let d := s.newId
    let dead := 2 ^ 32 + d.1
    let s := d.2
    let gone (i : InvReq) : InvReq :=
      { i with sysc := i.sysc.map (fun q => if q.pk = pk then { q with pk := dead } else q) }
    let s :=
      { s with
        places := s.places.erase pk
        net := s.net.map (fun (n : NetRec) => if n.boundFor pk then { n with dest := .hamper dead } else n) ++
          p.hamper.net.map (fun r => ({ body := r, dest := .hamper dead, src := 0xFFF } : NetRec))
        cmds := s.cmds.mapVals (fun _ rc => if rc.pk = pk ∧ !rc.c.by_.isFront then rc.orphan dead else rc)
        syscs := s.syscs.filter (fun q => q.pk != pk)
        vis := s.vis.mapVals (fun _ v => { v with inv := v.inv.map gone })
        rots := s.rots.mapVals (fun _ r => if r.active = some pk then { r with active := none, fed := 0 } else r) }
    if s.places.keys.any (fun k => keyAnchor k == anchor) then
      s.updRegion anchor (fun r =>
        { r with loaded := if loaded then none else r.loaded,
                 evicted := (r.evicted.erase pk).mapVals (fun _ v => v.disown pk),
                 aside := (r.aside.erase pk).mapVals (fun _ v => v.disown pk),
                 draining := if r.draining = some pk then none else r.draining,
                 sweeps := if loaded then [] else r.sweeps })
    else
      p.tiles.foldl (fun s t => s.updTile t (fun x => { x with anchor := none })) { s with regions := s.regions.erase anchor }

/-- Records that wait for a placement: in its hamper, in the network before it, and on their way to it. -/
def State.waitingFor (s : State) (pk : Nat) (p : Placement) : List Rec :=
  p.hamper.records ++ p.hamper.net ++ (s.net.filter (NetRec.boundFor pk)).map (·.body)

/-- The live rows of a placement: group identifier, row index and record. -/
def State.liveRowsOf (s : State) (pk : Nat) : List (Nat × Nat × Rec) :=
  (s.rgs.vals.filter (fun g => g.pk == pk)).flatMap (fun g => g.liveRows.map (fun i => (g.rgid, i, s.rowRecord g i)))

/-- Unplace an operator whatever waits for it: its waiting and live rows are retired (R439, policy 2). -/
def State.discardOp (s : State) (pk : Nat) : State :=
  match s.places.find? pk with
  | none => s
  | some p =>
    let recs := s.waitingFor pk p ++ (s.liveRowsOf pk).map (·.2.2)
    let s := (State.updHamper { s with net := s.net.filter (fun n => !n.boundFor pk) } pk (fun h => { h with net := [] })).unplaceOp pk
    recs.foldl (fun s r => s.retireRec r.r) s

/-- Unplace every operator of a VI (R439, policy 2). -/
def State.discardVi (s : State) (vi : Nat) : State :=
  (s.places.items.filter (fun q => q.2.vi == vi)).foldl (fun s q => s.discardOp q.1) s

/-! ### The end of a front-end command (R305, R438, R439) -/

/-- The completion entry of a front-end command that has ended, after which its queue may go on (R304, R305). -/
def State.feClose (s : State) (f : FeCmd) (status : Nat) (result : Word) : State :=
  let s := { s with fe := s.fe.filter (fun x => !(x.e.vi == f.e.vi && x.e.sq == f.e.sq)) }
  let s := s.complete f.e.vi f.e.sq (f.e.w0.fld 31 0) f.sqHead status result
  s.updVi f.e.vi (fun v => { v with sq := v.sq.upd f.e.sq {} (fun q =>
    if q.stop then { q with busy := false, stop := false, en := false } else { q with busy := false }) })

/-- A front-end command that has ended: it completes, or waits for room in its completion queue (R371). -/
def State.feEnd (s : State) (f : FeCmd) (status : Nat) (result : Word) : State :=
  if s.entryRoom f.e.vi f.e.sq then s.feClose f status result
  else
    { s with fe := s.fe.filter (fun x => !(x.e.vi == f.e.vi && x.e.sq == f.e.sq)) ++ [{ f with wait := .ended status result }] }

/-- Complete the commands that have ended, as far as their completion queues have room now (R371). -/
def State.endWaiting (s : State) : State :=
  s.fe.foldl (fun s f =>
    match f.wait with
    | .ended status result => if s.entryRoom f.e.vi f.e.sq then s.feClose f status result else s
    | _ => s) s

/-- What the policy of FEPOL does to a VI after a malformed submission (R439). -/
def State.applyPolicy (s : State) (vi : Nat) : State :=
  match s.dev.fepol with
  | 1 => s.updVi vi (fun v => { v with halt := true })
  | 2 => (s.updVi vi (fun v => { v with halt := true })).discardVi vi
  | _ => s

/-- The record of a malformed submission (R438) and the policy for it (R439). -/
def State.malformed (s : State) (vi sq x : Nat) : State :=
  (s.report { vi := vi, unit := 13, code := 0x0A, detail := sq * 2 ^ 28 + x % 65536 }).applyPolicy vi

/-- End a command with a status whose result the spec does not state: the result is free. -/
def State.feStop (s : State) (f : FeCmd) (status : Nat) : State := let r := s.takeFree; r.2.feEnd f status r.1

/-- End a command with status 1 (R305): its record names the entry (R438), before the completion (R390). -/
def State.feBad (s : State) (f : FeCmd) : State :=
  let size := (((s.vi f.e.vi).sq.getD f.e.sq {})).size
  (s.malformed f.e.vi f.e.sq ((f.sqHead + size - 1) % size)).feStop f 1

/-- End an engine command of the front end that was refused for what it found, not for a field: as a bad field, or as an
engine error with code 0x01 (R305, R412); which one is free. DESIGN CHOICE (log 84). -/
def State.feRefused (s : State) (f : FeCmd) (unit domain : Nat) : State :=
  let c := s.pick 2
  if c.1 = 0 then c.2.feBad f
  else (c.2.report { vi := f.e.vi, unit := unit, code := 1, domain := domain }).feEnd f 8 1

end Sys2Proof.Machine
end

