-- ==== Sys2Proof/Machine/Commands.lean ====
section
/-! DEFINITION. The life of an engine command (R275, R276, R281, R282): start, stall, completion; collectives (R291,
R430 to R432), weight switches (R300, R435), failed engines (R433), and front-end commands that run as engine commands. -/

namespace Sys2Proof.Machine

/-! ### Reports -/

/-- The unit a command's record carries (R391, R417): that of its queue's kind; for the model path the cellar engines only while
the command runs on them. The record of a link that fails a command is one more (R438). A queue that is not bound leaves the cell
that sent it (log 36). DEDUCED (log 36). -/
def RunCmd.unit (rc : RunCmd) : Nat :=
  match eqKind rc.eq with
  | 6 => if rc.path = 1 then 6 else 1
  | 7 => 12
  | 0 => 0
  | k => kindUnit k

/-- The record of a command, with its operator's place, or the VI and the domain it was started for (R389), and the cell that sent
it. -/
def State.cmdRec (s : State) (rc : RunCmd) (r : ErrRec) : ErrRec :=
  let w := s.workRec rc.tile rc.pk rc.vi rc.domain { r with unit := rc.unit }
  match rc.c.by_ with
  | .cell c _ => { w with cell := c }
  | _ => w

/-- The row whose record lies at a tile-window address (R416, R417), of a live group or of one released in the cycle of a
forwarding (R395). -/
def State.rowAt (s : State) (t pk : Nat) (a : Word) : Option (Nat × Nat) :=
  if a.fld 63 57 != 0x7F then none
  else
    match s.tileSel t pk (a.fld 31 21) with
    | none => none
    | some tt =>
      let off := a.fld 20 0
      ((s.rgs.items ++ s.freed.items).find? (fun g =>
        g.2.home == tt && decide (g.2.base ≤ off) && decide (off < g.2.base + 128 * g.2.height) && (off - g.2.base) % 128 == 0)).map
        (fun g => (g.1, (off - g.2.base) / 128))

/-- The eject code that a command's failure gives the rows it names (R416, R417, R419); 0 for none. -/
def ejectOf (code err : Nat) : Nat :=
  if 0x18 ≤ err ∧ err ≤ 0x1C then 4
  else if err = 0x1D then 5
  else if err = 0x1F ∧ code = 0xA2 then 3
  else 0

/-- Settle a command's result: one record for a failure, with that of the link that failed it (R438), then the ejection of the
rows it named, each after its own record (R390, R413, R416). A submission entry that is refused has its record as its command ends. -/
def State.settle (s : State) (rc : RunCmd) (r : CmdRes) (f : Fail) (recs : List Word) : State :=
  let s := { s with cmds := s.cmds.set rc.c.id { rc with res := some r, stall := none } }
  if r.err = 0 || (r.refused && rc.front) then s
  else
    let s := s.reportFail f (s.cmdRec rc { severity := 1, code := r.err, loc := f.loc, detail := f.detail })
    let e := ejectOf rc.c.code r.err
    if e = 0 then s
    else recs.foldl (fun s a =>
      match s.rowAt rc.tile rc.pk a with
      | some (id, row) => s.ejectRow id row e 0 rc.unit { f with detail := 0 }
      | none => s) s

/-- Begin a stall of a command on an absent page (R120, R417): the first stall on an entry writes the notice. -/
def State.stallCmd (s : State) (rc : RunCmd) (h : Word) : State :=
  let s := { s with cmds := s.cmds.set rc.c.id { rc with stall := some s.clk.cycle, stallH := h } }
  if (s.vi (hVi h)).noticed.contains (hIndex h) then s
  else
    let s := s.updVi (hVi h) (fun v => { v with noticed := hIndex h :: v.noticed })
    s.report (s.cmdRec rc { severity := 0, code := 0x1F, loc := h })

/-! ### Path of MV and ATTN (R281, R285, R433) -/

/-- Commands a cellar engine holds (R281). -/
def State.engineFill (s : State) (e : Nat) : Nat :=
  (s.cmds.vals.filter (fun c => c.path == 1 && c.res.isNone && c.engs.contains e)).length

/-- The weight binding of a placement (R32). -/
def State.bindingOf (s : State) (pk : Nat) : Nat :=
  match s.places.find? pk with
  | some p => (s.parOf p).binding
  | none => 0

/-- The path that R281 gives MV: 0 fabric, 1 cellar; `ends_` are the engines that hold W's first and last rows, whose queues of
16 are below one half full on average. Where no local engine holds either row (W lies in another package) there is no fill, and
the command takes the cellar path. DESIGN CHOICE (log 136). -/
def State.mvPath (s : State) (rc : RunCmd) (ends_ : List Nat) : Nat :=
  let b := rc.c.w4.fld 63 57
  let pin := eqPin rc.eq
  let binding := s.bindingOf rc.pk
  if pin = 1 then 0
  else if pin = 2 then 1
  else if rc.c.w0.fld 31 30 = 2 ∨ binding = 0 then 0
  else if binding = 2 then 1
  else if b ≤ 4 then 1
  else if b ≥ 17 then 0
  else if ends_.isEmpty || decide (2 * (ends_.map s.engineFill).sum < 16 * ends_.length) then 1
  else 0

/-- A command goes into the queues of its cellar engines, each of which holds 16 commands (R281): it waits, on path 3, while one of
them is full. An engine that has failed takes nothing: an MV turns to the fabric, or ends where it is pinned (R433). DESIGN
CHOICE (log 136). -/
def State.intoEngines (s : State) (rc : RunCmd) : State :=
  let put (r : RunCmd) : State := { s with cmds := s.cmds.set rc.c.id r }
  let engs := rc.engs.filter (fun e => !s.dev.failedEngines.contains e)
  if rc.c.code = 0xA0 ∧ engs ≠ rc.engs then
    if eqPin rc.eq = 2 then s.settle { rc with path := 1 } { err := 7, aux := 1 } ⟨7, 0, 0⟩ []
    else put { rc with path := 0, engs := [] }
  else put { rc with engs := engs, path := if engs.any (fun e => decide (16 ≤ s.engineFill e)) then 3 else 1 }

/-- Choose the path of an MV whose handle is ready (R281). -/
def State.chooseMv (s : State) (rc : RunCmd) (e : HEntry) : State :=
  let n := rc.c.w4.fld 36 17
  let rb := rowBytes (rc.c.w0.fld 25 22) (rc.c.w0.fld 21 19) (rc.c.w4.fld 56 37)
  let at_ (j : Nat) : List Nat := s.enginesOf e.vi (e.addrOf rc.c.w1 j) rb
  let p := s.mvPath rc (at_ 0 ++ at_ (n - 1)).eraseDups
  if p = 0 then { s with cmds := s.cmds.set rc.c.id { rc with path := 0 } }
  else s.intoEngines { rc with engs := ((List.range n).flatMap at_).eraseDups }

/-- The start of an MV (R281): a W handle of tier 1 or 2 stalls before the choice. -/
def State.startMv (s : State) (rc : RunCmd) : State :=
  if rc.c.w0.fld 31 30 = 2 then { s with cmds := s.cmds.set rc.c.id { rc with path := 0 } }
  else
    match s.deref rc.c.w1 (rc.c.w4.fld 36 17) false rc.vi with
    | (.fail c, s) => s.settle rc { err := c } ⟨c, rc.c.w1, 0⟩ []
    | (.stall _, s) => s.stallCmd rc rc.c.w1
    | (.ready e, s) => s.chooseMv rc e

/-- The start of an ATTN (R285, R286, R335): it reads its mask register now; kvspace 0 runs on the cellar engines. -/
def State.startAttn (s : State) (rc : RunCmd) : State :=
  let m := ((s.tile rc.tile).oprAt (keySlot rc.pk)).m.getD (rc.c.w0.fld 31 29) 0
  let l := rc.c.w4.fld 63 40
  let rc := { rc with mask := m, path := if l = 0 then 2 else if rc.c.w0.getLsbD 8 then 0 else 1 }
  if rc.path = 1 then
    let e := s.plainEntry rc.c.w1
    let rb := 2 * rowBytes (rc.c.w0.fld 15 12) (rc.c.w0.fld 11 9) (rc.c.w0.fld 23 16 + 1)
    let engs := ((List.range l).flatMap (fun j => s.enginesOf e.vi (e.addrOf rc.c.w1 j) rb)).eraseDups
    s.intoEngines { rc with engs := engs }
  else { s with cmds := s.cmds.set rc.c.id rc }

/-- The start of an IRED (R289, R290, R281): the cellar engines that hold its rows, or its atomic's word, hold the command. -/
def State.startIred (s : State) (rc : RunCmd) : State :=
  let engs :=
    if rc.c.w0.fld 31 30 = 2 then s.enginesOf rc.vi rc.c.w2.toNat 4
    else
      let e := s.plainEntry rc.c.w1
      let rb := rowBytes (rc.c.w0.fld 29 26) (rc.c.w0.fld 25 23) (rc.c.w4.fld 47 36)
      let idx := (idxWords (s.engRead rc.eng (rc.loc rc.c.w2 4) (4 * rc.c.w4.fld 63 48)).1.1).map (fun x => x % 2 ^ 31)
      (idx.filter (· != 0x7FFFFFFF)).flatMap (fun i => s.enginesOf e.vi (e.addrOf rc.c.w1 i) rb)
  s.intoEngines { rc with engs := engs.eraseDups }

/-! ### Collectives -/

/-- Whether an operation is a collective. -/
def isColl (code : Nat) : Bool := decide (0xA4 ≤ code) && decide (code ≤ 0xA8)

/-- The record that a COLL.SMP's configuration names (R295, R419). -/
def RunCmd.smpRecord (rc : RunCmd) : List Word :=
  if rc.c.code = 0xA8 then (cfgOf rc.words).toList.map (fun c => ownTileAddr c.out) else []

/-- The start of a COLL form (R291, R307, R430): checked against the job's group table, and the configuration of a COLL.SMP
against R434, it takes its party's count, reads its contribution, and posts it to the ring. A refused one does neither. -/
def State.startColl (s : State) (rc : RunCmd) : State :=
  let g := rc.c.w0.fld 31 16
  let p := rc.c.w4.fld 63 48
  let i := rc.c.w4.fld 47 32
  let key := jobKey rc.vi rc.job
  let here := s.dev.pkgid * 256 + rc.tile / 144
  let locs := ((s.job key).groups.find? g).getD []
  let cfg : Except Fail (List Word) × State :=
    if rc.c.code = 0xA8 then s.engWords rc.eng (rc.loc rc.c.w1 8) 4 else (.ok [], s)
  let words := match cfg.1 with
    | .ok ws => ws
    | .error _ => []
  let bad := rc.c.code == 0xA8 && (match cfg.1 with
    | .ok ws => (cfgOf ws).isNone
    | .error _ => false)
  let rc := { rc with locs := locs, words := words }
  let s := cfg.2
  if !(p != 0 && locs.length == p && locs.getD i 0 == here) || bad then s.settle rc { err := 1, refused := true } ⟨1, 0, 0⟩ []
  else
    let k := (s.job key).counts.getD (g * 256 + i) 0
    let s := s.updJob key (fun j => { j with counts := j.counts.set (g * 256 + i) (k + 1) })
    let n := collWords rc.c
    let data : Except Fail (List Word) × State := match cfg.1 with
      | .error f => (.error f, s)
      | .ok _ => if rc.c.w0.getLsbD 15 then (Except.ok (collIdentity rc.c), s) else s.engWords rc.eng (rc.loc rc.c.w2 8) n
    match data with
    | (.error f, s) => s.settle { rc with k := k } { err := f.code } f rc.smpRecord
    | (.ok ws, s) =>
      { s with cmds := s.cmds.set rc.c.id { rc with k := k, got := rc.got.set i ws },
               pool := s.pool ++ [{ vi := rc.vi, job := rc.job, group := g, p := p, k := k, idx := i, data := ws }] }

/-- The start of a WSWITCH (R300): accepted, it changes the stage's current generation; the same generation completes at
once. A record that entered the stage in this cycle, which is still on its way to a hamper, takes the new generation (R345). The
spec states no count for its status, and it is 0 (log 128). DEDUCED (log 10). DESIGN CHOICE (log 128). -/
def State.startSwitch (s : State) (rc : RunCmd) : State :=
  let key := jobKey rc.vi rc.job * 256 + rc.c.w1.fld 7 0
  let g := rc.c.w0.fld 31 28
  let st := s.stage key
  if !s.wswitchOk rc.c rc.vi rc.job then s.settle rc { err := 1, refused := true } ⟨1, 0, 0⟩ []
  else if st.gen = g then s.settle rc {} ⟨0, 0, 0⟩ []
  else
    let s := s.updStage key (fun st =>
      { st with gen := g, switch := some rc.c.id, old := st.gen, since := s.clk.cycle, noted := false })
    let stamp (r : Rec) : Rec :=
      if !r.out && r.r.vi == rc.vi && r.r.job == rc.job && r.r.stage == rc.c.w1.fld 7 0 && r.born == s.clk.cycle then
        { r with r := { r.r with h0 := r.r.h0.put 43 40 g } }
      else r
    { s with
      cmds := s.cmds.set rc.c.id rc
      net := s.net.map (fun (n : NetRec) => { n with body := stamp n.body })
      places := s.places.mapVals (fun _ p => { p with hamper := { p.hamper with net := p.hamper.net.map stamp } }) }

/-! ### Start -/

/-- An engine accepts a command (R275): what each operation does at its start. -/
def State.launch (s : State) (rc : RunCmd) : State :=
  let c := rc.c.code
  if c = 0xA0 then s.startMv rc
  else if c = 0xA2 then s.startAttn rc
  else if c = 0xA3 then s.startIred rc
  else if isColl c then s.startColl rc
  else if c = 0xAB then s.startSwitch rc
  else { s with cmds := s.cmds.set rc.c.id rc }

/-- Whether an er entry is the reserved one of an id. -/
def QEntry.isReserved (id : Nat) : QEntry → Bool
  | .reserved i => i == id
  | .tok _ => false

/-- Change cell c of an operator in tile t: in the tile while the operator is loaded, else in its saved cells (R323, R411). -/
def State.updOwnCell (s : State) (t pk c : Nat) (f : Cell → Cell) : State :=
  if (s.region (keyAnchor pk)).loaded = some pk then s.updCell t c f
  else
    let put (k : Nat) (v : Saved) : Saved :=
      if k = pk then { v with cells := v.cells.upd t {} (fun m =>
        match m.find? c with
        | some x => m.set c (f x)
        | none => m) }
      else v
    s.updRegion (keyAnchor pk) (fun r => { r with evicted := r.evicted.mapVals put, aside := r.aside.mapVals put })

/-- Cell c of an operator in tile t, where it stands now. -/
def State.ownCell (s : State) (t pk c : Nat) : Cell :=
  let r := s.region (keyAnchor pk)
  if r.loaded = some pk then s.cellAt t c
  else match r.away pk with
    | some v => (v.cells.getD t {}).getD c freshCell
    | none => freshCell

/-- Free or fill the er entry that a cell's command reserved (R227, R276); the cell state of an operator that is switched out
takes it where it is saved (R411). -/
def State.settleEr (s : State) (t pk c id : Nat) (tok : Option Token) : State :=
  let s1 := s.updOwnCell t pk c (fun x =>
    { x with er := x.er.filterMap (fun e => if e.isReserved id then tok.map QEntry.tok else some e) })
  if (s.region (keyAnchor pk)).loaded = some pk ∧ tok.isSome then s1.noteMove t else s1

/-- The cell no longer counts a command as unperformed (R219). -/
def State.dropEcmd (s : State) (t pk c id : Nat) : State :=
  s.updOwnCell t pk c (fun x => { x with ecmds := x.ecmds.filter (· != id) })

/-- Whether updates that come before a command in its cell's order are not all applied (R130, R228). -/
def State.updatesBefore (s : State) (t pk : Nat) (c : QCmd) : Bool :=
  match c.by_ with
  | .cell x _ => (s.ownCell t pk x).pendUpd.any (fun u => c.after.contains u.id)
  | _ => false

/-- Take the head of an engine queue out, as a command that its engine accepts (R275). -/
def State.takeHead (s : State) (t slot q pk : Nat) (p : Placement) (c : QCmd) (rest : List QCmd) : RunCmd × State :=
  let bad := (s.queueAt t slot q).bad
  let s := s.updOpr t slot (fun o => { o with queues := o.queues.upd q {} (fun e =>
    { e with items := rest, bad := if c.code = 0x9A then e.bad.filter (· > c.epoch) else e.bad }) })
  let s := match c.by_ with
    | .cell x er => if c.done = 2 then s else s.settleEr t pk x er none
    | _ => s
  ({ c := c, tile := t, pk := pk, q := q, vi := p.vi, job := p.job, domain := p.domain, timeout := p.pageTimeout,
     eq := ((s.tile t).oprAt slot).eq.getD q 0, started := s.clk.cycle, skip := bad.contains c.epoch }, s)

/-- COMMAND_START (R274, R275, R277, R297): PUBL waits for every command that entered before it; a refused command takes no
handoff token, any other starts after its handoff pop, and one of a cell after the cell's updates before it (R130, R228).
DEDUCED (log 34). -/
def execCommandStart (t slot q : Nat) (s : State) : Out :=
  match (s.queueAt t slot q).items, (s.tile t).anchor with
  | c :: rest, some a =>
    let pk := placeKey a slot
    match s.places.find? pk with
    | none => .next s
    | some p =>
      let open_ := s.cmds.anyP (fun _ r => r.tile == t && r.pk == pk && r.q == q && !r.front)
      let code := s.cmdRefusal c (((s.tile t).oprAt slot).eq.getD q 0) p.vi p.job
      if c.code == 0x9A && open_ then .next s
      else if code != 0 then
        let h := s.takeHead t slot q pk p c rest
        .next (h.2.settle h.1 { err := code, refused := true } ⟨code, 0, 0⟩ [])
      else if (c.hfPop && s.hfCount t slot c.hfPopIdx == 0) || s.updatesBefore t pk c then .next s
      else
        let s := if c.hfPop then s.hfSet t slot c.hfPopIdx (s.hfCount t slot c.hfPopIdx - 1) else s
        let h := s.takeHead t slot q pk p c rest
        .next (h.2.launch h.1)
  | _, _ => .next s

/-! ### Completion -/

/-- The status word (R276); a count past its 24 bits is a free value (log 38). DESIGN CHOICE (log 38). -/
def State.statusWord (s : State) (code : Nat) (r : CmdRes) : Word × State :=
  let c := if r.count < 2 ^ 24 then (r.count, s) else let f := s.takeFree; (f.1.fld 23 0, f.2)
  (wd (code * 2 ^ 56 + r.aux % 256 * 2 ^ 40 + c.1 * 2 ^ 16 + r.err % 256 * 2 ^ 8 + r.flags.toNat), c.2)

/-- The er token of a status word (R276). -/
def statusToken (w : Word) : Token :=
  { lanes := (zeroLanes.set 0 (w.setWidth 40)).set 1 (BitVec.ofNat 40 (w.fld 63 40)), valid := 3, tag := 0,
    scale := false }

/-- Complete a command that has a result (R276): its handoff push, then its done action. -/
def State.finishCmd (s : State) (rc : RunCmd) (r : CmdRes) : State :=
  let slot := keySlot rc.pk
  let id := rc.c.id
  let s := { s with cmds := s.cmds.erase id }
  let placed := (s.places.find? rc.pk).isSome
  let w := s.statusWord rc.c.code r
  let s := w.2
  match rc.c.by_ with
  | .front vi sq =>
    match s.fe.find? (fun f => f.wait == .engine id && f.e.vi == vi && f.e.sq == sq) with
    | none => s
    | some f =>
      if r.err = 0 then let x := s.takeFree; x.2.feEnd f 0 x.1
      else if r.refused then s.feRefused f rc.unit rc.domain
      else s.feEnd f 8 (wd r.err)
  | by_ =>
    if !placed then s
    else
      let s := if r.err = 0 then s else s.updOpr rc.tile slot (fun o => { o with queues := o.queues.upd rc.q {} (fun e =>
        { e with bad := rc.c.epoch :: e.bad }) })
      let s := if rc.c.hfPush && !r.refused then
        s.hfSet rc.tile slot rc.c.hfPushIdx (s.hfCount rc.tile slot rc.c.hfPushIdx + 1) else s
      let s := if rc.c.done = 1 ∧ !r.refused then s.boAdd rc.tile slot rc.c.bo 1 else s
      match by_ with
      | .core set tg => if rc.c.done = 2 then s.arrive rc.tile tg 4 w.1 0xFFF rc.q set else s
      | .cell c er =>
        let s := s.dropEcmd rc.tile rc.pk c er
        if rc.c.done = 2 then s.settleEr rc.tile rc.pk c er (some (statusToken w.1))
        else s.settleEr rc.tile rc.pk c er none
      | .front .. => s

/-- Whether a command that has its result must wait to complete: for room to push a handoff token (R276), or behind an arrival
of its queue that waits outside a full arrival store (R52). -/
def State.pushWaits (s : State) (rc : RunCmd) (r : CmdRes) : Bool :=
  !rc.front &&
  ((rc.c.hfPush && !r.refused && decide (16 ≤ s.hfCount rc.tile (keySlot rc.pk) rc.c.hfPushIdx)) ||
   (rc.c.done == 2 && s.sendsHeld rc.tile (fun a => a.kind == 4 && a.detail == rc.q)))

/-- Complete a command whose result stands, unless it waits to push. DESIGN CHOICE (log 84). -/
def State.tryFinish (s : State) (id : Nat) : State :=
  match s.cmds.find? id with
  | none => s
  | some rc =>
    match rc.res with
    | none => s
    | some r => if s.pushWaits rc r then s else s.finishCmd rc r

/-- Whether a command works on cells of a region that has not loaded its operator: it is suspended (R288, R323). -/
def State.suspended (s : State) (rc : RunCmd) : Bool :=
  rc.path == 0 && cmdKind rc.c.code == 6 && !rc.front && s.loadedOn rc.tile != some rc.pk

/-- Whether a command that stalls may not resume: its page has not come in time (R417), or an access that stalled before it on the
same entry still waits (R120, R126). -/
def State.stallLasts (s : State) (rc : RunCmd) : Bool :=
  match rc.stall with
  | none => false
  | some c => !s.mayResume rc.stallH c rc.timeout || s.stalledBefore rc.stallH c

/-- A running command goes on with its work for at most n units; what it comes to is settled, kept, or a stall. -/
def State.workFor (s : State) (rc : RunCmd) (n : Nat) : State :=
  match s.workOn { rc with stall := none } n with
  | (.more rc, s) => { s with cmds := s.cmds.set rc.c.id rc }
  | (.ends rc (.stalled h), s) => s.stallCmd rc h
  | (.ends rc (.lands l), s) => { s with cmds := s.cmds.set rc.c.id { rc with land := some l } }
  | (.ends rc (.done r f recs), s) => s.settle rc r (f.getD ⟨0, 0, 0⟩) recs

/-- Whether a command has work of its own to do now. -/
def State.working (s : State) (rc : RunCmd) : Bool :=
  rc.res.isNone && (!isColl rc.c.code || rc.land.isSome) && rc.c.code != 0xAB && !s.suspended rc && !s.stallLasts rc &&
  !(rc.c.code == 0xA0 && rc.path == 2) && rc.path != 3

/-- A unit of a command's work, seen by other agents before its completion (R131, R145). -/
def State.cmdWork (s : State) (id : Nat) : State :=
  match s.cmds.find? id with
  | none => s
  | some rc => if rc.res.isNone ∧ rc.path = 3 then s.intoEngines rc else if s.working rc then s.workFor rc 1 else s

/-- COMMAND_COMPLETION (R276): the rest of the data work of a local operation, then the completion; a command that waits for room
in the queues of its cellar engines takes its places there (R281). -/
def execCommandCompletion (id : Nat) (s : State) : Out :=
  match s.cmds.find? id with
  | none => .next s
  | some rc =>
    if rc.res.isSome then .next (s.tryFinish id)
    else if rc.path = 3 then .next (s.intoEngines rc)
    else if rc.c.code = 0xA0 ∧ rc.path = 2 then (if s.stallLasts rc then .next s else .next (s.startMv { rc with stall := none }))
    else if s.working rc then .next ((s.workFor rc (s.workUnits rc)).tryFinish id)
    else .next s

/-- The page-absent time-out of a command (R417), after the cycle in which a publish still resumes it: its status keeps the work
done. -/
def State.cmdPageTimeout (s : State) (rc : RunCmd) : State :=
  match rc.stall with
  | none => s
  | some c =>
    if s.clk.cycle ≤ c + usCycles rc.timeout ∨ s.pubInTime rc.stallH c rc.timeout then s
    else
      let recs := if rc.c.code = 0xA2 then rowRecords rc.query else []
      (s.settle rc { rc.soFar with err := 0x1F } ⟨0x1F, rc.stallH, 1⟩ recs).tryFinish rc.c.id

/-- COLLECTIVE_CONTRIBUTION (R291): the contribution of party idx reaches a party that waits for it. -/
def execCollectiveContribution (id idx : Nat) (s : State) : Out :=
  match s.cmds.find? id with
  | none => .next s
  | some rc =>
    if !isColl rc.c.code || rc.res.isSome || (rc.got.find? idx).isSome then .next s
    else
      match s.pool.find? (fun x =>
        x.vi == rc.vi && x.job == rc.job && x.group == rc.c.w0.fld 31 16 && x.p == rc.c.w4.fld 63 48 && x.k == rc.k &&
        x.idx == idx && !x.lost) with
      | none => .next s
      | some x => .next { s with cmds := s.cmds.set id { rc with got := rc.got.set idx x.data } }

/-- COLLECTIVE_RESULT (R431, R432): only a party that holds all P contributions writes its result, and none past its
time-out. -/
def execCollectiveResult (id : Nat) (s : State) : Out :=
  match s.cmds.find? id with
  | none => .next s
  | some rc =>
    if isColl rc.c.code && rc.res.isNone && rc.land.isNone && decide (s.clk.cycle ≤ rc.started + usCycles rc.timeout) && (List.range (rc.c.w4.fld 63 48)).all (fun i => (rc.got.find? i).isSome) then
      match performColl rc s with
      | (.done r f recs, s) => .next ((s.settle rc r (f.getD ⟨0, 0, 0⟩) recs).tryFinish id)
      | (.lands l, s) => .next { s with cmds := s.cmds.set id { rc with land := some l } }
      | (.stalled _, s) => .next s
    else .next s

/-- COLLECTIVE_TIMEOUT (R431): the party completes with 0x06, and the rows of its issuer's set are ejected (R395); a command of a
cell has its error in the status word alone. -/
def execCollectiveTimeout (id : Nat) (s : State) : Out :=
  match s.cmds.find? id with
  | none => .next s
  | some rc =>
    if !isColl rc.c.code || rc.res.isSome || rc.land.isSome || decide (s.clk.cycle < rc.started + usCycles rc.timeout) then .next s
    else
      let detail := rc.c.w4.fld 47 32 * 2 ^ 16 + rc.got.items.length % 2 ^ 16
      let s := match rc.c.by_ with
        | .cell .. => { s with cmds := s.cmds.set id { rc with res := some { err := 6 }, stall := none } }
        | _ => s.settle rc { err := 6 } ⟨6, 0, detail⟩ []
      let s := match rc.c.by_ with
        | .core set _ => if setIdx set < 16 then s.ejectRows (set / 256) 6 53 8 ⟨6, 0, 0⟩ else s
        | _ => s
      .next (s.tryFinish id)

/-- WSWITCH_DRAINED (R300): no record of the old generation remains in the stage. -/
def execWswitchDrained (id : Nat) (s : State) : Out :=
  match s.cmds.find? id with
  | none => .next s
  | some rc =>
    let stage := rc.c.w1.fld 7 0
    let key := jobKey rc.vi rc.job * 256 + stage
    let st := s.stage key
    if rc.c.code == 0xAB && rc.res.isNone && st.switch == some id && s.genCount rc.vi rc.job stage st.old == 0 then
      let s := s.updStage key (fun st => { st with switch := none })
      .next ((s.settle rc {} ⟨0, 0, 0⟩ []).tryFinish id)
    else .next s

/-- SWITCH_WAITING (R435): 100 ms after its acceptance, once. -/
def execSwitchWaiting (id : Nat) (s : State) : Out :=
  match s.cmds.find? id with
  | none => .next s
  | some rc =>
    let stage := rc.c.w1.fld 7 0
    let key := jobKey rc.vi rc.job * 256 + stage
    let st := s.stage key
    if rc.c.code == 0xAB && rc.res.isNone && st.switch == some id && !st.noted &&
       decide (st.since + usCycles 100000 ≤ s.clk.cycle) then
      let s := s.updStage key (fun st => { st with noted := true })
      let r : ErrRec := { severity := 0, code := 8, detail := s.genCount rc.vi rc.job stage st.old }
      .next (s.report (s.cmdRec rc r))
    else .next s

/-- ENGINE_FAILED (R433): out of service until reset; commands running on it complete with 0x07. -/
def execEngineFailed (stack channel : Nat) (s : State) : Out :=
  let e := stack * 32 + channel
  if s.dev.failedEngines.contains e then .next s
  else
    let s := s.updDev (fun d => { d with failedEngines := e :: d.failedEngines })
    let s := (s.report { severity := 3, unit := 6, code := 7 }).serviceCause 3
    .next (s.cmds.keys.foldl (fun s id =>
      match s.cmds.find? id with
      | none => s
      | some rc =>
        if rc.engs.contains e && rc.res.isNone && rc.path == 1 then
          (s.settle rc { rc.soFar with err := 7 } ⟨7, 0, 0⟩ []).tryFinish id
        else s) s)

end Sys2Proof.Machine
end

