-- ==== Sys2Proof/Machine/CellEvents.lean ====
section
/-! DEFINITION. What cells, owner ports, spill rings and the loop-control unit do on their own: scale latches (R90),
systolic beats (R222), owner updates (R217), ordering tokens (R219), ring refills (R122), sweeps (R63, R229), loop
releases (R58) and the stall records (R407, R408). -/

namespace Sys2Proof.Machine

/-- SCALE_LATCH (R90): the scale token at the head of a bound source goes into its latch, with no firing. A trapped cell
leaves its heads as they are (R403); a binding applies from the cycle after its SCL (R225). DEDUCED (log 64). -/
def execScaleLatch (tile cell latch : Nat) (s : State) : Out :=
  let x := s.cellAt tile cell
  match (if latch = 0 then x.ctx.bindA else x.ctx.bindB) with
  | none => .next s
  | some v =>
    match s.head tile cell v with
    | none => .next s
    | some k =>
      if k.scale && !x.trapped && (s.tile tile).cfgl.isNone && (s.loadedOn tile).isSome &&
          decide (x.bindAt ≤ s.clk.cycle) && !s.cellsPaused tile then
        .next (((s.popHead tile cell v).updCell tile cell (fun x =>
          if latch = 0 then { x with latA := k.lanes } else { x with latB := k.lanes })).noteMove tile)
      else .next s

/-! ### Systolic beats -/

/-- The sum of one column of a beat (R222): the terms of the valid activation lanes, rounded once; an empty sum is +0. An element of
xw is multiplied by the latch that xw is bound to (R90). DEDUCED (log 146). -/
def beatColumn (x : Cell) (beat : List Token) (n : Nat) : Fw × BitVec 5 :=
  let al (i : Nat) : Fw :=
    if x.ctx.bindA = some 11 then lane x.latA i else if x.ctx.bindB = some 11 then lane x.latB i else fwOne
  let terms := beat.zipIdx.flatMap (fun p => (List.range 8).filterMap (fun i =>
    if p.1.valid.getLsbD i then
      some (((Ex.ofFw (lane p.1.lanes i)).mul (Ex.ofFw (al i))).mul
        ((Ex.ofFw (lane (x.planeA.rows.getD (8 * p.2 + i) zeroLanes) n)).mul (Ex.ofFw (lane x.planeA.cs n))))
    else none))
  match terms with
  | [] => (0, 0)
  | l => chunkSum x.ctx.rnd l

/-- The output of one column (R222): the chunk's sum, added to the north partial unless the cell heads its chain.
DEDUCED (log 67). -/
def beatOut (x : Cell) (beat : List Token) (north : Option Token) (n : Nat) : Fw × BitVec 5 :=
  let c := beatColumn x beat n
  match north with
  | none => c
  | some k => let r := fadd x.ctx.rnd (lane k.lanes n) c.1; (r.1, c.2 ||| r.2)

/-- The north head as the systolic path sees it (R221): `none` while it must wait, `some none` for a chain head. -/
def State.beatNorth (s : State) (t c : Nat) (isHead : Bool) : Option (Option Token) :=
  match s.slotHead t c 8 with
  | some k => if k.tag = 3 then none else if isHead then some none else some (some k)
  | none => if (s.head t c 8).isSome then none else if isHead then some none else none

/-- SYSTOLIC_BEAT (R221, R222): a beat of four tokens at xw and the north partial are taken together, the partial leaves
on ys and, with fwd, the beat on ye. A flag whose trap is enabled suppresses the beat and traps the cell (R402).
DEDUCED (log 65). DEDUCED (log 67). -/
def execSystolicBeat (tile cell : Nat) (s : State) : Out :=
  let x := s.cellAt tile cell
  match x.sys with
  | none => .next s
  | some d =>
    let w := d.toNat
    let isHead := bitOf w 36
    let fwd := bitOf w 35
    let beat := (x.xin.getD 3 []).take 4
    let open_ := (s.slotHead tile cell 11).isSome
    if x.trapped || x.halted || (s.tile tile).cfgl.isSome || (s.loadedOn tile).isNone || s.cellsPaused tile ||
        s.clk.cycle < x.sysNext || s.clk.cycle < x.bindAt || beat.length != 4 || !open_ then .next s
    else
      match s.beatNorth tile cell isHead with
      | none => .next s
      | some north =>
        if s.room tile cell 2 = 0 then .next (s.noteRing tile cell 2)
        else if fwd && s.room tile cell 1 < 4 then .next (s.noteRing tile cell 1)
        else
          let mask := laneMask (fun n => bitOf w (24 + n) &&
            (match north with
             | none => true
             | some k => k.valid.getLsbD n))
          let out (n : Nat) : Fw × BitVec 5 := beatOut x beat north n
          let lanes := (List.range 8).filter mask.getLsbD
          let fl := lanes.foldl (fun a n => a ||| (out n).2) 0
          if fl &&& x.ctx.trapEn != 0 then
            .next ((s.cellRecord tile cell 0x3F 1 0x08 (mask.toNat * 2 ^ 24 + fl.toNat) 0).updCell tile cell
              (fun x => { x with trapped := true }))
          else
            let k := mkToken (fun n => (out n).1) mask (match north with | some k => k.tag | none => 0) false
            let s1 := s.updCell tile cell (fun x =>
              { x with
                xin := (x.xin.upd 3 [] (fun l => l.drop 4)).upd 0 [] (fun l => if north.isSome then l.tail else l)
                flags := lanes.foldl (fun m n => if (out n).2 = 0 then m else m.upd n 0 (fun o => o ||| (out n).2)) x.flags
                sysNext := s.clk.cycle + 2 ^ fld w 38 37 })
            let s2 := s1.pushOut tile cell 2 k
            let s3 := if fwd then beat.foldl (fun u b => u.pushOut tile cell 1 b) s2 else s2
            .next (s3.noteMove tile)

/-! ### Owner updates -/

/-- The new element, the returned value and the flags of an update (R216). -/
def updateEffect (u : Update) (old : Nat) : Nat × Fw × BitVec 5 :=
  let b := low32 u.val
  let o : BitVec 32 := BitVec.ofNat 32 old
  match u.op with
  | .add => ((o + b).toNat, o.setWidth 40, 0)
  | .fadd => let r := fadd .rne (BitVec.ofNat 40 old) u.val; (r.1.toNat, BitVec.ofNat 40 old, r.2)
  | .min => ((if o.toInt ≤ b.toInt then o else b).toNat, o.setWidth 40, 0)
  | .max => ((if o.toInt ≤ b.toInt then b else o).toNat, o.setWidth 40, 0)
  | .or => ((o ||| b).toNat, o.setWidth 40, 0)
  | .tas =>
    let n := b.toNat % 32
    ((o ||| BitVec.ofNat 32 (2 ^ n)).toNat, if o.getLsbD n then 1 else 0, 0)

/-- Record an old value at the sender; with the last one, fill the reserved entry (R218). -/
def Cell.updateReturn (x : Cell) (u : Update) (old : Fw) : Cell :=
  let ps := x.pendUpd.map (fun p =>
    if p.id = u.firing then
      { p with left := p.left - 1, tok := { p.tok with lanes := mkLanes (fun i => if i = u.lane then old else lane p.tok.lanes i) } }
    else p)
  let lq := ps.foldl (fun m p =>
    if p.left = 0 then
      match p.lq with
      | none => m
      | some q => m.upd q [] (fun l => l.map (fun e => if e = .reserved p.id then .tok p.tok else e))
    else m) x.lq
  { x with lq := lq, pendUpd := ps.filter (fun p => p.left != 0) }

/-- Why an owner cannot apply an update: the tile window no longer reaches its element (R116, R421), or an uncorrectable error lies in
it (R419). The code of R412, or 0. -/
def State.updateCode (s : State) (t : Nat) (u : Update) : Nat :=
  if !(keysFrom u.addr (updBytes u.op)).all (s.windowByteOk t) then 0x12
  else if s.badRead (keysFrom (tileKey t u.addr) (updBytes u.op)) then 0x1D
  else 0

/-- Apply the update at the head of an owner's port (R139, R216, R217): atomic on its element. An uncorrectable error
traps the owner and stops its port (R419), and so does a bank that has left the element's mode (R421). DEDUCED (log 147). -/
def State.applyUpdate (s : State) (t c : Nat) (u : Update) : State :=
  let ks := keysFrom (tileKey t u.addr) (updBytes u.op)
  let e := s.updateCode t u
  if e != 0 then
    (s.cellRecord t c 0x3F 1 e 0 (ownTileAddr u.addr)).updCell t c (fun x => { x with trapped := true, portStuck := true })
  else
    let r := updateEffect u (s.readWord ks)
    let s := s.writeKeys ks (leBytes (updBytes u.op) r.1)
    let s := s.updCell t c (fun x =>
      { x with port := x.port.tail, ownerNext := s.clk.cycle + 1,
               flags := if r.2.2 = 0 then x.flags else x.flags.upd 0 0 (fun o => o ||| r.2.2) })
    let s := s.updCell t (u.src % 64) (fun x => x.updateReturn u r.2.1)
    ((s.sendDone t (u.src % 64)).freeClosing t).noteMove t

/-- OWNER_UPDATE_APPLY (R217): one update per cycle, whatever the owner's slots do. -/
def execOwnerUpdateApply (tile cell : Nat) (s : State) : Out :=
  let x := s.cellAt tile cell
  match x.port with
  | [] => .next s
  | u :: _ =>
    if x.portStuck || s.clk.cycle < x.ownerNext || s.cellsPaused tile then .next s else .next (s.applyUpdate tile cell u)

/-- Carry the updates of a cell's oldest firing that go to one owner to that owner's input, together and in lane order,
where it has room for them (R217, R424). -/
def State.moveUpdates (s : State) (t c : Nat) : State :=
  let x := s.cellAt t c
  match x.updOut with
  | [] => s
  | u :: _ =>
    match s.ownerOf t u.addr (updBytes u.op) with
    | none => s
    | some (n, e) =>
      let mine (v : Update) : Bool := v.firing == u.firing &&
        (match s.ownerOf t v.addr (updBytes v.op) with
         | some (m, o) => m == n || o.cell == e.cell
         | none => false)
      let go := x.updOut.filter mine
      if (s.cellAt t e.cell).port.length + go.length ≤ 16 then
        ((s.updCell t c (fun x => { x with updOut := x.updOut.filter (fun v => !mine v) })).updCell t e.cell
          (fun y => { y with port := y.port ++ go })).noteMove t
      else s

/-- ORDERING_TOKEN_EMIT (R219): the token of an ORDT goes out once every memory firing before it has been performed, in
the order of the ORDTs to one destination. -/
def execOrderingTokenEmit (tile cell idx : Nat) (s : State) : Out :=
  let x := s.cellAt tile cell
  match x.pendOrdt[idx]? with
  | none => .next s
  | some p =>
    let s1 := s.updCell tile cell (fun x => { x with pendOrdt := listDrop x.pendOrdt idx })
    if s.cellsPaused tile || p.waits.any x.openMemory.contains || (x.pendOrdt.take idx).any (fun q => q.dsts.any (fun d => d != 31 && p.dsts.contains d)) ||
        p.dsts.any (fun d => decide (8 ≤ d ∧ d ≤ 11) && s1.room tile cell (d - 8) == 0) then .next s
    else
      .next ((p.dsts.foldl (fun u d => u.deliver tile cell d (mkToken (fun _ => 0) 0 p.tag false)) s1).noteMove tile)

/-- SPILL_RING_REFILL (R122): the ring's head enters its channel when the channel has space. A head with an
uncorrectable error stays, with one tile-store record (R419). -/
def execSpillRingRefill (tile cell dir : Nat) (s : State) : Out :=
  let x := s.cellAt tile cell
  match x.ring.getD dir [] with
  | [] => .next s
  | k :: rest =>
    if s.link tile cell dir = .closed ∨ s.heldOut tile cell dir ∨ 4 ≤ (s.outQueue tile cell dir).length then .next s
    else if s.badRead (k.keys tile) then
      let mark := 2 * (k.bank * 2048 + k.base) + 1
      if x.ringNoted.contains mark then .next s
      else
        let s := s.updCell tile cell (fun x => { x with ringNoted := mark :: x.ringNoted })
        .next (s.report (s.tileRec tile (s.cellOwner tile)
          { unit := 3, code := 0x1D, cell := cell, loc := ownTileAddr k.off, count := s.cecAt 3 tile }))
    else
      let s1 := s.updCell tile cell (fun x => { x with ring := x.ring.set dir rest })
      .next ((s1.intoChannel tile cell dir (tokenOfSlot (s.readKeys (k.keys tile)))).noteMove tile)

/-! ### Sweeps -/

/-- The north and west neighbours of a cell inside its region. -/
def State.sweepFrom (s : State) (t c : Nat) : List Cell :=
  [0, 3].filterMap (fun d => (s.neighbour t c d).map (fun p => s.cellAt p.1 p.2))

/-- What keeps a cell from being drained (R229, R407): bits 0 to 8 for xn, xe, xs, xw, lq0, lq1, ci0, ci1 and er, bit 9
for a pending UPD return, and bit 10 for a beat in progress: one whose cycles have not passed (R222). A reserved entry is an empty head (R218): one of a local queue counts in bit 9, and
one of er, which R229 names with its entries, in bit 8 (log 131). DEDUCED (log 131). -/
def Cell.undrained (x : Cell) (cycle : Nat) : Nat :=
  let b (i : Nat) (p : Bool) : Nat := if p then 2 ^ i else 0
  (List.range 4).foldl (fun a i => a + b i (!(x.xin.getD i []).isEmpty)) 0 +
  (List.range 2).foldl (fun a i =>
    a + b (4 + i) (((x.lq.getD i []).head?.bind QEntry.token).isSome) + b (6 + i) (!(x.ci.getD i []).isEmpty)) 0 +
  b 8 (!x.er.isEmpty) + b 9 (x.pendUpd.any (fun p => p.lq.isSome)) + b 10 (x.sys.isSome && decide (cycle < x.sysNext))

/-- The sweep a cell would switch for next, where it has reached the cell from its north and west neighbours (R63). -/
def State.sweepDue (s : State) (t c : Nat) : Option Sweep :=
  match (s.tile t).anchor with
  | none => none
  | some a =>
    let x := s.cellAt t c
    match (s.region a).sweeps[x.sweepDone]? with
    | none => none
    | some w =>
      if (s.sweepFrom t c).all (fun y => decide (x.sweepDone + 1 < y.sweepDone) ||
          (y.sweepDone == x.sweepDone + 1 && decide (y.switchedAt < s.clk.cycle))) then some w else none

/-- CELL_SWITCH (R63, R229, R403): the cell takes the target context, and its halt and trap are cleared. -/
def execCellSwitch (tile cell : Nat) (s : State) : Out :=
  match s.sweepDue tile cell with
  | none => .next s
  | some w =>
    if (w.carry || (s.cellAt tile cell).undrained s.clk.cycle == 0) && (s.tile tile).cfgl.isNone && !s.cellsPaused tile then
      .next (s.updCell tile cell (fun x =>
        { x with active := w.ctx, sweepDone := x.sweepDone + 1, switchedAt := s.clk.cycle,
                 switches := x.switches.set x.sweepDone s.clk.cycle, trapped := false, halted := false, drainNoted := false }))
    else .next s

/-- The cycle in which a cell switched for sweep n of its region; a cell that CFGL has reloaded counts from then. -/
def Cell.switchFor (x : Cell) (n : Nat) : Nat := x.switches.getD n x.switchedAt

/-- DRAIN_STALL (R407): a drain switch late by 65,536 cycles gets one record. -/
def execDrainStall (tile cell : Nat) (s : State) : Out :=
  match s.sweepDue tile cell with
  | none => .next s
  | some w =>
    let x := s.cellAt tile cell
    let since := match s.sweepFrom tile cell with
      | [] => max w.start (if x.sweepDone = 0 then 0 else x.switchFor (x.sweepDone - 1))
      | ys => ys.foldl (fun a y => max a (y.switchFor x.sweepDone)) 0
    if w.carry || x.undrained s.clk.cycle == 0 || x.drainNoted || s.clk.cycle < since + 65536 then .next s
    else
      .next ((s.updCell tile cell (fun x => { x with drainNoted := true })).cellRecord tile cell 0x3F 0 0x09
        (x.undrained s.clk.cycle) 0)

/-- Whether a cell holds a token (R408). -/
def Cell.holdsToken (x : Cell) : Bool :=
  x.xin.anyP (fun _ l => !l.isEmpty) || x.lq.anyP (fun _ l => l.any (fun e => e.token.isSome)) ||
  x.er.any (fun e => e.token.isSome) || x.ci.anyP (fun _ l => !l.isEmpty) ||
  x.agOut.anyP (fun _ l => !l.isEmpty) || x.ring.anyP (fun _ l => !l.isEmpty)

/-- REGION_STALL (R408): 2^20 cycles without a firing or a moved token while some cell holds a token. -/
def execRegionStall (anchor : Nat) (s : State) : Out :=
  let r := s.region anchor
  match r.loaded.bind s.places.find? with
  | none => .next s
  | some p =>
    let held := p.tiles.flatMap (fun t => ((List.range 64).filter (fun c => (s.cellAt t c).holdsToken)).map (fun c => (t, c)))
    match held with
    | [] => .next s
    | (t, c) :: _ =>
      if r.stallNoted || s.clk.cycle < r.lastMove + 2 ^ 20 then .next s
      else .next ((s.updRegion anchor (fun r => { r with stallNoted := true })).cellRecord t c 0x3F 0 0x0A 0 0)

/-! ### Loop control -/

/-- Whether every control input bound to a loop body of a tile can accept a token (R160). -/
def State.lcuRoom (s : State) (t body : Nat) : Bool :=
  (List.range 64).all (fun c =>
    let x := s.cellAt t c
    (List.range 2).all (fun i =>
      x.ctx.cin i / 128 != 3 || x.ctx.cin i % 4 != body || decide ((x.ci.getD i []).length < 2)))

/-- Whether every participating cell has returned a done token for the iterations released so far (R58). -/
def LcuBody.allDone (b : LcuBody) : Bool :=
  (List.range 64).all (fun c => !b.mask.getLsbD c || decide (b.released ≤ b.done.getD c 0))

/-- LCU_RELEASE (R58): the next iteration by a control token 1, or after the last one a control token 0 and one arrival.
The bodies of an operator that is not loaded wait for it, since their cells are not there, and a body is a held sender while an
arrival of its own waits outside the arrival store (R52). -/
def execLcuRelease (tile slot body : Nat) (s : State) : Out :=
  match ((s.tile tile).oprAt slot).lcu.find? body with
  | none => .next s
  | some b =>
    if !b.running || !b.allDone || (s.loadedOn tile).map keySlot != some slot || !s.lcuRoom tile body || s.cellsPaused tile then
      .next s
    else if b.released < b.count then
      .next (((s.updOpr tile slot (fun o =>
        { o with lcu := o.lcu.set body { b with released := b.released + 1 } })).lcuRelease tile body true).noteMove tile)
    else if s.sendsHeld tile (fun a => a.kind == 6 && a.tag == b.tag && a.detail == body) then .next s
    else
      .next ((((s.updOpr tile slot (fun o =>
        { o with lcu := o.lcu.set body { b with running := false } })).lcuRelease tile body false).noteMove tile).arrive
          tile b.tag 6 (wd body) tile body b.set)

end Sys2Proof.Machine
end

