-- ==== Sys2Proof/Machine/CellFloat.lean ====
section
/-! DEFINITION. The FW40 arithmetic, compares and conversions of cells (R183, R184, R189 to R198) -/

namespace Sys2Proof.Machine

/-- FADD (R189). -/
def execFadd (f : CellF) : State → Out := fpOp2 0x30 f (fun m a b => fadd m a b)

/-- FSUB (R189). -/
def execFsub (f : CellF) : State → Out := fpOp2 0x31 f (fun m a b => fsub m a b)

/-- FMUL (R184, R189): a bound multiplicand carries its latched scale. -/
def execFmul (f : CellF) : State → Out :=
  laneOp 0x32 f (fun s fr i =>
    fmul fr.x.ctx.rnd (s.srcLane fr f.srcA i) (fr.scaleOf f.srcA i) (s.srcLane fr f.srcB i) (fr.scaleOf f.srcB i))

/-- The fused product and sum of FMA and FMS in a lane (R184, R189); src_c stands in the dst_b field. -/
def fmaLane (sub : Bool) (s : State) (fr : Firing) (i : Nat) : Fw × BitVec 5 :=
  let f := fr.f
  fma fr.x.ctx.rnd sub (s.srcLane fr f.srcA i) (fr.scaleOf f.srcA i) (s.srcLane fr f.srcB i) (fr.scaleOf f.srcB i)
    (s.srcLane fr f.dstB i)

/-- FMA (R189): one rounding. -/
def execFma (f : CellF) : State → Out := laneOp 0x33 f (fmaLane false)

/-- FMS (R189). -/
def execFms (f : CellF) : State → Out := laneOp 0x34 f (fmaLane true)

/-- FMIN (R190). -/
def execFmin (f : CellF) : State → Out := fpOp2 0x35 f (fun _ a b => fminmax false a b)

/-- FMAX (R190). -/
def execFmax (f : CellF) : State → Out := fpOp2 0x36 f (fun _ a b => fminmax true a b)

/-- FAMN (R191). -/
def execFamn (f : CellF) : State → Out :=
  laneOp 0x37 f (fun s fr i =>
    famn fr.x.ctx.rnd (s.srcLane fr f.srcA i) (s.srcLane fr f.srcB i) (s.srcLane fr f.dstB i))

/-- FABS (R192). -/
def execFabs (f : CellF) : State → Out := fpOp1 0x38 f (fun _ a => (fabs a, 0))

/-- FNEG (R192). -/
def execFneg (f : CellF) : State → Out := fpOp1 0x39 f (fun _ a => (fneg a, 0))

/-- FRCP (R193). -/
def execFrcp (f : CellF) : State → Out := fpOp1 0x3A f (fun m a => frcp m a)

/-- FRSQ (R193). -/
def execFrsq (f : CellF) : State → Out := fpOp1 0x3B f (fun m a => frsq m a)

/-- FEXP2 (R194). -/
def execFexp2 (f : CellF) : State → Out := fpOp1 0x3C f (fun _ a => fexp2 a)

/-- FLOG2 (R195). -/
def execFlog2 (f : CellF) : State → Out := fpOp1 0x3D f (fun m a => flog2 m a)

/-- FRND (R196). -/
def execFrnd (f : CellF) : State → Out := fpOp1 0x3E f (fun m a => frnd m a)

/-- FCEQ (R197). -/
def execFceq (f : CellF) : State → Out := cmpOp 0x40 f (fcmp 0)

/-- FCLT (R197). -/
def execFclt (f : CellF) : State → Out := cmpOp 0x41 f (fcmp 1)

/-- FCLE (R197). -/
def execFcle (f : CellF) : State → Out := cmpOp 0x42 f (fcmp 2)

/-- FCUN (R197). -/
def execFcun (f : CellF) : State → Out := cmpOp 0x43 f (fcmp 3)

/-- FCVTI (R198). -/
def execFcvti (f : CellF) : State → Out := fpOp1 0x48 f (fun m a => fcvti m a)

/-- ICVTF (R198). -/
def execIcvtf (f : CellF) : State → Out := fpOp1 0x49 f (fun m a => icvtf m a)

/-- UCVTF (R198). -/
def execUcvtf (f : CellF) : State → Out := fpOp1 0x4A f (fun m a => ucvtf m a)

end Sys2Proof.Machine
end

