-- ==== Sys2Proof/Machine/CellLanes.lean ====
section
/-! DEFINITION. The lane operations of cells (R199 to R202) and the queue append QAPP (R65, R203, R204) -/

namespace Sys2Proof.Machine

/-- LSHL (R199): every lane of both sources is read (R179). -/
def execLshl (f : CellF) : State → Out :=
  laneOp 0x60 f (fun s fr i => (if i < 7 then s.srcLane fr f.srcA (i + 1) else s.srcLane fr f.srcB 0, 0))

/-- LSHR (R199). -/
def execLshr (f : CellF) : State → Out :=
  laneOp 0x61 f (fun s fr i => (if 0 < i then s.srcLane fr f.srcA (i - 1) else s.srcLane fr f.srcB 7, 0))

/-- A firing whose result is written in all eight lanes, or none where no lane executes (R180, R200, R201). -/
def wideOp (op : Nat) (f : CellF) (g : State → Firing → Fw × BitVec 5) : State → Out :=
  fire op f (fun s fr =>
    let r := if fr.exec = 0 then ((0, 0) : Fw × BitVec 5) else g s fr
    s.finishFiring fr (fun _ => r.2)
      (fun u => u.emit fr (mkToken (fun _ => r.1) (if fr.exec = 0 then 0 else 0xFF) fr.tag false)))

/-- LBC (R200): the lowest executing lane. -/
def execLbc (f : CellF) : State → Out :=
  wideOp 0x62 f (fun s fr => (s.srcLane fr f.srcA (fr.lanes.headD 0), 0))

/-- The combining steps of the reductions and scans (R201, R202). -/
def addLow (a b : Fw) : Fw × BitVec 5 := ((low32 a + low32 b).setWidth 40, 0)
def minLow (a b : Fw) : Fw × BitVec 5 :=
  ((if (low32 a).toInt ≤ (low32 b).toInt then low32 a else low32 b).setWidth 40, 0)
def maxLow (a b : Fw) : Fw × BitVec 5 :=
  ((if (low32 a).toInt ≤ (low32 b).toInt then low32 b else low32 a).setWidth 40, 0)

/-- An integer value read alone: bits [39:32] cleared (R201, R202). -/
def readInt (a : Fw) : Fw × BitVec 5 := ((low32 a).setWidth 40, 0)

/-- A float value read alone (R183, R201, R202). -/
def readFloat (a : Fw) : Fw × BitVec 5 := (canonFw a, flagIf (isSNaN a) flagInvalid)

/-- The reduction of R201: PairTree over the eight lanes, non-executing lanes absent; one lane gives its own value. -/
def lred (one : Fw → Fw × BitVec 5) (comb : Rnd → Fw → Fw → Fw × BitVec 5) (f : CellF) (s : State) (fr : Firing) :
    Fw × BitVec 5 :=
  match fr.lanes with
  | [i] => one (s.srcLane fr f.srcA i)
  | _ =>
    let r := pairTree (comb fr.x.ctx.rnd) 8
      ((List.range 8).map (fun i => if fr.exec.getLsbD i then some (s.srcLane fr f.srcA i) else none))
    (r.1.getD 0, r.2)

/-- LRED.ADD (R201). -/
def execLredAdd (f : CellF) : State → Out := wideOp 0x64 f (lred readInt (fun _ => addLow) f)
/-- LRED.MIN (R201). -/
def execLredMin (f : CellF) : State → Out := wideOp 0x65 f (lred readInt (fun _ => minLow) f)
/-- LRED.MAX (R201). -/
def execLredMax (f : CellF) : State → Out := wideOp 0x66 f (lred readInt (fun _ => maxLow) f)
/-- LRED.FADD (R201): rounded at each join. -/
def execLredFadd (f : CellF) : State → Out := wideOp 0x67 f (lred readFloat fadd f)
/-- LRED.FMIN (R201). -/
def execLredFmin (f : CellF) : State → Out := wideOp 0x68 f (lred readFloat (fun _ => fminmax false) f)
/-- LRED.FMAX (R201). -/
def execLredFmax (f : CellF) : State → Out := wideOp 0x69 f (lred readFloat (fun _ => fminmax true) f)

/-- The inclusive prefix of R202 over the executing lanes, rising: per lane its value and its step's flags. -/
def scanLanes (one : Fw → Fw × BitVec 5) (comb : Fw → Fw → Fw × BitVec 5) :
    Option Fw → List (Nat × Fw) → List (Nat × Fw × BitVec 5)
  | _, [] => []
  | none, (i, a) :: l => let r := one a; (i, r) :: scanLanes one comb (some r.1) l
  | some acc, (i, a) :: l => let r := comb acc a; (i, r) :: scanLanes one comb (some r.1) l

/-- A SCAN form (R202). -/
def scanOp (op : Nat) (one : Fw → Fw × BitVec 5) (comb : Rnd → Fw → Fw → Fw × BitVec 5) (f : CellF) : State → Out :=
  fire op f (fun s fr =>
    let r := scanLanes one (comb fr.x.ctx.rnd) none (fr.lanes.map (fun i => (i, s.srcLane fr f.srcA i)))
    let at_ (i : Nat) : Fw × BitVec 5 := ((r.find? (fun p => p.1 == i)).map Prod.snd).getD (0, 0)
    s.finishFiring fr (fun i => (at_ i).2)
      (fun u => u.emit fr (mkToken (fun i => (at_ i).1) fr.exec fr.tag false)))

/-- SCAN.ADD (R202). -/
def execScanAdd (f : CellF) : State → Out := scanOp 0x6C readInt (fun _ => addLow) f
/-- SCAN.MAX (R202). -/
def execScanMax (f : CellF) : State → Out := scanOp 0x6D readInt (fun _ => maxLow) f
/-- SCAN.FADD (R202). -/
def execScanFadd (f : CellF) : State → Out := scanOp 0x6E readFloat fadd f
/-- SCAN.FMAX (R202). -/
def execScanFmax (f : CellF) : State → Out := scanOp 0x6F readFloat (fun _ => fminmax true) f

/-- The queue descriptor of QAPP (R203): entry bytes, capacity, header offset. -/
def qappBytes (w : Nat) : Nat := if fld w 39 38 = 0 then 4 else 8
def qappCap (w : Nat) : Nat := fld w 34 21
def qappHdr (w : Nat) : Nat := fld w 20 0

/-- Offset of an entry of a queue (R203). -/
def qappEntry (w idx : Nat) : Nat := qappHdr w + 8 + qappBytes w * (idx % qappCap w)

/-- QAPP's entries: (lane, index), consecutive from the old tail in lane order (R65, R203). -/
def qappPlan (fr : Firing) (old : Nat) : List (Nat × Nat) := fr.lanes.zipIdx.map (fun p => (p.1, old + p.2))

/-- QAPP (R203, R204). With no executing lane it makes no access (R180), and is not stopped for its descriptor either (log 127). A
reserved descriptor stops it with code 0x03,
a misaligned header with 0x13, a byte outside SCRATCH with 0x11 or 0x12, an uncorrectable error with 0x1D (R419). Where several
hold, the cause is the first in this order, the header's before the entries', and the entries' by lane (log 116).
DESIGN CHOICE (log 116). DESIGN CHOICE (log 127). -/
def execQapp (f : CellF) : State → Out :=
  fire 0x70 f (fun s fr =>
    let w := (s.srcLane fr f.srcB 0).toNat
    if fr.exec = 0 then s.quiet fr (fun u => u.emit fr (mkToken (fun _ => 0) 0 fr.tag false))
    else if fld w 39 38 > 1 || fld w 37 35 != 0 || qappCap w == 0 then s.cellTrap fr 0x03 0 0 0
    else if qappHdr w % 8 != 0 then s.cellTrap fr 0x13 0 0 (ownTileAddr (qappHdr w))
    else
      match s.scratchRange fr.t (qappHdr w) 8 with
      | .error e => s.cellTrap fr e 0 0 (ownTileAddr (qappHdr w))
      | .ok hk =>
        if s.badRead hk then s.cellTrap fr 0x1D 0 0 (ownTileAddr (qappHdr w))
        else
          let old := s.readWord hk
          let plan := qappPlan fr old
          match plan.findSome? (fun p => s.scratchFail fr.t (qappEntry w p.2) (qappBytes w)) with
          | some (e, off) => s.cellTrap fr e 0 0 (ownTileAddr off)
          | none =>
            s.quiet fr (fun u =>
              let u := u.writeKeys hk (leBytes 8 (old + fr.lanes.length))
              let u := plan.foldl (fun u p =>
                u.writeKeys (keysFrom (tileKey fr.t (qappEntry w p.2)) (qappBytes w))
                  (leBytes (qappBytes w) (s.srcLane fr f.srcA p.1).toNat)) u
              u.emit fr (mkToken (fun i => intFw (((plan.find? (fun p => p.1 == i)).map Prod.snd).getD 0))
                fr.exec fr.tag false)))

end Sys2Proof.Machine
end

