-- ==== Sys2Proof/Machine/CellSystem.lean ====
section
/-! DEFINITION. Engine commands, sweeps, traps, halts and flag access of cells (R227 to R231). -/

namespace Sys2Proof.Machine

/-- The 40 bytes of a command image (R227): lane i forms bytes 5i to 5i + 4, lanes that do not execute send zero. -/
def ecmdBytes (fr : Firing) (g : Nat → Fw) : List Byte :=
  (List.range 8).flatMap (fun i => leBytes 5 (if fr.exec.getLsbD i then (g i).toNat else 0))

/-- ECMD (R227): the command enters the queue of the cell's command port, with one er entry reserved for its result; it comes after
the cell's updates that are not applied yet (R130, R228). -/
def execEcmd (f : CellF) : State → Out :=
  fire 0xB0 f (fun s fr =>
    if fr.exec = 0 then s.quiet fr id
    else
      match s.portOf fr.t fr.c with
      | none => s.cellTrap fr 0x06 0 0 0
      | some q =>
        let w := wordsOf (ecmdBytes fr (s.srcLane fr f.srcA))
        let id := s.sched.ids
        let c : QCmd :=
          { id := id, w0 := w.getD 0 0, w1 := w.getD 1 0, w2 := w.getD 2 0, w3 := w.getD 3 0, w4 := w.getD 4 0,
            by_ := .cell fr.c id, epoch := 0, after := fr.x.pendUpd.map PendUpd.id }
        s.quiet fr (fun u =>
          (u.enqueue fr.t (keySlot (s.cellOwner fr.t)) q c).updCell fr.t fr.c (fun x =>
            { x with er := x.er ++ [.reserved id], ecmds := x.ecmds ++ [id] })))

/-- CSWEEP (R229): only the region's north-west cell performs it. -/
def execCsweep (f : CellF) : State → Out :=
  fire 0xC0 f (fun s fr =>
    if (s.tile fr.t).anchor = some fr.t ∧ fr.c = 0 then s.quiet fr (fun u => u.startSweep fr.t f.srcA (f.srcB == 1))
    else s.cellTrap fr 0x05 0 0 0)

/-- TRAP (R230): it pops nothing, writes nothing and sends nothing. -/
def execCellTrap (f : CellF) : State → Out := fire 0xC1 f (fun s fr => s.cellTrap fr 0x02 f.srcA 0 0)

/-- HALT (R230). -/
def execCellHalt (f : CellF) : State → Out :=
  fire 0xC2 f (fun s fr => s.quiet fr (fun u => u.updCell fr.t fr.c (fun x => { x with halted := true })))

/-- FLGR (R231). -/
def execFlgr (f : CellF) : State → Out :=
  fire 0xC3 f (fun s fr => s.quiet fr (fun u =>
    u.emit fr (mkToken (fun i => (fr.x.flags.getD i 0).setWidth 40) fr.exec fr.tag false)))

/-- FLGC (R231): its mask is bits [4:0] of the src_a field. -/
def execFlgc (f : CellF) : State → Out :=
  fire 0xC4 f (fun s fr => s.quiet fr (fun u => u.updCell fr.t fr.c (fun x =>
    { x with flags := fr.lanes.foldl (fun m i => m.upd i 0 (fun o => o &&& ~~~ BitVec.ofNat 5 f.srcA)) x.flags })))

end Sys2Proof.Machine
end

