-- ==== Sys2Proof/WellFormed.lean ====
section
/-! DEFINITION. Which instructions are well formed: those every field of which holds a value the encoding and the
checks of R170, R206, R207 and R303 allow. -/

namespace Sys2Proof

/-- Well-formed instructions. -/
abbrev WellFormed (i : Instr) : Prop := wfInstr i = true

end Sys2Proof
end

