-- ==== Sys2Proof/Decode.lean ====
section
/-! DEFINITION. The decoder: from the words of R149 and R164, from a submission entry (R303) and from a register
write (R369) to an instruction or a named refusal; and the encoder. -/

namespace Sys2Proof

/-- An instruction that passes its field rules, or the refusal of a bad operand. -/
def checked (i : Instr) : Except DecodeError Instr := if coreOk i then .ok i else .error .badOperand

/-- An instruction whose unused bits are zero (R164), checked. -/
def plain (unused : Nat) (i : Instr) : Except DecodeError Instr :=
  if unused = 0 then checked i else .error .unusedField

/-- A CSRW by its register number: LCUGO, CSWEEPT and CTE have rows of their own (R234). -/
def decodeCsrw (a c : Nat) : Except DecodeError Instr :=
  if 0xA0 ≤ c ∧ c ≤ 0xA3 then .ok (.lcugoWrite a (c - 0xA0))
  else if c = 0xA8 then .ok (.csweeptWrite a)
  else if 0x100 ≤ c ∧ c ≤ 0x17F then .ok (.cteWrite a (fld c 6 4) (fld c 3 0))
  else checked (.csrw a c)

/-- The tile-core word w. The rows of IRED (R289) and of PROMO (R298) share a word; `w0` is command word 0, whose form
bits tell them apart. Form 3 of IRED is reserved: the word decodes as gather-sum, whose checks refuse it (R274). -/
def decodeCore (w0 w : Nat) : Except DecodeError Instr :=
  let d := fld w 23 19
  let a := fld w 18 14
  let b := fld w 13 9
  let x := fld w 8 0
  let i := fld w 13 0
  let tg := fld w 13 8
  let s := fld w 7 0
  let eng (mk : Nat → Nat → Nat → Instr) : Except DecodeError Instr :=
    plain (d + fld w 7 3) (mk a tg (fld w 2 0))
  match fld w 31 24 with
  | 0x01 => plain x (.add d a b)
  | 0x02 => plain x (.sub d a b)
  | 0x03 => plain x (.mul d a b)
  | 0x04 => plain x (.mulh d a b)
  | 0x05 => plain x (.mulhu d a b)
  | 0x06 => plain x (.div d a b)
  | 0x07 => plain x (.divu d a b)
  | 0x08 => plain x (.rem d a b)
  | 0x09 => plain x (.remu d a b)
  | 0x0A => plain x (.and d a b)
  | 0x0B => plain x (.or d a b)
  | 0x0C => plain x (.xor d a b)
  | 0x0D => plain x (.andn d a b)
  | 0x0E => plain x (.shl d a b)
  | 0x0F => plain x (.shr d a b)
  | 0x10 => plain x (.sar d a b)
  | 0x11 => plain x (.rot d a b)
  | 0x12 => plain i (.clz d a)
  | 0x13 => plain i (.popc d a)
  | 0x14 => plain x (.cseq d a b)
  | 0x15 => plain x (.csne d a b)
  | 0x16 => plain x (.cslt d a b)
  | 0x17 => plain x (.csle d a b)
  | 0x18 => plain x (.csltu d a b)
  | 0x19 => plain x (.csleu d a b)
  | 0x1A => plain (fld w 8 2) (.adds d a b (fld w 1 0))
  | 0x1B => plain x (.min d a b)
  | 0x1C => plain x (.max d a b)
  | 0x20 => checked (.addi d a i)
  | 0x21 => checked (.andi d a i)
  | 0x22 => checked (.ori d a i)
  | 0x23 => checked (.xori d a i)
  | 0x24 => plain (fld w 13 6) (.shli d a (fld w 5 0))
  | 0x25 => plain (fld w 13 6) (.shri d a (fld w 5 0))
  | 0x26 => plain (fld w 13 6) (.sari d a (fld w 5 0))
  | 0x27 => checked (.cslti d a i)
  | 0x28 => checked (.cseqi d a i)
  | 0x29 => plain a (.li d i)
  | 0x30 => plain (fld w 10 0) (.kld d (fld w 18 11))
  | 0x31 => plain (fld w 10 0) (.kst d (fld w 18 11))
  | 0x32 => plain (d + fld w 2 0) (.kmov (fld w 18 11) (fld w 10 3))
  | 0x38 => checked (.skip (fld w 23 20) (fld w 19 15) (fld w 14 0))
  | 0x39 => checked (.exit (fld w 23 20) (fld w 19 15) (fld w 14 0))
  | 0x3A => plain (fld w 23 0) .endI
  | 0x3B => plain (fld w 23 5) (.snul (fld w 4 0))
  | 0x3C => plain (fld w 18 0) (.gnul d)
  | 0x3D => checked (.pfx (fld w 23 0))
  | 0x40 => checked (.ldB d a b x)
  | 0x41 => checked (.ldH d a b x)
  | 0x42 => checked (.ldW d a b x)
  | 0x43 => checked (.ld d a b x)
  | 0x44 => checked (.ldBu d a b x)
  | 0x45 => checked (.ldHu d a b x)
  | 0x46 => checked (.ldWu d a b x)
  | 0x48 => checked (.stB d a b x)
  | 0x49 => checked (.stH d a b x)
  | 0x4A => checked (.stW d a b x)
  | 0x4B => checked (.st d a b x)
  | 0x4C => checked (.ldAcq d a b (fld w 8 6) (fld w 5 0))
  | 0x4D => checked (.stRel d a b (fld w 8 6) (fld w 5 0))
  | 0x4E => plain (fld w 23 14 + fld w 5 0) (.fenAcq b (fld w 8 6))
  | 0x4F => plain (fld w 23 14 + fld w 5 0) (.fenRel b (fld w 8 6))
  | 0x60 => checked (.amoAdd 0 d a b (fld w 8 4) (fld w 3 1) (fld w 0 0))
  | 0x61 => checked (.amoAdd 1 d a b (fld w 8 4) (fld w 3 1) (fld w 0 0))
  | 0x62 => checked (.amoAdd 2 d a b (fld w 8 4) (fld w 3 1) (fld w 0 0))
  | 0x63 => checked (.amoAdd 3 d a b (fld w 8 4) (fld w 3 1) (fld w 0 0))
  | 0x64 => checked (.amoMin 0 d a b (fld w 8 4) (fld w 3 1) (fld w 0 0))
  | 0x65 => checked (.amoMin 1 d a b (fld w 8 4) (fld w 3 1) (fld w 0 0))
  | 0x66 => checked (.amoMin 2 d a b (fld w 8 4) (fld w 3 1) (fld w 0 0))
  | 0x67 => checked (.amoMin 3 d a b (fld w 8 4) (fld w 3 1) (fld w 0 0))
  | 0x68 => checked (.amoMax 0 d a b (fld w 8 4) (fld w 3 1) (fld w 0 0))
  | 0x69 => checked (.amoMax 1 d a b (fld w 8 4) (fld w 3 1) (fld w 0 0))
  | 0x6A => checked (.amoMax 2 d a b (fld w 8 4) (fld w 3 1) (fld w 0 0))
  | 0x6B => checked (.amoMax 3 d a b (fld w 8 4) (fld w 3 1) (fld w 0 0))
  | 0x6C => checked (.amoAnd 0 d a b (fld w 8 4) (fld w 3 1) (fld w 0 0))
  | 0x6D => checked (.amoAnd 1 d a b (fld w 8 4) (fld w 3 1) (fld w 0 0))
  | 0x6E => checked (.amoAnd 2 d a b (fld w 8 4) (fld w 3 1) (fld w 0 0))
  | 0x6F => checked (.amoAnd 3 d a b (fld w 8 4) (fld w 3 1) (fld w 0 0))
  | 0x70 => checked (.amoOr 0 d a b (fld w 8 4) (fld w 3 1) (fld w 0 0))
  | 0x71 => checked (.amoOr 1 d a b (fld w 8 4) (fld w 3 1) (fld w 0 0))
  | 0x72 => checked (.amoOr 2 d a b (fld w 8 4) (fld w 3 1) (fld w 0 0))
  | 0x73 => checked (.amoOr 3 d a b (fld w 8 4) (fld w 3 1) (fld w 0 0))
  | 0x74 => checked (.amoXor 0 d a b (fld w 8 4) (fld w 3 1) (fld w 0 0))
  | 0x75 => checked (.amoXor 1 d a b (fld w 8 4) (fld w 3 1) (fld w 0 0))
  | 0x76 => checked (.amoXor 2 d a b (fld w 8 4) (fld w 3 1) (fld w 0 0))
  | 0x77 => checked (.amoXor 3 d a b (fld w 8 4) (fld w 3 1) (fld w 0 0))
  | 0x78 => checked (.amoXchg 0 d a b (fld w 8 4) (fld w 3 1) (fld w 0 0))
  | 0x79 => checked (.amoXchg 1 d a b (fld w 8 4) (fld w 3 1) (fld w 0 0))
  | 0x7A => checked (.amoXchg 2 d a b (fld w 8 4) (fld w 3 1) (fld w 0 0))
  | 0x7B => checked (.amoXchg 3 d a b (fld w 8 4) (fld w 3 1) (fld w 0 0))
  | 0x7C => checked (.amoCas 0 d a b (fld w 8 4) (fld w 3 1) (fld w 0 0))
  | 0x7D => checked (.amoCas 1 d a b (fld w 8 4) (fld w 3 1) (fld w 0 0))
  | 0x7E => checked (.amoCas 2 d a b (fld w 8 4) (fld w 3 1) (fld w 0 0))
  | 0x7F => checked (.amoCas 3 d a b (fld w 8 4) (fld w 3 1) (fld w 0 0))
  | 0x80 => plain (fld w 23 14 + s) (.blkt tg)
  | 0x81 => plain (fld w 23 14 + s) (.ublkt tg)
  | 0x82 => if bitOf w 7 then plain (tg + fld w 6 5) (.sendBo d a (fld w 4 0)) else plain s (.send d a tg)
  | 0x83 => if bitOf w 5 then plain (d + fld w 7 6) (.bosetClr a tg (fld w 4 0)) else plain (d + fld w 7 6) (.boset a tg (fld w 4 0))
  | 0x84 => plain (fld w 23 5) (.boarm (fld w 4 0))
  | 0x88 => plain tg (.spawn d a s)
  | 0x89 => plain (fld w 23 14 + s) (.join tg)
  | 0x8A => if bitOf w 0 then plain (d + fld w 13 1) (.rfwdRet a) else plain (d + fld w 13 1) (.rfwd a)
  | 0x90 => if bitOf w 3 then plain d (.strmTemplate a tg (fld w 7 4) (fld w 2 0)) else plain (d + fld w 7 4) (.strm a tg (fld w 2 0))
  | 0x91 => plain (fld w 23 20 + a) (.sbar (fld w 19 19) tg s)
  | 0x92 => plain (fld w 23 14 + fld w 7 7) (.cfgl tg (fld w 6 6) (fld w 5 4) (fld w 3 0))
  | 0x93 => plain (fld w 23 14 + fld w 7 6) (.cfgbank tg (fld w 5 4) (fld w 3 0))
  | 0x94 => plain (fld w 23 3) (.ctsw (fld w 2 0))
  | 0x98 => if bitOf w 7 then plain (d + tg + fld w 6 3) (.eqwPort a (fld w 2 0)) else plain (d + tg + fld w 6 3) (.eqw a (fld w 2 0))
  | 0x99 => eng .copy
  | 0x9A => eng .publ
  | 0xA0 => eng .mv
  | 0xA1 => eng .scout
  | 0xA2 => eng .attn
  | 0xA4 => eng .collTri
  | 0xA5 => eng .collSum
  | 0xA6 => eng .collMax
  | 0xA7 => eng .collGath
  | 0xA8 => eng .collSmp
  | 0xA9 => eng .sample
  | 0xAA => eng .wbuild
  | 0xAB => eng .wswitch
  | 0xA3 => if fld w0 31 30 = 1 then eng .iredGatherMax else if fld w0 31 30 = 2 then eng .iredAtomic else eng .iredGatherSum
  | 0xAC => if bitOf w0 31 then eng .promoDemote else eng .promo
  | 0xB0 => plain (fld w 18 0) (.tnow d)
  | 0xB1 => plain (d + fld w 13 6) (.thold a (fld w 5 0))
  | 0xB8 => plain a (.csrr d i)
  | 0xB9 => if d = 0 then decodeCsrw a i else .error .unusedField
  | 0xBA => plain d (.sysc a tg s)
  | 0xBB => if bitOf w 0 then plain (d + fld w 13 1) (.eretAbort a) else plain (d + fld w 13 1) (.eret a)
  | 0xBC => plain (fld w 23 8) (.trap s)
  | 0xBD => plain (fld w 23 0) .halt
  | _ => .error .reservedOpcode

/-- The cell instruction of an opcode (R155, R207); STEER's and SYSM's two forms differ in a source field. -/
def cellOfOpcode (op : Nat) (f : CellF) : Option Instr :=
  match op with
  | 0x01 => some (.cellAdd f)
  | 0x02 => some (.cellSub f)
  | 0x03 => some (.cellMul f)
  | 0x04 => some (.cellMulh f)
  | 0x05 => some (.cellAnd f)
  | 0x06 => some (.cellOr f)
  | 0x07 => some (.cellXor f)
  | 0x08 => some (.cellAndn f)
  | 0x09 => some (.cellShl f)
  | 0x0A => some (.cellShr f)
  | 0x0B => some (.cellSar f)
  | 0x0C => some (.cellRot f)
  | 0x0D => some (.cellMin f)
  | 0x0E => some (.cellMax f)
  | 0x0F => some (.minu f)
  | 0x10 => some (.maxu f)
  | 0x11 => some (.cellClz f)
  | 0x12 => some (.cellPopc f)
  | 0x13 => some (.bperm f)
  | 0x14 => some (.pack f)
  | 0x18 => some (.sel 0 f)
  | 0x19 => some (.sel 1 f)
  | 0x1A => some (.sel 2 f)
  | 0x1B => some (.sel 3 f)
  | 0x20 => some (.ceq f)
  | 0x21 => some (.cne f)
  | 0x22 => some (.clt f)
  | 0x23 => some (.cle f)
  | 0x24 => some (.cltu f)
  | 0x25 => some (.cleu f)
  | 0x30 => some (.fadd f)
  | 0x31 => some (.fsub f)
  | 0x32 => some (.fmul f)
  | 0x33 => some (.fma f)
  | 0x34 => some (.fms f)
  | 0x35 => some (.fmin f)
  | 0x36 => some (.fmax f)
  | 0x37 => some (.famn f)
  | 0x38 => some (.fabs f)
  | 0x39 => some (.fneg f)
  | 0x3A => some (.frcp f)
  | 0x3B => some (.frsq f)
  | 0x3C => some (.fexp2 f)
  | 0x3D => some (.flog2 f)
  | 0x3E => some (.frnd f)
  | 0x40 => some (.fceq f)
  | 0x41 => some (.fclt f)
  | 0x42 => some (.fcle f)
  | 0x43 => some (.fcun f)
  | 0x48 => some (.fcvti f)
  | 0x49 => some (.icvtf f)
  | 0x4A => some (.ucvtf f)
  | 0x60 => some (.lshl f)
  | 0x61 => some (.lshr f)
  | 0x62 => some (.lbc f)
  | 0x64 => some (.lredAdd f)
  | 0x65 => some (.lredMin f)
  | 0x66 => some (.lredMax f)
  | 0x67 => some (.lredFadd f)
  | 0x68 => some (.lredFmin f)
  | 0x69 => some (.lredFmax f)
  | 0x6C => some (.scanAdd f)
  | 0x6D => some (.scanMax f)
  | 0x6E => some (.scanFadd f)
  | 0x6F => some (.scanFmax f)
  | 0x70 => some (.qapp f)
  | 0x80 => some (.mov f)
  | 0x81 => some (.lit f)
  | 0x82 => some (if f.srcB = 4 then .steerCtl f else .steer f)
  | 0x83 => some (.merge f)
  | 0x84 => some (.ctok f)
  | 0x85 => some (.crec f)
  | 0x86 => some (.drop f)
  | 0x87 => some (.tag f)
  | 0x88 => some (.done f)
  | 0x90 => some (.ldsI f)
  | 0x91 => some (.ldsF f)
  | 0x92 => some (.stsI f)
  | 0x93 => some (.stsF f)
  | 0x94 => some (.updAdd f)
  | 0x95 => some (.updFadd f)
  | 0x96 => some (.updMin f)
  | 0x97 => some (.updMax f)
  | 0x98 => some (.updOr f)
  | 0x99 => some (.updTas f)
  | 0x9A => some (.own f)
  | 0x9B => some (.ordt f)
  | 0xA0 => some (if f.srcA = 15 then .sysmOff f else .sysm f)
  | 0xA1 => some (.ldsw f)
  | 0xA2 => some (.pswp f)
  | 0xA3 => some (.scl f)
  | 0xA4 => some (.tmrg f)
  | 0xB0 => some (.ecmd f)
  | 0xC0 => some (.csweep f)
  | 0xC1 => some (.cellTrap f)
  | 0xC2 => some (.cellHalt f)
  | 0xC3 => some (.flgr f)
  | 0xC4 => some (.flgc f)
  | _ => none

/-- The fields of a 64-bit slot (R149, R150). -/
def slotFields (w : Nat) : CellF :=
  { srcA := fld w 55 51, srcB := fld w 50 46, dstA := fld w 45 41, dstB := fld w 40 36, tagAct := fld w 35 32,
    trig := fld w 31 0 }

/-- The cell slot w (R149 to R158, R206, R207). -/
def decodeSlot (w : Nat) : Except DecodeError Instr :=
  let op := fld w 63 56
  let f := slotFields w
  match slotError op f with
  | some e => .error e
  | none =>
    match cellOfOpcode op f with
    | some i => .ok i
    | none => .error .reservedOpcode

/-- A submission entry (R303); a QUERY of an unassigned kind does not decode (R309). -/
def decodeEntry (e : Entry) : Except DecodeError Instr :=
  let op := e.w0.fld 63 56
  if !entryOk op e then .error .badCommand
  else
    match op with
    | 1 => .ok (.register e)
    | 2 => .ok (.place e)
    | 3 => .ok (.inject e)
    | 4 => .ok (.wbuildCommand e)
    | 5 => .ok (.wswitchCommand e)
    | 6 => .ok (.copyCommand e)
    | 7 => .ok (.timed e)
    | 8 =>
      match e.w1.toNat with
      | 0 => .ok (.queryTileStates e)
      | 1 => .ok (.queryPlacement e)
      | 2 => .ok (.queryRcbUsage e)
      | 3 => .ok (.queryTime e)
      | _ => .error .badCommand
    | 9 => .ok (.unplace e)
    | _ => .error .badCommand

/-- The row a DOMCTL write belongs to (R394, R405): abort comes before resume, and resume before release. -/
def decodeDomctl (v : Word) : Instr :=
  if v.getLsbD 18 then .domctlAbort
  else if v.getLsbD 17 then .domctlResume
  else .domctlRelease

/-- The row a write to a register of VI 0's own page belongs to (R377, R393, R439, R448). -/
def decodeDevReg (off : Nat) (v : Word) : Instr :=
  match off with
  | 0x4010 => .lnkctlWrite
  | 0x4028 => if v.fld 63 62 = 1 then .tadjSlew else if v.fld 63 62 = 2 then .tadjStep else .registerWrite
  | 0x4030 => .attestation
  | 0x4200 =>
    if v.fld 59 11 != 0 then .registerWrite
    else
      match v.fld 63 60 with
      | 1 => .tilecmdWithdraw
      | 2 => .tilecmdAdmit
      | 3 => .tilecmdRestart
      | _ => .registerWrite
  | 0x4320 =>
    match v.fld 63 60 with
    | 1 => .fwctlStart
    | 2 => .fwctlCommit
    | 3 => .fwctlRevert
    | _ => .registerWrite
  | _ => .registerWrite

/-- The row a write to the administration page of a VI belongs to (R376), by the offset in that page. -/
def decodeAdminReg (o : Nat) : Instr :=
  if o < 0x100 ∧ o % 8 = 0 then .windowDescriptorWrite
  else if o = 0x100 then .hsrootWrite
  else if o = 0x108 then .victlWrite
  else .registerWrite

/-- Whether an offset is one of the queue descriptors (R370, R392, R393). -/
def isQueueDescriptor (vi off : Nat) : Bool :=
  off % 8 == 0 &&
  ((decide (0x100 ≤ off) && decide (off < 0x310)) || (vi == 0 && (off == 0x4100 || off == 0x4108)))

/-- The row a BAR0 register write belongs to (R369 to R376, R392): offset `off` of function `vi`. A write to a
register with no row of its own is REGISTER_WRITE. DEDUCED (log 22). -/
def decodeRegWrite (vi off : Nat) (v : Word) : Instr :=
  if off = 0x10 then .vsrootWrite
  else if off = 0x20 then
    match v.fld 33 32 with
    | 1 => .invreqTranslation
    | 2 => .invreqHandle
    | 3 => .invreqBoth
    | _ => .registerWrite
  else if isQueueDescriptor vi off then .queueDescriptorWrite
  else if off = 0x310 then decodeDomctl v
  else if 0x1000 ≤ off ∧ off < 0x1080 ∧ off % 8 = 0 then .sqDoorbell
  else if 0x1080 ≤ off ∧ off < 0x1100 ∧ off % 8 = 0 then .cqDoorbell
  else if vi = 0 ∧ 0x10000 ≤ off ∧ off < 0x20000 then decodeAdminReg ((off - 0x10000) % 0x400)
  else if vi = 0 then decodeDevReg off v
  else .registerWrite

/-- The bits of a well-formed instruction that has an encoding: a 32-bit tile-core word or a 64-bit slot. -/
def encode (i : Instr) : Option (Nat × Nat) :=
  match coreWord i with
  | some w => some (32, w)
  | none =>
    match cellParts i with
    | some p => some (64, slotWord p.1 p.2)
    | none => none

/-- The instruction whose bits are w, numbered from the lowest bit of the first word: up to 32 bits a tile-core word
(R164), else a slot whose trigger word lies first (R161). IRED and PROMO are read with form 0 (log 24).
DESIGN CHOICE (log 24). -/
def decodeTableWord (nbits w : Nat) : Option Instr :=
  let r := if nbits ≤ 32 then decodeCore 0 w else decodeSlot w
  match r with
  | .ok i => some i
  | .error _ => none

end Sys2Proof
end

