-- ==== Sys2Proof/Machine/Images.lean ====
section
/-! DEFINITION. The Osdal image (R175 to R178): its parts, and the checks of REGISTER (R166, R170, R400). A refusal is the
result word of R400 for the first failure. -/

namespace Sys2Proof.Machine

/-! ### Refusals (R400) -/

/-- The result word of a refused image (R400). -/
def imageRefusal (reason sect vt cell ctx slot off : Nat) : Word :=
  wd (reason * 2 ^ 56 + sect % 256 * 2 ^ 48 + vt % 256 * 2 ^ 40 + cell % 64 * 2 ^ 34 + ctx % 4 * 2 ^ 32 + slot % 32 * 2 ^ 27 +
      off % 2 ^ 27)

/-- A failure inside a section: reason, cell, context, slot and byte offset. -/
structure ImageFault where
  reason : Nat
  off : Nat
  cell : Nat := 0x3F
  ctx : Nat := 0
  slot : Nat := 0
  vt : Option Nat := none
  deriving DecidableEq, Repr, Inhabited

/-- The first failure of a list of checks. -/
def firstFault {α : Type} (l : List α) (f : α → Option ImageFault) : Option ImageFault := l.findSome? f

/-- A failure where a condition does not hold. -/
def unless_ (ok : Bool) (x : ImageFault) : Option ImageFault := if ok then none else some x

/-! ### Sections (R175, R176) -/

/-- The number held by n little-endian bytes at an offset (R5). -/
def leAt (b : List Byte) (off n : Nat) : Nat := leNat ((b.drop off).take n)

/-- An entry of the section table (R176) with its index and its bytes. -/
structure Section where
  idx : Nat
  type : Nat
  vt : Nat
  off : Nat
  len : Nat
  rsv : Nat
  bytes : List Byte
  deriving DecidableEq, Repr, Inhabited

/-- The section table of an image. -/
def sectionsOf (b : List Byte) : List Section :=
  (List.range (leAt b 6 2)).map (fun i =>
    let e := 64 + 16 * i
    { idx := i, type := leAt b e 2, vt := leAt b (e + 2) 2, off := leAt b (e + 4) 4, len := leAt b (e + 8) 4,
      rsv := leAt b (e + 12) 4, bytes := (b.drop (leAt b (e + 4) 4)).take (leAt b (e + 8) 4) })

/-- Whether a section type belongs to one tile (R176). -/
def tileSection (type : Nat) : Bool := type == 2 || type == 3 || type == 4 || type == 7 || type == 8

/-- Whether a virtual tile lies in a region of w x h tiles. -/
def inRegion (w h vt : Nat) : Bool := decide (vt % 12 < w) && decide (vt / 12 < h)

/-- The rules of the section table for one entry (R176), against the entries before it. A section that begins inside the header or
the section table is refused too, of which R176 says only that sections do not overlap (log 126). DESIGN CHOICE (log 126). -/
def sectionOk (w h n length : Nat) (before : List Section) (x : Section) : Bool :=
  decide (1 ≤ x.type) && decide (x.type ≤ 9) && x.rsv == 0 && x.off % 8 == 0 && decide (64 + 16 * n ≤ x.off) &&
  decide (x.off + x.len ≤ length) &&
  (if tileSection x.type then x.vt != 0xFFFF && inRegion w h x.vt else x.type == 9 || x.vt == 0xFFFF) &&
  before.all (fun y => x.len == 0 || y.len == 0 || decide (x.off + x.len ≤ y.off) || decide (y.off + y.len ≤ x.off)) &&
  (match x.type with
   | 1 => before.all (·.type != 1)
   | 5 => before.all (·.type != 5)
   | 6 => before.all (·.type != 6)
   | 3 => before.all (fun y => !(y.type == 3 && y.vt == x.vt))
   | 4 => before.all (fun y => !(y.type == 4 && y.vt == x.vt))
   | 7 => before.all (fun y => !(y.type == 7 && y.vt == x.vt))
   | _ => true)

/-! ### Reading the parts -/

/-- A cell context from its 448 bytes (R161, R162). -/
def ctxOfBytes (b : List Byte) : Ctx :=
  let w := wordsOf b
  let used (l : List (Nat × Word)) : List (Nat × Word) := l.filter (fun p => p.2 != 0)
  { slots := ⟨used ((List.range 32).map (fun i => (i, w.getD i 0)))⟩
    lits := ⟨(used ((List.range 16).map (fun i => (i, w.getD (32 + i) 0)))).map (fun p => (p.1, p.2.setWidth 40))⟩
    r0 := w.getD 48 0, r1 := w.getD 49 0, r2 := w.getD 50 0 }

/-- The records of a CELL section: offset, header word and context bytes (R176). -/
def cellRecords (b : List Byte) : List (Nat × Word × List Byte) :=
  (List.range (b.length / 456)).map (fun i =>
    (456 * i, wd (leAt b (456 * i) 8), (b.drop (456 * i + 8)).take 448))

/-- Cell number and context of a CELL record. -/
def recordCell (h : Word) : Nat × Nat := (h.fld 15 8 * 8 + h.fld 7 0, h.fld 17 16)

/-- The key of a context in an image. -/
def ctxKey (vt : Nat) (h : Word) : Nat := (vt * 64 + (recordCell h).1) * 4 + (recordCell h).2

/-- The contexts of an image's CELL sections. -/
def contextsOf (l : List Section) : KMap Ctx :=
  (l.filter (·.type == 2)).foldl (fun m x =>
    (cellRecords x.bytes).foldl (fun m r => m.set (ctxKey x.vt r.2.1) (ctxOfBytes r.2.2)) m) {}

/-- The words of a TASK section. -/
def taskWords (b : List Byte) : List (BitVec 32) := (chunksOf 4 b).map (fun c => BitVec.ofNat 32 (leNat c))

/-- The DATA records of a section (R176): offset, header word, bytes; `fuel` bounds their number. -/
def dataRecords : Nat → Nat → List Byte → List (Nat × Word × List Byte)
  | 0, _, _ => []
  | fuel + 1, at_, b =>
    if b.length < 8 then []
    else
      let h := wd (leAt b 0 8)
      let n := h.fld 63 32
      (at_, h, (b.drop 8).take n) :: dataRecords fuel (at_ + 8 + roundUp n 8) (b.drop (8 + roundUp n 8))

/-- The image that a list of sections describes. -/
def buildImage (w h : Nat) (l : List Section) : Image :=
  let one (t : Nat) : List Byte := ((l.find? (·.type == t)).map (·.bytes)).getD []
  let per {α : Type} (t : Nat) (f : List Byte → α) : KMap α :=
    (l.filter (·.type == t)).foldl (fun m x => m.set x.vt (f x.bytes)) {}
  let body (ws : List Word) (i : Nat) : LcuCfg :=
    { count := (ws.getD (2 * i) 0).fld 31 0, tag := (ws.getD (2 * i) 0).fld 37 32, mask := ws.getD (2 * i + 1) 0 }
  let recs (b : List Byte) : List DataRec :=
    (dataRecords b.length 0 b).map (fun r => { bank := r.2.1.fld 3 0, off := r.2.1.fld 31 8, bytes := r.2.2 })
  { w := w, h := h, oper := wd (leAt (one 1) 0 8), ctxs := contextsOf l, tasks := per 3 taskWords, agt := per 4 wordsOf
    unif := ⟨(wordsOf (one 5)).zipIdx.map (fun p => (16 + p.2, p.1))⟩, routes := wordsOf (one 6)
    lcu := per 7 (fun b => (List.range 4).map (body (wordsOf b)))
    data := (l.filter (·.type == 8)).foldl (fun m x => m.upd x.vt [] (· ++ recs x.bytes)) {} }

/-! ### Cell contexts (R149 to R163, R170) -/

/-- A spill descriptor is well formed (R163). -/
def spillOk (d : Nat) : Bool :=
  fld d 15 12 == 0 &&
  (!bitOf d 31 || (decide (fld d 30 27 ≤ 11) && decide (fld d 26 16 + fld d 11 0 ≤ 2048) && decide (16 ≤ fld d 11 0)))

/-- A control-input source is well formed (R163). -/
def cinOk (c : Nat) : Bool := !bitOf c 8 || !bitOf c 7 || (!bitOf c 6 && fld c 5 2 == 0)

/-- Whether a cell's side d faces out of its tile. -/
def facesOut (c d : Nat) : Bool := (cellNear c d).2

/-- The virtual tile next to one inside a region of w x h tiles. -/
def virtNear (w h vt d : Nat) : Option Nat :=
  let x := vt % 12
  let y := vt / 12
  match d with
  | 0 => if y = 0 then none else some (vt - 12)
  | 1 => if x + 1 < w then some (vt + 1) else none
  | 2 => if y + 1 < h then some (vt + 12) else none
  | _ => if x = 0 then none else some (vt - 1)

/-- Whether an agbind bit stands where R163 allows it: on a side of the tile, and matched by the neighbouring cell where the
side faces another tile of the region. Matched is read as: by the neighbour's context of the same number, which must be there
(log 112). DEDUCED (log 112). -/
def agbindOk (im : Image) (vt cell ctx : Nat) (k : Ctx) (d : Nat) : Bool :=
  !k.agbind d ||
  (facesOut cell d &&
   (match virtNear im.w im.h vt d with
    | none => true
    | some u =>
      match im.ctxs.find? ((u * 64 + (cellNear cell d).1) * 4 + ctx) with
      | some y => y.agbind ((d + 2) % 4)
      | none => false))

/-- The routing block of a context is well formed (R162, R163, R170). Word 2's round and trap_en, which R162 says are zero
in the image, are checked with its other fixed bits (log 111). DEDUCED (log 111). -/
def routingOk (im : Image) (vt cell ctx : Nat) (k : Ctx) (b : List Byte) : Bool :=
  let w := wordsOf (b.drop 384)
  (List.range 4).all (fun d => spillOk (k.spillWord d)) && cinOk (k.cin 0) && cinOk (k.cin 1) && k.r2.fld 63 22 == 0 &&
  (List.range 4).all (agbindOk im vt cell ctx k) && (w.drop 3).all (· == 0)

/-- A slot is well formed (R149, R170): an unused one is zero. -/
def slotOk (w : Word) : Bool :=
  if w.getLsbD 31 then
    match decodeSlot w.toNat with
    | .ok _ => true
    | .error _ => false
  else w == 0

/-- The checks of one CELL record (R176, R170), given the keys of the records before it. -/
def cellRecordFault (im : Image) (vt : Nat) (before : List Nat) (r : Nat × Word × List Byte) : Option ImageFault :=
  let h := r.2.1
  let cell := (recordCell h).1
  let ctx := (recordCell h).2
  if h.fld 63 18 != 0 || h.fld 7 0 > 7 || h.fld 15 8 > 7 || before.contains (ctxKey vt h) then some { reason := 1, off := r.1 }
  else
    let w := wordsOf r.2.2
    match (List.range 32).find? (fun i => !slotOk (w.getD i 0)) with
    | some i => some { reason := 4, off := r.1 + 8 + 8 * i, cell := cell, ctx := ctx, slot := i }
    | none => unless_ (routingOk im vt cell ctx (ctxOfBytes r.2.2) r.2.2) { reason := 5, off := r.1 + 392, cell := cell, ctx := ctx }

/-- The checks of a CELL section (R176). -/
def cellSectionFault (im : Image) (before : List Section) (x : Section) : Option ImageFault :=
  let mine := cellRecords x.bytes
  let earlier := (before.filter (fun y => y.type == 2 && y.vt == x.vt)).flatMap (fun y =>
    (cellRecords y.bytes).map (fun r => ctxKey y.vt r.2.1))
  (firstFault mine.zipIdx (fun q =>
    cellRecordFault im x.vt (earlier ++ (mine.take q.2).map (fun r => ctxKey x.vt r.2.1)) q.1)).orElse (fun _ =>
    unless_ (x.bytes.length % 456 == 0) { reason := 1, off := x.bytes.length / 456 * 456 })

/-! ### Tasks and blocks (R164 to R170) -/

/-- Blocks laid one behind another from a word on: first word and body length. A header whose length runs past the section
ends the list with length 0. -/
def blocksFrom (ws : List (BitVec 32)) : Nat → Nat → List (Nat × Nat)
  | 0, _ => []
  | fuel + 1, at_ =>
    if at_ ≥ ws.length then []
    else
      let n := fld (ws.getD (at_ + 2) 0).toNat 31 21
      if at_ + 3 ≤ ws.length ∧ 1 ≤ n ∧ at_ + 3 + n ≤ ws.length then (at_, n) :: blocksFrom ws fuel (at_ + 3 + n)
      else [(at_, 0)]

/-- A body word as a number. -/
def opOf (w : Nat) : Nat := fld w 31 24

/-- Opcodes that write register rd (R164 to R168). -/
def writesRd (op : Nat) : Bool :=
  (decide (1 ≤ op) && decide (op ≤ 0x1C)) || (decide (0x20 ≤ op) && decide (op ≤ 0x29)) || op == 0x30 || op == 0x3C ||
  (decide (0x40 ≤ op) && decide (op ≤ 0x46)) || op == 0x4C || (decide (0x60 ≤ op) && decide (op ≤ 0x7F)) || op == 0xB0 ||
  op == 0xB8

/-- The LSID that a word produces, if it is a store, an AMO or SNUL. -/
def producedBy (w : Nat) : Option Nat :=
  let op := opOf w
  if (0x48 ≤ op ∧ op ≤ 0x4B) ∨ op = 0x4D ∨ (0x60 ≤ op ∧ op ≤ 0x7F) then some (fld w 13 9)
  else if op = 0x3B then some (fld w 4 0)
  else none

/-- Opcodes that PFX may precede (R165). -/
def takesPfx (op : Nat) : Bool :=
  (decide (0x20 ≤ op) && decide (op ≤ 0x23)) || (decide (0x27 ≤ op) && decide (op ≤ 0x29)) || (decide (0x40 ≤ op) && decide (op ≤ 0x4B))

/-- The route tag a word names: whether any tile of the region may bind it (SEND), and the tag; none where the field is
unused (R246). -/
def tagOfWord (w : Nat) : Option (Bool × Nat) :=
  let op := opOf w
  let tg := fld w 13 8
  if op = 0x82 then (if bitOf w 7 then none else some (true, tg))
  else if op = 0x80 ∨ op = 0x81 ∨ op = 0x83 ∨ op = 0x89 ∨ op = 0x92 ∨ op = 0x93 ∨ op = 0xBA then some (false, tg)
  else if op = 0x91 then (if fld w 23 19 = 1 then some (false, tg) else none)
  else if op = 0x90 ∨ op = 0x99 ∨ op = 0x9A ∨ (0xA0 ≤ op ∧ op ≤ 0xAC) then (if tg = 0 then none else some (false, tg))
  else if op = 0xB1 then some (false, fld w 5 0)
  else none

/-- The rules of R165, R169, R170 and R246 for word i of a body at word `base` of the section: `starts` are the block
starts of its task, `own` and `all_` the tags that its tile and its region bind. DEDUCED (log 87). -/
def wordOk (ws : List (BitVec 32)) (base n i : Nat) (starts own all_ : List Nat) : Bool :=
  let at_ (k : Nat) : Nat := (ws.getD (base + k) 0).toNat
  let w := at_ i
  let op := opOf w
  (match decodeCore 0 w with
   | .ok _ => true
   | .error _ => false) &&
  (op != 0x3D || (decide (i + 1 < n) && takesPfx (opOf (at_ (i + 1))))) &&
  (op != 0x38 || (decide (i + 1 + fld w 14 0 < n) && opOf (at_ (i + fld w 14 0)) != 0x3D)) &&
  (op != 0x39 || starts.any (fun b => decide ((b : Int) = (base + i : Nat) + signed 15 (fld w 14 0)))) &&
  (match tagOfWord w with
   | none => true
   | some (any_, tg) => if any_ then all_.contains tg else own.contains tg)

/-- The rules of R166 and R170 for a block's header, and which masked LSIDs its body produces. -/
def headerOk (ws : List (BitVec 32)) (b n : Nat) : Bool :=
  let body := ((ws.drop (b + 3)).take n).map BitVec.toNat
  let w2 := (ws.getD (b + 2) 0).toNat
  let smask := ws.getD b 0
  let exits := (body.filter (fun w => opOf w == 0x39 || opOf w == 0x3A)).length
  decide (1 ≤ n) && decide (1 ≤ fld w2 20 13) && fld w2 12 0 == 0 && exits == fld w2 20 13 &&
  (List.range 32).all (fun l => !smask.getLsbD l || body.any (fun w => producedBy w == some l))

/-- The masks of a block name what a word of it produces (R170). DEDUCED (log 87). -/
def masksOk (ws : List (BitVec 32)) (b w : Nat) : Bool :=
  (match producedBy w with
   | none => true
   | some l => (ws.getD b 0).getLsbD l) &&
  (!writesRd (opOf w) || (ws.getD (b + 1) 0).getLsbD (fld w 23 19))

/-- The checks of one block (R170). -/
def blockFault (ws : List (BitVec 32)) (b n : Nat) (starts own all_ : List Nat) : Option ImageFault :=
  if !headerOk ws b n then some { reason := 7, off := 4 * b }
  else
    firstFault (List.range n) (fun i =>
      let w := (ws.getD (b + 3 + i) 0).toNat
      if !wordOk ws (b + 3) n i starts own all_ then some { reason := 6, off := 4 * (b + 3 + i) }
      else unless_ (masksOk ws b w) { reason := 7, off := 4 * (b + 3 + i) })

/-- Tags that a tile of an image binds. -/
def Image.tags (im : Image) (vt : Nat) : List Nat := (taskTable (im.tasks.getD vt [])).map (fun e => e.1)

/-- The checks of a TASK section (R176, R404): its table, then its blocks. The blocks of a task are those from its first
block up to the next task's. A tag bound twice, and a bit that R176 does not define, are refused with the section's reason
(log 114). DESIGN CHOICE (log 114). -/
def taskSectionFault (im : Image) (x : Section) : Option ImageFault :=
  let ws := taskWords x.bytes
  let tab := taskTable ws
  let blocks := blocksFrom ws ws.length (4 * tab.length)
  let starts := blocks.map Prod.fst
  let firsts := tab.map (fun e => e.2.2)
  let taskStart (b : Nat) : Nat := (firsts.filter (fun f => decide (f ≤ b))).foldl max 0
  if x.bytes.length % 4 != 0 || ws.length > 2 ^ 24 || (tab.isEmpty && !ws.isEmpty) then some { reason := 8, off := 0 }
  else
    (firstFault tab.zipIdx (fun q =>
      let at_ (k : Nat) : Nat := (ws.getD (4 * q.2 + k) 0).toNat
      unless_ (fld (at_ 0) 7 6 == 0 && fld (at_ 0) 31 10 == 0 && at_ 2 == 0 && at_ 3 == 0 && starts.contains q.1.2.2 &&
          !((tab.take q.2).map (fun e => e.1)).contains q.1.1) { reason := 8, off := 16 * q.2 })).orElse (fun _ =>
    firstFault blocks (fun b =>
      blockFault ws b.1 b.2 (starts.filter (fun c => taskStart c == taskStart b.1)) (im.tags x.vt)
        ((virtTiles im.w im.h).flatMap im.tags)))

/-! ### The other sections -/

/-- The checks of the OPER descriptor (R177): fields, and that every tile of the region binds its fire tag. R40 gives boarding 1 to
resident and in-bank operators and names no refusal of another value there: 2 to 4 are accepted, and play no part (log 125).
DESIGN CHOICE (log 125). -/
def operFault (im : Image) (x : Section) : Option ImageFault :=
  let p := operPar im.oper
  if x.bytes.length != 32 then some { reason := 2, off := 0 }
  else if !(decide (1 ≤ p.height) && decide (p.height ≤ 64) && decide (1 ≤ p.timeout) && decide (p.timeout ≤ 1000) &&
      decide (1 ≤ p.boarding) && decide (p.boarding ≤ 4) && decide (p.binding ≤ 2) && im.oper.fld 2 0 == 0 &&
      (x.bytes.drop 8).all (· == 0)) then some { reason := 2, off := 0 }
  else
    match (virtTiles im.w im.h).find? (fun vt => !(im.tags vt).contains p.fireTag) with
    | some vt => some { reason := 2, off := 0, vt := some vt }
    | none => none

/-- The checks of a ROUTE section (R178): a route index is 0x00 to 0xFE, and an internal entry names a tile of the region.
Bits of an entry that R178 does not define are not checked. DESIGN CHOICE (log 115). -/
def routeFault (im : Image) (x : Section) : Option ImageFault :=
  (firstFault (wordsOf (x.bytes.take (x.bytes.length / 8 * 8))).zipIdx (fun q =>
    unless_ (q.1.fld 63 56 != 0xFF && (q.1.getLsbD 55 || inRegion im.w im.h (q.1.fld 43 36))) { reason := 3, off := 8 * q.2 })).orElse
    (fun _ => unless_ (x.bytes.length % 8 == 0) { reason := 3, off := x.bytes.length / 8 * 8 })

/-- The checks of an LCU section (R176); the bits of a body's word that it does not define must be zero. DESIGN CHOICE
(log 114). -/
def lcuFault (x : Section) : Option ImageFault :=
  if x.bytes.length != 64 then some { reason := 9, off := 0 }
  else firstFault (List.range 4) (fun i => unless_ (leAt x.bytes (16 * i) 8 < 2 ^ 38) { reason := 9, off := 16 * i })

/-- The checks of a DATA section (R176): each record lies within its bank and within the section. -/
def dataFault (x : Section) : Option ImageFault :=
  let l := dataRecords x.bytes.length 0 x.bytes
  let ends := l.foldl (fun a r => max a (r.1 + 8 + roundUp (r.2.1.fld 63 32) 8)) 0
  (firstFault l (fun r =>
    let h := r.2.1
    unless_ (h.fld 7 4 == 0 && decide (h.fld 3 0 ≤ 11) && decide (h.fld 31 8 + h.fld 63 32 ≤ 0x20000) &&
      decide (r.1 + 8 + roundUp (h.fld 63 32) 8 ≤ x.bytes.length)) { reason := 9, off := r.1 })).orElse
    (fun _ => unless_ (ends == x.bytes.length) { reason := 9, off := ends })

/-- The checks of one section's contents. -/
def contentFault (im : Image) (before : List Section) (x : Section) : Option ImageFault :=
  match x.type with
  | 1 => operFault im x
  | 2 => cellSectionFault im before x
  | 3 => taskSectionFault im x
  | 4 => unless_ (x.bytes.length == 256) { reason := 1, off := 0 }
  | 5 => unless_ (x.bytes.length == 1152) { reason := 1, off := 0 }
  | 6 => routeFault im x
  | 7 => lcuFault x
  | 8 => dataFault x
  | _ => none

/-! ### The whole image -/

/-- The header rules of R175; the offset of what breaks them. Bytes beyond the header's length are accepted and ignored
(log 113). DESIGN CHOICE (log 113). -/
def headerFault (b : List Byte) : Option Nat :=
  let n := leAt b 6 2
  let length := leAt b 8 4
  let size (k : Nat) : Bool := decide (1 ≤ leAt b k 1) && decide (leAt b k 1 ≤ 12)
  if b.length < 64 ∨ leAt b 0 4 != 0x4C44534F then some 0
  else if leAt b 4 2 != 1 then some 4
  else if n = 0 ∨ n > 32 then some 6
  else if length < 64 + 16 * n ∨ b.length < length then some 8
  else if !size 12 then some 12
  else if !size 13 then some 13
  else if leAt b 14 2 != 0 then some 14
  else if (crc32c ((b.take length).drop 64)).toNat != leAt b 16 4 then some 16
  else if ((b.drop 20).take 44).any (· != 0) then some 20
  else none

/-- The image of a byte string, or the result word that names its first failure (R170, R175 to R178, R400). -/
def parseImage (b : List Byte) : Except Word Image :=
  match headerFault b with
  | some o => .error (imageRefusal 1 0 0xFF 0x3F 0 0 o)
  | none =>
    let w := leAt b 12 1
    let h := leAt b 13 1
    let l := sectionsOf b
    let im := buildImage w h l
    let bad := l.findSome? (fun x =>
      let before := l.take x.idx
      let own := if tileSection x.type then x.vt else 0xFF
      if !sectionOk w h l.length (leAt b 8 4) before x then some (imageRefusal 1 x.idx own 0x3F 0 0 0)
      else (contentFault im before x).map (fun f => imageRefusal f.reason x.idx (f.vt.getD own) f.cell f.ctx f.slot f.off))
    match bad with
    | some r => .error r
    | none => if l.any (·.type == 1) then .ok im else .error (imageRefusal 2 0 0xFF 0x3F 0 0 0)

end Sys2Proof.Machine
end

