-- ==== Sys2Proof/Machine/StreamEvents.lean ====
section
/-! DEFINITION. What an address generator does on its own: starting a stream (R253, R257), moving its tokens and bytes
(R254 to R256), its completion (R257, R258), markers (R260), held code-table operations (R129) and the page-absent
time-out (R417). -/

namespace Sys2Proof.Machine

/-! ### Markers -/

/-- The marker at the head of an idle address generator. -/
def Ag.marker (a : Ag) : Option Nat :=
  if a.run.isSome then none
  else match a.queue.head? with
    | some (.marker id ..) => some id
    | _ => none

/-- Pop the head of an address generator's queue. -/
def State.agPop (s : State) (t a : Nat) : State := s.updAg t a (fun x => { x with queue := x.queue.tail })

/-- Whether an address generator is held as the sender of an arrival that finds no room in the arrival store (R52). -/
def State.agHeld (s : State) (t a : Nat) : Bool :=
  s.sendsHeld t (fun x => (x.kind == 3 && x.detail == a) || (x.kind == 11 && bitOf x.detail a))

/-- Resolve the marker at the head of address generator a, if every generator of its mask has come to it and none is held as a
sender (R52, R260): all the streams ahead of it have completed, so its arrival is raised. -/
def State.resolveMarker (s : State) (t a : Nat) : State :=
  match ((s.tile t).ag a).marker, ((s.tile t).ag a).queue.head? with
  | some id, some (.marker _ mask _ tag set) =>
    let ags := (List.range 8).filter (bitOf mask)
    if ags.all (fun b => ((s.tile t).ag b).marker == some id && !s.agHeld t b) then
      let s := ags.foldl (fun s b => s.agPop t b) s
      match tag with
      | some g => s.arrive t g 11 0 t mask set
      | none => s
    else s
  | _, _ => s

/-- Resolve every marker of a tile that can be resolved. -/
def State.resolveMarkers (s : State) (t : Nat) : State :=
  (List.range 128).foldl (fun s i => s.resolveMarker t (i % 8)) s

/-- SBAR (R260): one marker in the queue of each named address generator. A full queue takes the marker too: R54 lists no hold
for SBAR, and the spec names no other outcome. DESIGN CHOICE (log 104). -/
def execSbar (w g m : Nat) (s : State) : Out :=
  withRun s (fun t r =>
    let i := s.instOf t r
    let id := s.newId
    let tag := if w = 1 then some g else none
    .next (((((List.range 8).filter (bitOf m)).foldl (fun s n => s.updAg t n (fun a =>
      { a with queue := a.queue ++ [.marker id.1 m i.pk tag i.set] })) id.2).resolveMarkers t).advance t r))

/-! ### A running stream -/

/-- Set the running stream of an address generator. -/
def State.setStream (s : State) (t a : Nat) (r : StreamRun) : State := s.updAg t a (fun x => { x with run := some r })

/-- A record of a stream (R413). DEDUCED (log 100). -/
def State.streamRec (s : State) (t : Nat) (r : StreamRun) (severity : Nat) (f : Fail) : State :=
  s.report (s.tileRec t r.s.pk { severity := severity, unit := 2, code := f.code, loc := f.loc, detail := f.detail })

/-- Stop a stream at a failed check (R257, R414): one record, and it goes on to its completion with the error. -/
def State.streamFail (s : State) (t a : Nat) (r : StreamRun) (f : Fail) : State :=
  ((s.linkNote f (s.tileRec t r.s.pk {})).streamRec t r 1 f).setStream t a { r with err := f.code, fin := true, stall := none }

/-- The cell and the side that position p of address generator a serves (R21). -/
def agCell (a p : Nat) : Nat × Nat :=
  let i := a % 2 * 4 + p
  match a / 2 with
  | 0 => (i, 0)
  | 1 => (i * 8 + 7, 1)
  | 2 => (56 + i, 2)
  | _ => (i * 8, 3)

/-- Positions of a stream's cells field, rising. -/
def Stream.positions (x : Stream) : List Nat := (List.range 4).filter (bitOf x.cells)

/-- Whether every named position reaches its cell (R253). -/
def State.positionsOk (s : State) (t a : Nat) (x : Stream) : Bool :=
  x.positions.all (fun p => s.link t (agCell a p).1 (agCell a p).2 == .ag a)

/-- Dereference the stream's handle against the entry it resolved (R120, R145, R253). -/
def State.streamDeref (s : State) (x : Stream) : Deref :=
  match x.entry with
  | none => .fail 0x18
  | some e => derefEntry e x.w1 x.rows x.isStore (s.viOf x.pk)

/-- A stall of a stream on an absent page; the first stall on an entry writes the notice (R417). -/
def State.stallStream (s : State) (t a : Nat) (r : StreamRun) : State :=
  let h := r.s.w1
  let s := s.setStream t a { r with stall := some s.clk.cycle }
  if (s.vi (hVi h)).noticed.contains (hIndex h) then s
  else
    (s.updVi (hVi h) (fun v => { v with noticed := hIndex h :: v.noticed })).streamRec t r 0 ⟨0x1F, h, 0⟩

/-- Make a handle stream's entry ready, or stall it, or stop it (R120, R145, R253): a stream whose page has come
resolves its handle once more, and one that has stalled resumes once the entry's tier has become 0 in time (R417), after those
that stalled on it before (R126); its stall is over then, whether or not a token can move. -/
def State.openStream (s : State) (t a : Nat) (r : StreamRun) (k : State → StreamRun → State) : State :=
  if r.s.space != 1 then k s r
  else
    match s.streamDeref r.s with
    | .fail c => s.streamFail t a r ⟨c, r.s.w1, 0⟩
    | .ready e =>
      if packedBytes r.s.fmt r.s.rowLen > e.stride then s.streamFail t a r ⟨1, 0, 0⟩ else k s r
    | .stall _ =>
      if (match r.stall with
          | some c => !s.mayResume r.s.w1 c (s.pageTimeoutOf r.s.pk) || s.stalledBefore r.s.w1 c
          | none => false) then s
      else
        let e := if r.stall.isSome then (some (s.plainEntry r.s.w1), s) else s.entryFor r.s.w1
        let x : Stream := { r.s with entry := e.1 }
        match e.2.streamDeref x with
        | .stall _ => e.2.stallStream t a { r with s := x }
        | .fail c => e.2.streamFail t a { r with s := x } ⟨c, x.w1, 0⟩
        | .ready y =>
          if packedBytes x.fmt x.rowLen > y.stride then e.2.streamFail t a { r with s := x } ⟨1, 0, 0⟩
          else
            let on : StreamRun := { r with s := x, stall := none }
            k (e.2.setStream t a on) on

/-- Run f on a tile with the cells of an operator in place: those that its eviction saved, or that it left behind when it was
switched out (R323). DEDUCED (log 68). -/
def State.onCells (s : State) (t pk : Nat) (f : State → State) : State :=
  let anchor := keyAnchor pk
  match (s.region anchor).away pk with
  | none => f s
  | some sv =>
    let here := (s.tile t).cells
    let s := f (s.updTile t (fun x => { x with cells := sv.cells.getD t {} }))
    let there := (s.tile t).cells
    let keep (k : Nat) (v : Saved) : Saved := if k = pk then { v with cells := v.cells.set t there } else v
    (s.updTile t (fun x => { x with cells := here })).updRegion anchor (fun r =>
      { r with evicted := r.evicted.mapVals keep, aside := r.aside.mapVals keep })

/-- STREAM_START (R257): the head of the queue starts after its handoff pop; the positions and the handle are checked
then (R253). DEDUCED (log 68). -/
def execStreamStart (tile ag : Nat) (s : State) : Out :=
  let a := (s.tile tile).ag ag
  match a.run, a.queue with
  | none, .stream x :: rest =>
    let slot := keySlot x.pk
    if (x.hfPop && s.hfCount tile slot x.hfPopIdx == 0) || !s.streamHere tile x || s.agHeld tile ag then .next s
    else
      let s := s.settleTables tile ag
      let s := if x.hfPop then s.hfSet tile slot x.hfPopIdx (s.hfCount tile slot x.hfPopIdx - 1) else s
      let r : StreamRun := { s := x }
      let s := (s.updAg tile ag (fun y => { y with queue := rest })).setStream tile ag r
      .next (s.onCells tile x.pk (fun s =>
        if !x.direct && !s.positionsOk tile ag x then s.streamFail tile ag r ⟨1, 0, 0⟩
        else s.openStream tile ag r (fun s r => s.setStream tile ag r)))
  | _, _ => .next s

/-! ### Addresses -/

/-- First byte of row r, as the stream's address word (R253). -/
def Stream.rowAddr (x : Stream) (r : Nat) : Word :=
  if x.space = 1 then
    match x.entry with
    | some e => wd (e.addrOf x.w1 r)
    | none => 0
  else x.w1 + BitVec.ofInt 64 (x.stride * (r : Int))

/-- The keys of n bytes of a stream of address generator g at an address, with the checks of its space (R107 to R109, R120,
R252): a handle's bytes lie in the space of the VI that its entry names. -/
def State.streamKeys (s : State) (t g : Nat) (x : Stream) (a : Word) (n align : Nat) : Res (List Nat) × State :=
  let wr := x.isStore
  if x.space = 1 then
    let vi := match x.entry with | some e => e.vi | none => hVi x.w1
    match s.windowCheck vi a.toNat n (!wr) wr with
    | (.error e, s) => (.error e, s)
    | (.ok _, s) =>
      if a.toNat % align != 0 then (.error ⟨0x13, a, 0⟩, s) else s.resolveDv false (agUnit t g) vi a.toNat n (!wr) wr
  else if a.fld 63 57 != (if x.space = 2 then 0x7F else 0) then (.error ⟨0x10, a, 0⟩, s)
  else s.resolveEa (agUnit t g) t x.pk (s.viOf x.pk) a n align (!wr) wr

/-- Read n bytes of a stream. -/
def State.streamRead (s : State) (t g : Nat) (x : Stream) (a : Word) (n align : Nat) : Except Fail (List Byte) × State :=
  match s.streamKeys t g x a n align with
  | (.error f, s) => (.error f, s)
  | (.ok ks, s) =>
    match s.tileRead t ks with
    | (none, s) => (.error ⟨0x1D, a, 0⟩, s)
    | (some b, s) => (.ok b, s)

/-! ### Loads to cells (R254) -/

/-- Tokens of one row. -/
def Stream.rowTokens (x : Stream) : Nat := ceilDiv x.rowLen 8

/-- The position whose turn it is. -/
def StreamRun.pos (r : StreamRun) : Nat :=
  let l := r.s.positions
  l.getD (r.dealt / 2 ^ r.s.group % max 1 l.length) 0

/-- The run after one data token. -/
def StreamRun.step (r : StreamRun) : StreamRun :=
  let last := r.tok + 1 == r.s.rowTokens
  let row := if last then r.row + 1 else r.row
  { r with dealt := r.dealt + 1, tok := if last then 0 else r.tok + 1, row := row, fin := row == r.s.rows }

/-- The code table of a stream (R128). -/
def State.streamTab (s : State) (t a : Nat) (x : Stream) (i : Nat) : BitVec 16 :=
  let g := (s.tile t).ag a
  (if x.tab = 0 then g.tab0 else g.tab1).getD i 0

/-- Elements in the current token. -/
def StreamRun.count (r : StreamRun) : Nat := min 8 (r.s.rowLen - 8 * r.tok)

/-- Address of the current token's elements. -/
def StreamRun.groupAddr (r : StreamRun) : Word := r.s.rowAddr r.row + wd (r.tok * elemBits r.s.fmt)

/-- The tag of the current token (R252). -/
def StreamRun.tagOf (r : StreamRun) : BitVec 2 :=
  if r.s.tagmode = 1 ∧ r.tok = 0 then 1
  else if r.s.tagmode = 2 ∧ r.tok + 1 = r.s.rowTokens then 2
  else 0

/-- The block of the current token (R77), as a mark that differs for each row and block. -/
def StreamRun.block (r : StreamRun) : Nat := 8 * r.tok / max 1 (scaleBlock r.s.scale)
def StreamRun.blockMark (r : StreamRun) : Nat := r.row * 2 ^ 20 + r.block + 1

/-- Address of the current block's scale (R253). -/
def StreamRun.scaleAddr (r : StreamRun) : Word :=
  let x := r.s
  x.rowAddr 0 + wd (x.scaleOff + (r.row * ceilDiv x.rowLen (scaleBlock x.scale) + r.block) * scaleBytes x.scale)

/-- A token into the outward-facing input channel of a cell. -/
def State.toCell (s : State) (t c d : Nat) (k : Token) : State :=
  (s.updCell t c (fun y => { y with xin := y.xin.upd d [] (fun l => l ++ [k]) })).noteMove t

/-- Send the scale token of the current block (R89). -/
def State.sendScale (s : State) (t a : Nat) (r : StreamRun) (c d : Nat) : State :=
  match s.streamRead t a r.s r.scaleAddr (scaleBytes r.s.scale) 1 with
  | (.error f, s) => s.streamFail t a r f
  | (.ok b, s) =>
    let v := scaleFw r.s.scale (leNat b)
    (s.toCell t c d (mkToken (fun _ => v.1) 0xFF 0 true)).setStream t a
      { r with scaled := r.scaled.set r.pos r.blockMark, flags := r.flags ||| v.2 }

/-- Send the current data token (R254). -/
def State.sendData (s : State) (t a : Nat) (r : StreamRun) (c d : Nat) : State :=
  let x := r.s
  let n := r.count
  match s.streamRead t a x r.groupAddr (packedBytes x.fmt n) (elemBytes x.fmt) with
  | (.error f, s) => s.streamFail t a r f
  | (.ok b, s) =>
    let vs := (rawElems x.fmt n b).map (decodeElem x.fmt x.intLanes (s.streamTab t a x))
    let k := mkToken (fun i => (vs.getD i (0, 0)).1) (laneMask (fun i => decide (i < n))) r.tagOf false
    (s.toCell t c d k).setStream t a { r.step with flags := vs.foldl (fun f v => f ||| v.2) r.flags }

/-- Whether the channels of an operator's cells in a tile stand still for a fabric-path command (R282, R288). -/
def State.channelsHeld (s : State) (t : Nat) (x : Stream) : Bool := s.loadedOn t == some x.pk && s.cellsPaused t

/-- The next token of a load to cells: the channel must be joined to the generator and have space. -/
def State.loadTransfer (s : State) (t a : Nat) (r : StreamRun) : State :=
  let p := agCell a r.pos
  if s.channelsHeld t r.s || s.link t p.1 p.2 != .ag a || decide (4 ≤ ((s.cellAt t p.1).xin.getD p.2 []).length) then s
  else if r.s.scale != 0 && r.scaled.getD r.pos 0 != r.blockMark then s.sendScale t a r p.1 p.2
  else s.sendData t a r p.1 p.2

/-! ### Stores from cells (R255) -/

/-- Whether byte j of a group holds a bit of element i. -/
def elemTouches (fmt i j : Nat) : Bool :=
  decide (8 * j < elemBits fmt * (i + 1)) && decide (elemBits fmt * i < 8 * j + 8)

/-- The bytes of a group after the elements of some lanes are replaced: offset and value of each byte that holds a bit
of such an element (R69). -/
def mergeElems (fmt n : Nat) (old : List Byte) (lanes : List Nat) (v : Nat → Nat) : List (Nat × Byte) :=
  let b := elemBits fmt
  let w := (List.range n).foldr (fun i acc =>
    (if lanes.contains i then v i % 2 ^ b else fld (leNat old) (b * i + b - 1) (b * i)) + 2 ^ b * acc) 0
  let w := w + leNat old / 2 ^ (b * n) * 2 ^ (b * n)
  ((leBytes (packedBytes fmt n) w).zipIdx.filter (fun q => lanes.any (fun i => elemTouches fmt i q.2))).map
    (fun q => (q.2, q.1))

/-- Bytes of a group that a store of some lanes covers only in part. -/
def partBytes (fmt n : Nat) (lanes : List Nat) : List Nat :=
  (List.range (packedBytes fmt n)).filter (fun j =>
    lanes.any (fun i => elemTouches fmt i j) &&
    !(List.range 8).all (fun k => lanes.any (fun i =>
      decide (elemBits fmt * i ≤ 8 * j + k) && decide (8 * j + k < elemBits fmt * (i + 1)))))

/-- Write the valid lanes of a token to their elements: the group is checked whole (R414). -/
def State.storeGroup (s : State) (t g : Nat) (x : Stream) (a : Word) (n : Nat) (k : Token) :
    Except Fail Flags × State :=
  let lanes := (List.range n).filter (fun i => k.valid.getLsbD i)
  if lanes.isEmpty then (.ok 0, s)
  else
    match s.streamKeys t g x a (packedBytes x.fmt n) (elemBytes x.fmt) with
    | (.error f, s) => (.error f, s)
    | (.ok ks, s) =>
      let mode := if x.rndOvr then x.storeRound else s.storeRoundOf x.pk
      let vs (i : Nat) : Nat × Flags := storeElem x.fmt mode x.imode (lane k.lanes i)
      let part := (partBytes x.fmt n lanes).filterMap (fun j => ks[j]?)
      match s.tileRead t part with
      | (none, s) => (.error ⟨0x1D, a, 0⟩, s)
      | (some old, s) =>
        let base := (List.range ks.length).map (fun j =>
          match (part.zip old).find? (fun q => some q.1 == ks[j]?) with
          | some q => q.2
          | none => 0)
        let out := mergeElems x.fmt n base lanes (fun i => (vs i).1)
        let wk := out.filterMap (fun q => ks[q.1]?)
        if s.tileWriteBad t wk then (.error ⟨0x1D, a, 0⟩, s)
        else (.ok (lanes.foldl (fun f i => f ||| (vs i).2) 0), s.tileWrite t wk (out.map Prod.snd))

/-- The next token of a store from cells. -/
def State.storeTransfer (s : State) (t a : Nat) (r : StreamRun) : State :=
  let p := agCell a r.pos
  match (s.cellAt t p.1).agOut.getD p.2 [] with
  | [] => s
  | k :: rest =>
    if s.channelsHeld t r.s || s.link t p.1 p.2 != .ag a then s
    else
      match s.storeGroup t a r.s r.groupAddr r.count k with
      | (.error f, s) => s.streamFail t a r f
      | (.ok fl, s) =>
        ((s.updCell t p.1 (fun y => { y with agOut := y.agOut.set p.2 rest })).noteMove t).setStream t a
          { r.step with flags := r.flags ||| fl }

/-! ### Direct loads (R124, R256) -/

/-- The code with which a byte of the issuing tile refuses a direct load: it must lie in a SCRATCH bank (R256). -/
def State.scratchCode (s : State) (t off n : Nat) : Nat :=
  if off + n > 0x180000 then 0x11
  else if (keysFrom off n).all (fun o =>
    let b := (s.tile t).bank (o / 0x20000)
    b.mode == .scratch && b.trans.isNone) then 0
  else 0x12

/-- The next aligned 64-byte block of a row of a direct load; `tok` counts the row's bytes already copied. -/
def State.directTransfer (s : State) (t a : Nat) (r : StreamRun) : State :=
  let x := r.s
  let len := packedBytes x.fmt x.rowLen
  let src := x.rowAddr r.row + wd r.tok
  let n := min (64 - src.toNat % 64) (len - r.tok)
  let dst := x.dstOff + r.row * len + r.tok
  match s.streamRead t a x src n (if r.tok = 0 then elemBytes x.fmt else 1) with
  | (.error f, s) => s.streamFail t a r f
  | (.ok b, s) =>
    let c := s.scratchCode t dst n
    let ks := keysFrom (tileKey t dst) n
    if c != 0 then s.streamFail t a r ⟨c, ownTileAddr dst, 0⟩
    else if s.badWrite ks then s.streamFail t a r ⟨0x1D, ownTileAddr dst, 0⟩
    else
      let last := r.tok + n == len
      let row := if last then r.row + 1 else r.row
      (s.writeKeys ks b).setStream t a { r with tok := if last then 0 else r.tok + n, row := row, fin := row == x.rows }

/-- STREAM_TRANSFER (R254 to R256): the next token, element group or block, when it can move. -/
def execStreamTransfer (tile ag : Nat) (s : State) : Out :=
  match ((s.tile tile).ag ag).run with
  | none => .next s
  | some r =>
    if r.fin || !s.streamHere tile r.s then .next s
    else
      .next (s.onCells tile r.s.pk (fun s => s.openStream tile ag r (fun s r =>
        if r.s.direct then s.directTransfer tile ag r
        else if r.s.isStore then s.storeTransfer tile ag r
        else s.loadTransfer tile ag r)))

/-! ### Completion -/

/-- The status word of a stream (R258). -/
def StreamRun.status (r : StreamRun) : Word := wd (r.row * 2 ^ 40 + r.err * 2 ^ 8 + r.flags.toNat)

/-- STREAM_COMPLETION (R257): the handoff push, which waits while its FIFO holds 16, AGSTAT, then the done action; a
stream with an error only adds to AGSTAT. -/
def execStreamCompletion (tile ag : Nat) (s : State) : Out :=
  match ((s.tile tile).ag ag).run with
  | none => .next s
  | some r =>
    let x := r.s
    let slot := keySlot x.pk
    let push := x.hfPush && r.err == 0
    if !r.fin || (push && decide (16 ≤ s.hfCount tile slot x.hfPushIdx)) then .next s
    else
      let s := if push then s.hfSet tile slot x.hfPushIdx (s.hfCount tile slot x.hfPushIdx + 1) else s
      let s := s.updAg tile ag (fun a => { a with run := none })
      let s := s.updOpr tile slot (fun o => { o with agstat := o.agstat.upd ag 0 (fun w => w ||| r.status) })
      let s :=
        if r.err != 0 then s
        else if x.doneKind = 1 then s.boAdd tile slot x.bo 1
        else if x.doneKind = 2 then s.arrive tile x.tag 3 r.status tile ag x.set
        else s
      .next (s.resolveMarkers tile)

/-- CODE_TABLE_APPLY (R129): the oldest held operation, once no stream accepted before the latest CTSW is left. -/
def execCodeTableApply (tile ag : Nat) (s : State) : Out :=
  let a := (s.tile tile).ag ag
  match a.held with
  | [] => .next s
  | o :: rest =>
    if a.olderStreams then .next s
    else .next (s.updAg tile ag (fun a => { (a.applyCte s.sched.ids o) with held := rest }))

/-! ### Page-absent time-out -/

/-- The time-out of a stalled stream (R417), after the cycle up to which a publish lets it resume. -/
def State.streamTimeout (s : State) (t a : Nat) (r : StreamRun) : State :=
  match r.stall with
  | some c =>
    if s.clk.cycle ≤ c + usCycles (s.pageTimeoutOf r.s.pk) ∨ s.pubInTime r.s.w1 c (s.pageTimeoutOf r.s.pk) then s
    else s.streamFail t a r ⟨0x1F, r.s.w1, 1⟩
  | none => s

/-- The address generator whose running stream has an identifier. -/
def State.streamAt (s : State) (id : Nat) : Option (Nat × Nat × StreamRun) :=
  s.tiles.items.findSome? (fun t => t.2.ags.items.findSome? (fun a =>
    match a.2.run with
    | some r => if r.s.id = id then some (t.1, a.1, r) else none
    | none => none))

/-- PAGE_TIMEOUT (R417) of a command or of a stream. -/
def execPageTimeout (id : Nat) (s : State) : Out :=
  match s.cmds.find? id with
  | some rc => .next (s.cmdPageTimeout rc)
  | none =>
    match s.streamAt id with
    | some (t, a, r) => .next (s.streamTimeout t a r)
    | none => .next s

end Sys2Proof.Machine
end

