-- ==== Sys2Proof/Machine/Scheduler.lean ====
section
/-! DEFINITION. Configuration loads and bank transitions (R117, R261), the block scheduler (R316 to R325, R429), the weight
rotation (R43, R321, R343, R344) and the start of task instances (R51, R320, R327). -/

namespace Sys2Proof.Machine

/-! ### Cell state -/

/-- The head of an owner's port is applied, if its port is not stopped. -/
def State.applyOne (s : State) (t c : Nat) : State :=
  let x := s.cellAt t c
  match x.port with
  | [] => s
  | u :: _ => if x.portStuck then s else s.applyUpdate t c u

/-- Updates in flight complete (R261 step 1, R323 step 2): every sender holds at most 8 lanes and every port 16. -/
def State.finishUpdates (s : State) (t : Nat) : State :=
  let round (s : State) (t : Nat) : State :=
    (List.range 64).foldl (fun s c => s.applyOne t c) ((List.range 64).foldl (fun s c => s.moveUpdates t c) s)
  let n := ((List.range 64).map (fun c => let x := s.cellAt t c; x.port.length + x.updOut.length)).sum
  (List.range n).foldl (fun s _ => round s t) s

/-- Contexts of an image's tile loaded into a tile's cells (R261 step 2, R318): those of a mask, zero where the image has
none, with round and trap_en from the effective RCB values of now (R31). -/
def State.loadCtxs (s : State) (t pk : Nat) (p : Placement) (vt mask : Nat) : State :=
  let im := s.imageOf p
  let put (c : Nat) (x : Cell) (n : Nat) : Cell :=
    if bitOf mask n then
      let k := match im with
        | some im => (im.ctxs.find? ((vt * 64 + c) * 4 + n)).getD {}
        | none => {}
      let r2 := (k.r2.put 28 27 (s.effective p.vi p.rcb 7)).put 26 22 (s.effective p.vi p.rcb 6)
      { x with ctxs := x.ctxs.set n { k with r2 := r2, owner := some pk } }
    else x
  s.updCells t (fun c x => (List.range 4).foldl (put c) x)

/-! ### CFGL (R261) -/

/-- The templates and loop bodies of a tile's sections (R176, R261 step 4). -/
def State.loadTables (s : State) (t slot : Nat) (im : Image) (vt active : Nat) : State :=
  let agt := im.agt.getD vt []
  let bodies := (im.lcu.getD vt []).map (fun b => ({ count := b.count, tag := b.tag, mask := b.mask } : LcuBody))
  s.updOpr t slot (fun o =>
    { o with
      agt0 := KMap.ofList ((List.range 16).map (fun i => agt.getD (2 * i) 0))
      agt3 := KMap.ofList ((List.range 16).map (fun i => agt.getD (2 * i + 1) 0))
      lcu := KMap.ofList ((List.range 4).map (fun i => bodies.getD i {}))
      lastActive := active })

/-- CFGL clears the engine queue registers, and a round of each queue ends (R273, R436). -/
def State.clearQueues (s : State) (t slot : Nat) : State :=
  s.updOpr t slot (fun o => { o with eq := {}, queues := o.queues.mapVals (fun _ q => { q with epoch := q.epoch + 1 }) })

/-- Write the DATA records of a tile into their SCRATCH banks; whether one was skipped (R261 step 4). One that covers only part of a
granule with an uncorrectable error is not performed either, and writes a record (R419). DEDUCED (log 62). -/
def State.loadData (s : State) (t pk : Nat) (l : List DataRec) : Bool × State :=
  l.foldl (fun a d =>
    let b := (a.2.tile t).bank d.bank
    let off := d.bank * 0x20000 + d.off
    let ks := keysFrom (tileKey t off) d.bytes.length
    if b.mode == .scratch && b.trans.isNone then
      if a.2.badWrite ks then
        (true, a.2.report (a.2.tileRec t pk { unit := 3, code := 0x1D, loc := ownTileAddr off, count := a.2.cecAt 3 t }))
      else (a.1, a.2.writeKeys ks d.bytes)
    else (true, a.2)) (false, s)

/-- Sweeps that a tile's region has started. -/
def State.sweepCount (s : State) (t : Nat) : Nat :=
  match (s.tile t).anchor with
  | some a => (s.region a).sweeps.length
  | none => 0

/-- Finish the configuration load of a tile (R261), and begin the next that was issued: its completion's g1 is 0, 1 when a DATA
record was skipped, or 2 when the image store met an uncorrectable error, which leaves all contexts zero (R419) and has a record
(R388). The spec names no unit for the image store: it is that of the tile core (log 150). DESIGN CHOICE (log 150). -/
def State.cfglFinish (s : State) (t : Nat) : State :=
  match (s.tile t).cfgl with
  | none => s
  | some c =>
    match s.places.find? c.pk with
    | none => s.updTile t (fun x => { x with cfgl := x.cfglWait.head?, cfglWait := x.cfglWait.tail })
    | some p =>
      let vt := (p.vtOf t).getD 0
      let im := (s.imageOf p).getD default
      let n := s.sweepCount t
      let s := s.finishUpdates t
      let s := s.updTile t (fun x => { x with owners := {}, cfgl := x.cfglWait.head?, cfglWait := x.cfglWait.tail })
      let s := s.updCells t (fun _ x =>
        { x.reset with ringNoted := [], active := c.active, sweepDone := n, switchedAt := s.clk.cycle,
                       switches := (List.range n).foldl (fun m k => if k < x.sweepDone then m else m.set k s.clk.cycle) x.switches })
      let slot := keySlot c.pk
      let s := s.clearQueues t slot
      if im.bad then
        let s := s.report (s.tileRec t c.pk { unit := 1, code := 0x1D, count := s.cecAt 1 t })
        (s.updCells t (fun _ x => { x with ctxs := {} })).arrive t c.tag 10 2 t 0 c.set
      else
        let s := (s.loadCtxs t c.pk p vt c.mask).loadTables t slot im vt c.active
        let r := if c.data then s.loadData t c.pk (im.data.getD vt []) else (false, s)
        r.2.arrive t c.tag 10 (boolWord r.1) t 0 c.set

/-- CFGL_COMPLETE (R261), which waits behind an arrival of an earlier one outside a full arrival store (R52). -/
def execCfglComplete (tile : Nat) (s : State) : Out :=
  if s.sendsHeld tile (fun a => a.kind == 10 && a.detail == 0) then .next s else .next (s.cfglFinish tile)

/-! ### Bank transitions (R117) -/

/-- Whether a cell keeps a bank's rings: one holds tokens, or its configuration has one there and has not drained (R117, R123,
R421). DESIGN CHOICE (log 105). -/
def Cell.holdsRing (x : Cell) (cycle b : Nat) : Bool :=
  x.ring.anyP (fun _ l => l.any (fun k => k.bank == b)) ||
  ((List.range 4).any (fun d => match x.ctx.spill d with | some r => r.bank == b | none => false) && x.undrained cycle != 0)

/-- Whether a ring of some cell of a tile, or of the saved cells of an operator that is switched out there, keeps a bank (R117,
R123). -/
def State.ringsHold (s : State) (t b : Nat) : Bool :=
  let on (m : KMap Cell) : Bool := m.anyP (fun _ x => x.holdsRing s.clk.cycle b)
  on (s.tile t).cells ||
  (match (s.tile t).anchor with
   | none => false
   | some a =>
     (s.region a).evicted.anyP (fun _ v => on (v.cells.getD t {})) || (s.region a).aside.anyP (fun _ v => on (v.cells.getD t {})))

/-- Whether the arrays of a row group that is not freed lie in a bank of a tile (R50, R117): the whole arrays, with the rows that
have left. -/
def State.arraysHold (s : State) (t b : Nat) : Bool :=
  let meets (lo n : Nat) : Bool := decide (lo < (b + 1) * 0x20000) && decide (b * 0x20000 < lo + n)
  s.rgs.anyP (fun _ g =>
    let p := match s.places.find? g.pk with
      | some p => (s.parOf p).payload
      | none => 0
    g.home == t && ((List.range 64).filter g.rows.getLsbD).any (fun i => meets (g.base + 128 * i) 128 || meets (g.pay + 64 * p * i) (64 * p)))

/-- Whether the engine queues of an operator in a tile hold a command. -/
def State.queuesHold (s : State) (t pk : Nat) : Bool :=
  ((s.tile t).oprAt (keySlot pk)).queues.anyP (fun _ q => !q.items.isEmpty)

/-- BANK_TRANSITION_COMPLETE (R117, R262), which waits behind an arrival of an earlier one outside a full arrival store (R52): a FIFO bank waits for the rings and the row-group arrays in it, and for its
operator's engine queues where they lie in it, which is free (log 105); a CACHE bank's dropped sectors make g1 3.
DESIGN CHOICE (log 105). -/
def execBankTransitionComplete (tile bank : Nat) (s : State) : Out :=
  let b := (s.tile tile).bank bank
  match b.trans with
  | none => .next s
  | some r =>
    if s.clk.cycle < r.ready || s.sendsHeld tile (fun a => a.kind == 10 && a.detail == 1) then .next s
    else
      let done (s : State) (g1 : Nat) : Out :=
        .next ((s.updBank tile bank (fun _ => { mode := r.target, trans := none })).arrive tile r.tag 10 (wd g1) tile 1 r.set)
      if b.mode == r.target then done s 0
      else if b.mode == .fifo then
        if s.ringsHold tile bank || s.arraysHold tile bank then .next s
        else
          let c := if s.queuesHold tile r.pk then s.pick 2 else (0, s)
          if c.1 = 1 then .next c.2 else done (c.2.clearBank tile bank) 0
      else if b.mode == .cache then
        let d := s.dropStuck tile bank r.pk
        done (d.2.clearBank tile bank) (if d.1 then 3 else 0)
      else done (s.clearBank tile bank) 0

/-! ### Switching operators (R318, R323, R325) -/

/-- Context numbers that an image uses. -/
def Image.ctxMask (im : Image) : Nat := im.ctxs.keys.foldl (fun m k => m ||| 2 ^ (k % 4)) 0

/-- Whether every context of a placement's image still holds that operator's contents on its region (R318). -/
def State.resident (s : State) (pk : Nat) (p : Placement) : Bool :=
  match s.imageOf p with
  | none => false
  | some im =>
    p.tiles.all (fun t => (List.range 64).all (fun c => (List.range 4).all (fun n =>
      !bitOf im.ctxMask n || (((s.cellAt t c).ctxs.getD n {}).owner == some pk))))

/-- A cell as an entering operator finds it (R318): its state reset, in the context of the operator's last CFGL, with no sweep
under way. DEDUCED (log 74). -/
def Cell.entered (x : Cell) (active cycle : Nat) : Cell :=
  { x.reset with agOut := {}, ecmds := [], active := active, sweepDone := 0, switchedAt := cycle, switches := {} }

/-- The same cell with what its operator left behind when it was switched out (log 68): the channels of its streams, and how far
its sweeps have come. DEDUCED (log 68). -/
def Cell.takeBack (x o : Cell) : Cell :=
  { x with xin := o.xin, agOut := o.agOut, active := o.active, sweepDone := o.sweepDone, switchedAt := o.switchedAt,
           switches := o.switches, drainNoted := o.drainNoted }

/-- Enter an operator on a region (R318, R325): an evicted one is restored; otherwise its contexts are loaded unless they
are resident, and the cell state is reset, but for what it left behind (R323, R407). What waited for a draining operator waited
for its save area (R429). DEDUCED (log 68). DEDUCED (log 74). -/
def State.enterOp (s : State) (anchor pk : Nat) (p : Placement) : State :=
  let r := s.region anchor
  let s := if r.draining.isSome then s.noteCause (fun k _ => keyAnchor k == anchor) 17 else s
  let s := s.updHamper pk (fun h => { h with fires := 0 })
  let on (f : Region → Region) (s : State) : State :=
    s.updRegion anchor (fun r =>
      f { r with loaded := some pk, draining := none, lastMove := s.clk.cycle, loadedAt := s.clk.cycle })
  match r.evicted.find? pk with
  | some sv =>
    let s := p.tiles.foldl (fun s t => s.updTile t (fun x =>
      { x with cells := sv.cells.getD t {}, owners := sv.owners.getD t {} })) s
    on (fun r => { r with evicted := r.evicted.erase pk, sweeps := sv.sweeps }) s
  | none =>
    let load := !s.resident pk p
    let mask := match s.imageOf p with
      | some im => im.ctxMask
      | none => 0
    let s := p.tiles.foldl (fun s t =>
      let s := if load then s.loadCtxs t pk p ((p.vtOf t).getD 0) mask else s
      let act := ((s.tile t).oprAt (keySlot pk)).lastActive
      s.updCells t (fun c x =>
        let y := x.entered act s.clk.cycle
        match r.aside.find? pk with
        | none => y
        | some sv => y.takeBack ((sv.cells.getD t {}).getD c y))) s
    on (fun r => { r with sweeps := ((r.aside.find? pk).map (·.sweeps)).getD [], aside := r.aside.erase pk }) s

/-- Save the loaded operator's cell state (R323 step 4): its channels leave the cells with it.
DESIGN CHOICE (log 52). -/
def State.evict (s : State) (anchor pk : Nat) (p : Placement) : State :=
  let sv : Saved :=
    { cells := ⟨p.tiles.map (fun t => (t, (s.tile t).cells))⟩, owners := ⟨p.tiles.map (fun t => (t, (s.tile t).owners))⟩,
      sweeps := (s.region anchor).sweeps }
  let s := p.tiles.foldl (fun s t =>
    (s.updCells t (fun _ x => { x.reset with agOut := {}, ecmds := [] })).updTile t (fun x => { x with owners := {} })) s
  s.updRegion anchor (fun r => { r with evicted := r.evicted.set pk sv, loaded := none })

/-- Whether a cell has not switched yet for a sweep of its region (R63). -/
def State.sweepPending (s : State) (anchor : Nat) (p : Placement) : Bool :=
  let n := (s.region anchor).sweeps.length
  n != 0 && p.tiles.any (fun t => (List.range 64).any (fun c => decide ((s.cellAt t c).sweepDone < n)))

/-- Whether an operator that leaves its region without an eviction leaves something behind: a stream of its own that goes on with
channels (R323), a token on its way out, or a pending sweep (R407). -/
def State.leavesBehind (s : State) (anchor pk : Nat) (p : Placement) : Bool :=
  s.sweepPending anchor p ||
  p.tiles.any (fun t =>
    (s.tile t).cells.anyP (fun _ x => x.agOut.anyP (fun _ l => !l.isEmpty)) ||
    (s.tile t).ags.anyP (fun _ a =>
      (match a.run with
       | some r => r.s.pk == pk && !r.s.direct
       | none => false) ||
      a.queue.any (fun i => match i with
        | .stream x => x.pk == pk && !x.direct
        | .marker .. => false)))

/-- Keep what the loaded operator leaves behind (R323, R407; log 68): its cell state is reset, but its outward channels and its
pending sweeps are kept. DEDUCED (log 68). -/
def State.setAside (s : State) (anchor pk : Nat) (p : Placement) : State :=
  if !s.leavesBehind anchor pk p then s
  else
    let pending := s.sweepPending anchor p
    let leave (t : Nat) (x : Cell) : Cell :=
      let y := { x.reset with ecmds := [] }
      if pending then y
      else { y with active := ((s.tile t).oprAt (keySlot pk)).lastActive, sweepDone := 0, switches := {} }
    let sv : Saved :=
      { cells := ⟨p.tiles.map (fun t => (t, KMap.ofList ((List.range 64).map (fun c => leave t (s.cellAt t c)))))⟩,
        owners := {}, sweeps := if pending then (s.region anchor).sweeps else [] }
    s.updRegion anchor (fun r => { r with aside := r.aside.set pk sv })

/-- End what a region's tiles have in mid-course before their operator leaves: configuration loads, those that wait behind one
included (log 142), and updates in flight. DESIGN CHOICE (log 142). -/
def State.quiesce (s : State) (p : Placement) : State :=
  p.tiles.foldl (fun s t =>
    ((List.range ((s.tile t).cfglWait.length + 1)).foldl (fun s _ => s.cfglFinish t) s).finishUpdates t) s

/-! ### Evaluation (R316, R317) -/

/-- Operators of a region. -/
def State.regionOps (s : State) (anchor : Nat) : List (Nat × Placement) :=
  s.places.items.filter (fun q => keyAnchor q.1 == anchor)

/-- Arrivals queued in the arrival stores for the route tags of a placement (R316, R317). -/
def State.queuedFor (s : State) (p : Placement) : List Arrival :=
  match s.imageOf p with
  | none => []
  | some im => p.tiles.flatMap (fun t =>
      (s.arrivalStore t).filter (fun a => (im.task ((p.vtOf t).getD 0) a.tag).isSome))

/-- Live row groups of a placement. -/
def State.liveGroups (s : State) (pk : Nat) : List RowGroup := s.rgs.vals.filter (fun g => g.pk == pk)

/-- Instances of a placement in its tiles. -/
def State.instancesOf (s : State) (pk : Nat) (p : Placement) : Nat :=
  (p.tiles.map (fun t => ((s.core t).insts.vals.filter (fun i => i.pk == pk)).length)).sum

/-- ClassWeight of R317. -/
def classWeight (c : Nat) : Nat := [64, 16, 4, 1].getD c 1

/-- The score of R317. -/
def State.score (s : State) (anchor : Nat) (q : Nat × Placement) : Nat :=
  let out := ((s.region anchor).evicted.find? q.1).isSome
  let live := if out then s.liveGroups q.1 else []
  let queued := s.queuedFor q.2
  let waiting := q.2.hamper.waiting + (live.map (·.liveRows.length)).sum + queued.length
  let oldest := ((q.2.hamper.records.map (·.at_)) ++ live.map (·.fired) ++ queued.map (·.cycle)).foldl min s.clk.cycle
  waiting * classWeight q.2.cls + min 65535 ((s.clk.cycle - oldest) / 940)

/-- Whether an operator is a candidate (R317, R325, R394): an evicted one always is. -/
def State.candidate (s : State) (anchor : Nat) (q : Nat × Placement) : Bool :=
  !s.isHeld q.2 &&
  (!q.2.hamper.closed.isEmpty || ((s.region anchor).evicted.find? q.1).isSome || !(s.queuedFor q.2).isEmpty)

/-- The candidate with the highest score: on a tie the loaded operator, else the lowest hamper slot (R317). -/
def State.bestOf (s : State) (anchor : Nat) (l : List (Nat × Placement)) : Option (Nat × Placement) :=
  let loaded := (s.region anchor).loaded
  l.foldl (fun a q =>
    match a with
    | none => some q
    | some b =>
      let x := s.score anchor q
      let y := s.score anchor b
      if x > y || (x == y && loaded == some q.1) then some q else some b) none

/-- The rotation-fed operator of a die whose slot is in progress or whose turn comes next, in PLACE order (R321). -/
def State.rotationTurn (s : State) (die : Nat) : Option (Nat × Placement) :=
  let r := s.rots.getD die {}
  let l := s.places.items.filter (fun q => q.2.die == die && (s.parOf q.2).binding == 1)
  let least (l : List (Nat × Placement)) : Option (Nat × Placement) :=
    l.foldl (fun a q => match a with
      | none => some q
      | some b => if q.2.order < b.2.order then some q else some b) none
  match r.active with
  | some pk => l.find? (fun q => q.1 == pk)
  | none =>
    match r.turn with
    | none => least l
    | some o => (least (l.filter (fun q => decide (o < q.2.order)))).orElse (fun _ => least l)

/-- Whether the region slot is free for an evaluation (R316, R429). -/
def State.regionFree (s : State) (anchor : Nat) : Bool :=
  match (s.region anchor).loaded with
  | none => true
  | some pk =>
    match s.places.find? pk with
    | none => true
    | some p =>
      (s.liveGroups pk).isEmpty && s.instancesOf pk p == 0 &&
      (p.hamper.closed.isEmpty || decide (8 ≤ p.hamper.fires) || (s.region anchor).draining == some pk)

/-- Load an operator in place of the loaded one, which has nothing left to save. DESIGN CHOICE (log 52).
DEDUCED (log 74). -/
def State.switchTo (s : State) (anchor : Nat) (q : Nat × Placement) : State :=
  if (s.region anchor).loaded = some q.1 then s
  else
    let s := match (s.region anchor).loaded with
      | some pk => (match s.places.find? pk with
        | some out => (s.quiesce out).setAside anchor pk out
        | none => s)
      | none => s
    s.enterOp anchor q.1 q.2

/-- The class 0 operator a pre-emption of a region is for (R322): of several with closed tiles, the best by the score of R317 (log
141). DESIGN CHOICE (log 14). DEDUCED (log 72). DESIGN CHOICE (log 141). -/
def State.preemptFor (s : State) (anchor : Nat) : Option (Nat × Placement) :=
  s.bestOf anchor ((s.regionOps anchor).filter (fun q => q.2.cls == 0 && !q.2.hamper.closed.isEmpty && !s.isHeld q.2))

/-- Whether a region is to be pre-empted (R322); one whose operator drains is being pre-empted already (R429). -/
def State.preempts (s : State) (anchor : Nat) : Bool :=
  match (s.region anchor).loaded.bind s.places.find? with
  | some out => decide (2 ≤ out.cls) && (s.preemptFor anchor).isSome && (s.region anchor).draining.isNone
  | none => false

/-- The cycle in which the conditions for a pre-emption of a region arose (R322): its loaded operator stands there, and a tile
of class 0 is closed. DEDUCED (log 72). -/
def State.preemptSince (s : State) (anchor : Nat) : Nat :=
  let closed := (s.regionOps anchor).flatMap (fun q =>
    if q.2.cls == 0 && !s.isHeld q.2 then q.2.hamper.closed.map (·.at_) else [])
  max (s.region anchor).loadedAt (closed.foldl min s.clk.cycle)

/-- Whether a region is the first of its die to be pre-empted: the one whose conditions arose first, the lower anchor on a tie
(R322). -/
def State.preemptFirst (s : State) (anchor : Nat) : Bool :=
  s.regions.keys.all (fun a =>
    a / 144 != anchor / 144 || !s.preempts a || decide (s.preemptSince anchor < s.preemptSince a) ||
    (s.preemptSince anchor == s.preemptSince a && decide (anchor ≤ a)))

/-- Regions of a die that carry an operator (R399). -/
def State.dieRegions (s : State) (die : Nat) : Nat :=
  ((s.places.keys.map keyAnchor).eraseDups.filter (fun a => a / 144 == die)).length

/-- A pre-emption of a region that is past the schedule of R399 when an operator enters the region: a cause of R429.
DEDUCED (log 71). -/
def State.noteOverdue (s : State) (anchor : Nat) : State :=
  if s.preempts anchor && decide (16 + 160 * (s.dieRegions (anchor / 144) - 1) < s.clk.cycle - s.preemptSince anchor) then
    s.noteCause (fun k _ => keyAnchor k == anchor) 18
  else s

/-- SCHEDULER_EVALUATION (R316, R317, R321, R429): when the region slot is free, the class 0 operator that a switch is
owed to, then the rotation-fed operator whose turn has come unless R322 applies, then the best candidate is loaded. -/
def execSchedulerEvaluation (anchor : Nat) (s : State) : Out :=
  if !s.regionFree anchor then .next s
  else
    let r := s.region anchor
    let ops := s.regionOps anchor
    let owed := if r.draining.isSome then
        s.bestOf anchor (ops.filter (fun q => q.2.cls == 0 && s.candidate anchor q))
      else none
    let turn := match s.rotationTurn (anchor / 144) with
      | some q => if keyAnchor q.1 = anchor ∧ !s.isHeld q.2 ∧ !s.preempts anchor then some q else none
      | none => none
    match owed, turn, s.bestOf anchor (ops.filter (s.candidate anchor)) with
    | some q, _, _ => .next ((s.noteOverdue anchor).switchTo anchor q)
    | none, some q, _ => .next ((s.noteOverdue anchor).switchTo anchor q)
    | none, none, some q => .next ((s.noteOverdue anchor).switchTo anchor q)
    | none, none, none => .next s

/-! ### Pre-emption (R322, R323, R429) -/

/-- Whether a fabric-path command of an operator is under way (R288, R323). -/
def State.fabricBusy (s : State) (pk : Nat) : Bool :=
  s.cmds.anyP (fun _ rc => rc.pk == pk && rc.path == 0 && cmdKind rc.c.code == 6 && !rc.front && rc.res.isNone)

/-- Discard the blocks in progress of an operator and park its instances (R55, R323 step 1). DEDUCED (log 75). -/
def State.parkOp (s : State) (pk : Nat) (p : Placement) : State :=
  p.tiles.foldl (fun s t => s.updCore t (fun c =>
    match c.run with
    | some r => if (c.insts.getD r.inst default).pk = pk then { c with run := none } else c
    | none => c)) s

/-- PREEMPTION (R322, R323): the first of the die's waiting regions is pre-empted. Its outgoing operator is switched out, or
evicted when it has live work; where its save area cannot hold its state it drains instead (R429). Whether a save area holds the
state is free: the spec gives no size for it (log 52). DEDUCED (log 72). -/
def execPreemption (anchor : Nat) (s : State) : Out :=
  match (s.region anchor).loaded with
  | none => .next s
  | some pk =>
    match s.places.find? pk, s.preemptFor anchor with
    | some out, some q =>
      if !s.preempts anchor || !s.preemptFirst anchor then .next s
      else
        let here (k : Nat) (_ : Placement) : Bool := keyAnchor k == anchor
        let s := s.noteOverdue anchor
        let need := !(s.liveGroups pk).isEmpty || s.instancesOf pk out != 0 || s.fabricBusy pk
        let fit := if need && out.save != 0 then s.pick 2 else (0, s)
        let s := fit.2
        if need && (out.save == 0 || fit.1 == 1) then
          .next ((s.updRegion anchor (fun r => { r with draining := some pk })).noteCause here 17)
        else
          let s := (s.parkOp pk out).quiesce out
          let s := if need then s.evict anchor pk out else s.setAside anchor pk out
          .next (s.enterOp anchor q.1 q.2)
    | _, _ => .next s

/-- A firing's record is written: its other tiles' first instructions are not judged any more (R429). -/
def State.judged (s : State) (id : Nat) : State :=
  { s with tiles := s.tiles.mapVals (fun _ x =>
      { x with core := { x.core with
          insts := x.core.insts.mapVals (fun _ (i : Inst) => if i.fired = id then { i with closeAt := none } else i)
          arrivals := x.core.arrivals.map (fun (a : Arrival) =>
            if a.kind = 0 ∧ a.set / 256 = id then { a with closeAt := none } else a) } }) }

/-- The record of a class 0 firing whose first instruction comes late (R429), made as that instruction executes: one for the
firing, with the causes noted for it and those that hold now. DEDUCED (log 71). -/
def State.judgeFirst (s : State) (t n : Nat) : State :=
  match (s.core t).insts.find? n with
  | none => s
  | some i =>
    match i.closeAt with
    | none => s
    | some c =>
      let s := s.updCore t (fun x => { x with insts := x.insts.set n { i with closeAt := none } })
      match s.places.find? i.pk with
      | none => s
      | some p =>
        let late := s.clk.cycle - c - 23500
        if p.cls != 0 || late = 0 then s
        else
          let bit (k : Nat) (b : Bool) : Nat := if b then 2 ^ k else 0
          let noted := match s.rgs.find? i.fired with
            | some g => g.causes
            | none => 0
          let d := min 0xFFFF late + ((noted ||| bit 16 s.dev.throttle ||| bit 19 (s.isHeld p) |||
            bit 20 (decide (i.arrived + 60 < s.clk.cycle))) / 2 ^ 16) * 2 ^ 16
          (s.judged i.fired).report (s.tileRec t i.pk { severity := 0, unit := 12, code := 5, detail := d })

/-! ### Weight rotation (R43, R321, R343, R344) -/

/-- The handle through which a generation's weights stream (R343). -/
def Placement.weightHandle (p : Placement) (gen : Nat) : Word := if gen % 2 = 0 then p.weights else p.weights + wd (2 ^ 26)

/-- The generation of a slot (R344): that of the oldest closed tile, or the current one of the hamper's stage, that of the
record that entered it last; where none has entered, which of the job's stages it serves is free (log 53). DESIGN CHOICE
(log 53). -/
def State.slotGen (s : State) (p : Placement) : Nat × State :=
  let gen (s : State) (n : Nat) : Nat := (s.stage (jobKey p.vi p.job * 256 + n)).gen
  match p.hamper.closed.head?, p.hamper.stage with
  | some c, _ => ((c.rows.head?.map (·.r.wgen)).getD 0, s)
  | none, some n => (gen s n, s)
  | none, none => let f := s.takeFree; (gen f.2 (f.1.fld 7 0), f.2)

/-- Close the forming tile at a slot (R43, R344): it boards as the last tile when there are fewer than `boarding`, without what
came in the slot's own cycle; a timeout that expires in the cycle of the slot closes it too, and a tile that closed earlier in
that cycle has the slot as a cause as well (R45). -/
def State.closeAtSlot (s : State) (pk gen : Nat) : State :=
  match s.places.find? pk with
  | none => s
  | some p =>
    let c := s.hamperCtx pk p
    let mine (l : List Closed) : Nat := (l.filter (fun x => x.gen == gen)).length
    let boarding := (s.parOf p).boarding
    let h := if mine (p.hamper.closed.filter (fun x => !c.fresh x)) < boarding then
        c.alsoCause p.hamper (fun x => if x.gen = gen then 4 else 0)
      else p.hamper
    let h := match h.forming with
      | some f =>
        if mine h.closed < boarding ∧ f.gen = gen then c.closeOld h 4 else if c.due f then c.closeOld h 2 else h
      | none => h
    if h = p.hamper then s else s.setHamper pk p h

/-- The first n closed tiles of a generation have come to their slot (R43, R428). -/
def reachSlot (gen : Nat) : Nat → List Closed → List Closed
  | _, [] => []
  | 0, l => l
  | n + 1, x :: l => if x.gen = gen then { x with reached := true } :: reachSlot gen n l else x :: reachSlot gen (n + 1) l

/-- Fire the boarding tiles of a slot (R43, R344): the oldest closed tiles of its generation. The number fired so far is
the boarding position (R48). -/
def State.boardTiles (s : State) (pk gen : Nat) : State :=
  match s.places.find? pk with
  | none => s
  | some p =>
    let s := s.updHamper pk (fun h => { h with closed := reachSlot gen (s.parOf p).boarding h.closed })
    (List.range (s.parOf p).boarding).foldl (fun s k =>
      match s.places.find? pk with
      | none => s
      | some p =>
        match p.hamper.closed.zipIdx.find? (fun q => q.1.gen == gen), s.freeSetOf p.tiles with
        | some (c, i), some set =>
          if s.mayFire pk p then
            (s.updHamper pk (fun h => { h with closed := listDrop h.closed i })).fireTile pk p c set k
          else s
        | _, _ => s) s

/-- Eject the boarding tiles of a slot whose weight handle fails its check (R416, R435). DEDUCED (log 98). -/
def State.ejectBoarding (s : State) (pk gen code : Nat) : State :=
  match s.places.find? pk with
  | none => s
  | some p =>
    let isGen (c : Closed) : Bool := (c.rows.head?.map (·.r.wgen)).getD 0 == gen
    let go := (p.hamper.closed.filter isGen).take (s.parOf p).boarding
    let carry := (s.parOf p).carry
    let s := s.updHamper pk (fun h => { h with closed := h.closed.filter (fun c => !(isGen c && go.contains c)) })
    go.foldl (fun s c => c.rows.foldl (fun s r =>
      (s.report { rowRec r.r (some p) 11 1 code 0 r.lastRg r.lastRow with loc := p.weightHandle gen }).ejectTo
        { r with r := carried carry r.r } 4 0 p.anchor (some p)) s) s

/-- The cells on the north edge of a placement's region. DESIGN CHOICE (log 50). -/
def Placement.northCells (p : Placement) : List (Nat × Nat) :=
  (List.range p.w).flatMap (fun x => (List.range 8).map (fun c => (physTile p.die (p.x + x) p.y, c)))

/-- The keys of an operator's weights behind a handle, from its offset to the end of its entry; elements that cannot be
reached give none (R16, R321). They are streamed from wherever the handle leads: R16 names the die's own two cellar dies, and says
nothing of a handle whose bytes lie in other stacks (log 124). DESIGN CHOICE (log 50). DESIGN CHOICE (log 124). -/
def State.rotationKeys (s : State) (vi : Nat) (h : Word) : List Nat × State :=
  match s.deref h 1 false vi with
  | (.ready e, s) =>
    (List.range (e.bound - hOffset h)).foldl (fun a i =>
      match a.2.resolveDv false none e.vi (e.addrOf h i) e.stride true false with
      | (.ok ks, s) => (a.1 ++ ks, s)
      | (.error _, s) => (a.1, s)) ([], s)
  | (_, s) => ([], s)

/-- The bytes there: a granule with an uncorrectable error passes none on (R419). -/
def State.rotationBytes (s : State) (vi : Nat) (h : Word) : List Byte × State :=
  let w := s.rotationKeys vi h
  (w.2.readKeys (w.1.filter (fun k => !w.2.badRead [k])), w.2)

/-- The record of weights that an uncorrectable error withholds from a slot, one at its start (R390, R419). DEDUCED (log 62). -/
def State.noteWeights (s : State) (p : Placement) (h : Word) : State :=
  match (s.rotationKeys p.vi h).1.find? (fun k => s.badRead [k]) with
  | none => s
  | some k =>
    let r : ErrRec := { unit := 5, code := 0x1D, loc := wd k, count := s.cecAt 5 ((engineOfPa k).getD 0) }
    s.report (r.withPlace p)

/-- ROTATION_SLOT (R43, R321, R344): the slot of the operator whose turn it is begins once its region has loaded it. -/
def execRotationSlot (die : Nat) (s : State) : Out :=
  let r := s.rots.getD die {}
  match r.active, s.rotationTurn die with
  | none, some (pk, p) =>
    if (s.region (keyAnchor pk)).loaded != some pk then .next s
    else
      let g := s.slotGen (((s.closeDue pk).places.find? pk).getD p)
      match (g.2.closeAtSlot pk g.1).deref (p.weightHandle g.1) 1 false p.vi with
      | (.fail c, s) =>
        .next ({ (s.ejectBoarding pk g.1 c) with rots := s.rots.set die { r with turn := some p.order } })
      | (_, s) =>
        let s := s.noteWeights p (p.weightHandle g.1)
        let r : Rotation := { turn := some p.order, active := some pk, gen := g.1, fed := 0, began := s.clk.cycle }
        .next ({ s with rots := s.rots.set die r }.boardTiles pk g.1)
  | _, _ => .next s

/-- ROTATION_SLICE_DELIVERY (R321, R223): one token for each column of the region, when every column accepts one: for each
cell a scale token, then 32 rows, all with tag 3. The tokens and the number of planes come from the weights' bytes, in a layout
that the spec does not give (log 50). The slot ends after the last plane. DESIGN CHOICE (log 50). -/
def execRotationSliceDelivery (die : Nat) (s : State) : Out :=
  let r := s.rots.getD die {}
  match r.active.bind (fun pk => (s.places.find? pk).map (fun p => (pk, p))) with
  | none => .next s
  | some (pk, p) =>
    let cells := p.northCells
    let ready := match (s.deref (p.weightHandle r.gen) 1 false p.vi).1 with
      | .ready _ => true
      | _ => false
    if (s.region (keyAnchor pk)).loaded != some pk || !ready ||
        cells.any (fun c => s.cellsPaused c.1 || decide (4 ≤ ((s.cellAt c.1 c.2).xin.getD 0 []).length)) then .next s
    else
      let w := s.rotationBytes p.vi (p.weightHandle r.gen)
      let s := cells.zipIdx.foldl (fun s c =>
        s.toCell c.1.1 c.1.2 0
          (mkToken (fun i => Config.rotationLane w.1 r.fed c.2 i) 0xFF 3 (r.fed % 33 == 0))) w.2
      let fed := r.fed + 1
      let all_ := (Config.rotationPlanes w.1 + 1) * (33 * 8 * p.h)
      let r := if all_ ≤ fed then { r with active := none, fed := 0 } else { r with fed := fed }
      .next { s with rots := s.rots.set die r }

/-! ### Starting instances (R51, R320, R327) -/

/-- Instances of a placement on a tile. DEDUCED (log 75). -/
def State.instancesAt (s : State) (pk t : Nat) : Nat := ((s.core t).insts.vals.filter (fun i => i.pk == pk)).length

/-- Whether an arrival may start an instance of its operator now, but for a free slot (R316, R320, R394, R429). -/
def State.mayStart (s : State) (t pk : Nat) (p : Placement) (a : Arrival) : Bool :=
  let r := s.region (keyAnchor pk)
  let mine : Bool := match s.setGroup a.set with
    | some g => g.2.pk == pk
    | none => false
  r.loaded == some pk && !s.isHeld p && (r.draining != some pk || mine) &&
  !(decide (2 ≤ p.cls) && s.hasClass0 (keyAnchor pk) && decide (24 ≤ s.instancesAt pk t))

/-- The registers of an instance at its first instruction (R51, R232). -/
def Arrival.regs (a : Arrival) : KMap Word :=
  (((KMap.mk []).set 1 a.msg).set 2 (srcWord a.kind a.src a.detail)).set 3 (wd (setIdx a.set))

/-- TASK_LAUNCH (R51, R52, R56, R327): the oldest arrival of a tag, once it stands in the arrival store, starts an
instance in one of the free slots; which slot is free, since the spec does not say. An arrival comes with the edges of
R135, so the tile's cache is refreshed. A full arrival store that held closed tiles back until now is a cause of R429.
DESIGN CHOICE (log 54). DESIGN CHOICE (log 14). DEDUCED (log 71). -/
def execTaskLaunch (tile tag : Nat) (s : State) : Out :=
  let c := s.core tile
  match c.arrivals.zipIdx.find? (fun q => q.1.tag == tag), s.tagOwner tile tag with
  | some (a, i), some pk =>
    match s.places.find? pk with
    | none => .next s
    | some p =>
      let free := (List.range 32).filter (fun n => (c.insts.find? n).isNone)
      match (s.imageOf p).bind (fun im => im.task ((p.vtOf tile).getD 0) tag) with
      | none => .next s
      | some (prio, block) =>
        if c.halted || c.blocked.getLsbD tag || free.isEmpty || !s.inStore tile i a || !s.mayStart tile pk p a then .next s
        else
          let s := s.noteHeld
          let n := s.pick free.length
          let id := a.set / 256
          let a := { a with set := s.liveRef a.set }
          let x : Inst :=
            { pk := pk, tag := tag, set := a.set, prio := prio, seq := c.seq, g := a.regs, block := block,
              closeAt := a.closeAt, arrived := max a.cycle a.heldTo, fired := id }
          .next ((n.2.cacheFlush tile).updCore tile (fun c =>
            { c with insts := c.insts.set (free.getD n.1 0) x, seq := c.seq + 1, arrivals := listDrop c.arrivals i }))
  | _, _ => .next s

/-! ### THOLD and SYSC (R266, R268, R385) -/

/-- Raise the arrival of a pending THOLD whose time has come (R266), unless an earlier one of its tag waits outside a full arrival
store (R52). -/
def State.raiseThold (s : State) (t idx : Nat) : State :=
  match (s.core t).tholds[idx]? with
  | none => s
  | some h =>
    if s.clk.time.toNat < h.time.toNat || s.sendsHeld t (fun a => a.kind == 8 && a.tag == h.tag) then s
    else (s.updCore t (fun c => { c with tholds := listDrop c.tholds idx })).arrive t h.tag 8 s.clk.time t 0 h.set

/-- THOLD_EXPIRY (R266). -/
def execTholdExpiry (tile idx : Nat) (s : State) : Out := .next (s.raiseThold tile idx)

/-- DEVSTAT (R370). -/
def State.devstat (s : State) : Word :=
  let b (i : Nat) (x : Bool) : Nat := if x then 2 ^ i else 0
  wd (b 0 s.dev.ready + b 1 s.dev.service + b 2 s.dev.throttle + b 3 s.dev.timeLocked + b 4 s.dev.activeB)

/-- The reply of a SYSC request (R268, R385). -/
def State.syscAnswer (s : State) (q : SyscReq) (v : Word) : State :=
  if (s.places.find? q.pk).isSome then s.arrive q.tile q.tag 9 v 0xFFF q.code q.set else s

/-- Whether the reply to a SYSC waits behind one outside the tile's full arrival store (R52). -/
def State.replyHeld (s : State) (q : SyscReq) : Bool := s.sendsHeld q.tile (fun a => a.kind == 9 && a.tag == q.tag)

/-- SYSC_REPLY (R268, R385): codes 1 and 2 post an invalidation request and are answered when it completes; a code that
is not listed is answered with all ones. -/
def execSyscReply (idx : Nat) (s : State) : Out :=
  match s.syscs[idx]? with
  | none => .next s
  | some q =>
    if s.replyHeld q && !(q.code == 1 || q.code == 2) then .next s
    else
    let s := { s with syscs := listDrop s.syscs idx }
    let vi := s.viOf q.pk
    if q.code = 1 ∨ q.code = 2 then
      .next (s.updVi vi (fun v =>
        { v with inv := v.inv ++ [{ kind := q.code, seq := q.val.fld 31 0, n := v.invCount, sysc := some q }],
                 invCount := v.invCount + 1 }))
    else if q.code = 3 then .next (s.syscAnswer q s.devstat)
    else if q.code = 4 then
      let d := (s.vi vi).wind.getD (q.val.fld 3 0) {}
      .next (s.syscAnswer q (if q.val.getLsbD 4 then d.w1 else d.w0))
    else .next (s.syscAnswer q 0xFFFFFFFFFFFFFFFF#64)

end Sys2Proof.Machine
end

