-- ==== Sys2Proof/Machine/FrontEnd.lean ====
section
/-! DEFINITION. The commands of submission entries (R303 to R326) and the service of their queues (R304). A command runs to
its completion entry in one move, unless it waits on device time or on an engine. -/

namespace Sys2Proof.Machine

/-- The command in front-end execution that an entry belongs to. -/
def State.feOf (s : State) (e : Entry) : FeCmd :=
  (s.fe.find? (fun f => f.e.vi == e.vi && f.e.sq == e.sq)).getD
    { e := e, wait := .ready, started := s.clk.cycle, sqHead := 0 }

/-- End the command of an entry with status 0 and a result. -/
def State.feDone (s : State) (e : Entry) (result : Word) : State := s.feEnd (s.feOf e) 0 result

/-- End the command of an entry with status 0 where the spec states no result: it is free. DESIGN CHOICE (log 37). -/
def State.feOk (s : State) (e : Entry) : State := let r := s.takeFree; r.2.feEnd (s.feOf e) 0 r.1

/-- End the command of an entry with a status. DESIGN CHOICE (log 37). DESIGN CHOICE (log 83). -/
def State.feFail (s : State) (e : Entry) (status : Nat) : State :=
  if status = 1 then s.feBad (s.feOf e) else s.feStop (s.feOf e) status

/-! ### Memory of commands (R108, R303) -/

/-- The keys of n bytes at a device-virtual address of the issuing VI (R303); addresses have form 0 (R105). -/
def State.feKeys (s : State) (vi : Nat) (a : Word) (n : Nat) (wr : Bool) : Res (List Nat) × State :=
  if a.fld 63 57 != 0 then (.error ⟨0x10, a, 0⟩, s) else s.resolveDv false none vi a.toNat n (!wr) wr

/-- Read the groups of a range, as (position, length) pairs, up to the first that fails (R414). -/
def State.feReadGroups (s : State) (vi : Nat) (a : Word) : List (Nat × Nat) → Res (List Byte) × State
  | [] => (.ok [], s)
  | g :: l =>
    match s.feKeys vi (a + wd g.1) g.2 false with
    | (.error e, s) => (.error e, s)
    | (.ok ks, s) =>
      if s.badRead ks then (.error ⟨0x1D, a + wd g.1, 0⟩, s)
      else
        match s.feReadGroups vi a l with
        | (.error e, s) => (.error e, s)
        | (.ok b, s2) => (.ok (s.readKeys ks ++ b), s2)

/-- Read bytes for a command: a group is one aligned 64-byte block of the range (R414). -/
def State.feRead (s : State) (vi : Nat) (a : Word) (n : Nat) : Res (List Byte) × State :=
  s.feReadGroups vi a (groupsOf a.toNat n)

/-- Write bytes for a command: the groups before one that fails are written (R414). -/
def State.feWrite (s : State) (vi : Nat) (a : Word) (b : List Byte) : Option Fail × State :=
  (groupsOf a.toNat b.length).foldl (fun (acc : Option Fail × State) g =>
    match acc with
    | (some f, s) => (some f, s)
    | (none, s) =>
      match s.feKeys vi (a + wd g.1) g.2 true with
      | (.error e, s) => (some e, s)
      | (.ok ks, s) =>
        if s.badWrite ks then (some ⟨0x1D, a + wd g.1, 0⟩, s)
        else (none, s.writeKeys ks ((b.drop g.1).take g.2))) (none, s)

/-- A command whose own access failed: the spec gives it no status, so it ends with 8 and the code as its result, after a
record of the front end, or as a bad field (status 1); which one is free. DESIGN CHOICE (log 83). -/
def State.feMem (s : State) (e : Entry) (f : Fail) : State :=
  let c := s.pick 2
  if c.1 = 0 then
    (c.2.reportFail f { vi := e.vi, unit := 13, code := f.code, loc := f.loc, detail := f.detail }).feEnd (s.feOf e) 8
      (wd f.code)
  else c.2.feFail e 1

/-! ### REGISTER (R306, R307) -/

/-- Whether the values of an RCB image lie in the ranges of R27. Its reserved fields must be zero too, for which the spec states
no refusal. DESIGN CHOICE (log 107). -/
def rcbOk (w : List Word) : Bool :=
  let w1 := w.getD 1 0
  let w2 := w.getD 2 0
  (w.getD 0 0).fld 57 56 != 3 && (w.getD 0 0).fld 31 27 == 0 && decide (w1.fld 63 53 ≤ 1120) &&
  decide (w1.fld 52 39 ≤ 13440) && decide (w1.fld 30 18 ≤ 4480) && w1.fld 17 0 == 0 && decide (10 ≤ w2.fld 32 19) &&
  decide (w2.fld 32 19 ≤ 10000) && w2.fld 18 0 == 0 && w.getD 3 0 == 0 && w.getD 6 0 == 0 && w.getD 7 0 == 0

/-- The groups of a table (R307), read from its address on: none where the table is refused. -/
def State.readGroups (s : State) (vi : Nat) : Nat → Nat → KMap (List Nat) → Res (Option (KMap (List Nat))) × State
  | 0, _, m => (.ok (some m), s)
  | n + 1, a, m =>
    match s.feRead vi (wd a) 8 with
    | (.error f, s) => (.error f, s)
    | (.ok b, s) =>
      let h := wd (leNat b)
      let p := h.fld 47 32
      if h.fld 31 0 != 0 ∨ p = 0 ∨ p > 256 ∨ (m.find? (h.fld 63 48)).isSome then (.ok none, s)
      else
        match s.feRead vi (wd (a + 8)) (roundUp (2 * p) 8) with
        | (.error f, s) => (.error f, s)
        | (.ok l, s) =>
          let locs := (chunksOf 2 (l.take (2 * p))).map leNat
          if locs.any (fun x => fld x 7 3 != 0) then (.ok none, s)
          else s.readGroups vi n (a + 8 + roundUp (2 * p) 8) (m.set (h.fld 63 48) locs)

/-- A group table (R307). -/
def State.groupTable (s : State) (vi : Nat) (a : Word) : Res (Option (KMap (List Nat))) × State :=
  match s.feRead vi a 8 with
  | (.error f, s) => (.error f, s)
  | (.ok b, s) => if leNat b > 256 then (.ok none, s) else s.readGroups vi (leNat b) (a.toNat + 8) {}

/-- The status an RCB is refused with (R306), 0 when it is accepted: fields, the right to register it, the registration it
replaces, and its parent. R306 names no status where the parent is not registered, and it is 5; nor where the RCB's vi is not the
issuing VI, or a tenant RCB comes from another VI than 0, and it is 6 (log 85). DEDUCED (log 85). -/
def State.rcbStatus (s : State) (vi : Nat) (w : List Word) : Nat :=
  let r : Rcb := { w0 := w.getD 0 0, w1 := w.getD 1 0, w2 := w.getD 2 0, w3 := w.getD 3 0, serial := 0 }
  if !rcbOk w then 1
  else if r.level = 0 then
    if vi != 0 then 6
    else if r.parent != r.index then 1
    else match s.rcb r.vi r.index with
      | some o => if o.level = 0 then 0 else 1
      | none => 0
  else if r.vi != vi then 6
  else
    match s.rcb vi r.index with
    | some o => if o.level = r.level ∧ o.parent = r.parent then 0 else 1
    | none =>
      match s.rcb vi r.parent with
      | none => 5
      | some p => if p.level + 1 = r.level then 0 else 1

/-- Store a registered RCB: its values, its next serial, and for a tenant its slice, whose old size a later REGISTER leaves usable for
a time (R119, R306). The serial of a first registration is 1. -/
def State.putRcb (s : State) (w : List Word) (addr : Nat) : Nat × State :=
  let r0 : Rcb := { w0 := w.getD 0 0, w1 := w.getD 1 0, w2 := w.getD 2 0, w3 := w.getD 3 0, serial := 1, addr := addr }
  let vi := r0.vi
  let r : Rcb := match s.rcb vi r0.index with
    | some o => { r0 with serial := o.serial + 1, tiles := o.tiles, banks := o.banks, hampers := o.hampers }
    | none => r0
  let s := s.updVi vi (fun v =>
    let had := v.rcbs.anyP (fun _ o => o.level == 0)
    let v := { v with rcbs := v.rcbs.set r.index r }
    if r.level = 0 ∧ v.slice != r.field 4 then
      { v with slice := r.field 4, sliceOld := if had then (v.invCount, v.slice) :: v.sliceOld else v.sliceOld }
    else v)
  (r.serial, s.writeUsage vi r.index)

/-- REGISTER of an operator RCB (R170, R306). DEDUCED (log 73). -/
def State.registerOp (s : State) (e : Entry) (w : List Word) : State :=
  match s.feRead e.vi e.w1 e.w2.toNat with
  | (.error f, s) => s.feMem e f
  | (.ok b, s) =>
    match parseImage b with
    | .error r => s.feEnd (s.feOf e) 4 r
    | .ok im =>
      let r := s.putRcb w e.w3.toNat
      let job := (w.getD 0 0).fld 43 32
      let idx := (w.getD 0 0).fld 55 44
      let id := regIdOf e.vi job idx r.1
      let s := r.2
      State.feDone { s with ops := s.ops.set id.toNat { vi := e.vi, job := job, rcb := idx, image := im } } e id

/-- REGISTER of a job RCB (R306, R307). -/
def State.registerJob (s : State) (e : Entry) (w : List Word) : State :=
  let idx := (w.getD 0 0).fld 55 44
  let done (s : State) (g : Option (KMap (List Nat))) : State :=
    let r := s.putRcb w e.w3.toNat
    (r.2.updJob (jobKey e.vi idx) (fun j => { j with groups := g.getD j.groups })).feDone e (regIdOf e.vi idx idx r.1)
  if e.w4 = 0 then done s none
  else
    match s.groupTable e.vi e.w4 with
    | (.error f, s) => s.feMem e f
    | (.ok none, s) => s.feFail e 1
    | (.ok (some g), s) => done s (some g)

/-- REGISTER (R306). A tenant's identifier names no job: its job field is zero. DEDUCED (log 85).
DESIGN CHOICE (log 107). -/
def execRegister (e : Entry) (s : State) : Out :=
  if e.w3.toNat % 64 != 0 then .next (s.feFail e 1)
  else
    match s.feRead e.vi e.w3 64 with
    | (.error f, s) => .next (s.feMem e f)
    | (.ok b, s) =>
      let w := wordsOf b
      let level := (w.getD 0 0).fld 57 56
      let code := s.rcbStatus e.vi w
      if code != 0 then .next (s.feFail e code)
      else if (level != 2 && (e.w1 != 0 || e.w2 != 0)) || (level == 2 && e.w1 == 0) || (level != 1 && e.w4 != 0) then
        .next (s.feFail e 1)
      else if level = 2 then .next (s.registerOp e w)
      else if level = 1 then .next (s.registerJob e w)
      else
        let r := s.putRcb w e.w3.toNat
        .next (r.2.feDone e (regIdOf ((w.getD 0 0).fld 63 58) 0 ((w.getD 0 0).fld 55 44) r.1))

/-! ### PLACE (R310 to R314, R455) -/

/-- Banks of a placement's operators, save banks and hamper banks in a tile (R312). -/
def State.usedBanks (s : State) (anchor t : Nat) : BitVec 12 :=
  (s.regionOps anchor).foldl (fun m q => m ||| q.2.banks ||| q.2.save ||| (if t = anchor then q.2.hbanks else 0)) 0

/-- Consecutive free banks from b up, at most n. -/
def runAt (free : Nat → Bool) (b : Nat) : Nat → Nat
  | 0 => 0
  | n + 1 => if b < 12 && free b then 1 + runAt free (b + 1) n else 0

/-- The hamper banks that PLACE takes (R455): the highest run of the least length that holds 16 tile slots, else the
longest run that holds at least 2; none where no run does. -/
def hamperRun (free : Nat → Bool) (payload : Nat) : Option (BitVec 12) :=
  let a := slotBytes payload
  let fit (n : Nat) : Option Nat := (List.range 12).reverse.find? (fun b => runAt free b n == n)
  let full := ceilDiv (16 * a) 131072
  let mask (b n : Nat) : BitVec 12 := maskOf 12 ((List.range n).map (b + ·))
  match (if full ≤ 12 then fit full else none) with
  | some b => some (mask b full)
  | none =>
    match (List.range 12).reverse.map (· + 1) |>.find? (fun n => (fit n).isSome) with
    | none => none
    | some n => if n * 131072 / a ≥ 2 then (fit n).map (fun b => mask b n) else none

/-- The n lowest banks of a list. -/
def lowest (l : List Nat) (n : Nat) : BitVec 12 := maskOf 12 (l.take n)

/-- What PLACE asks for: the operator, its banks per tile, and the values it takes from its RCB. -/
structure PlaceReq where
  id : Word
  op : Operator
  vi : Nat
  banks : Nat
  weights : Word
  deriving DecidableEq, Repr, Inhabited

/-- The placement of a request at a rectangle, without its banks (R31, R306: it keeps the RCB values it takes now). -/
def State.newPlacement (s : State) (q : PlaceReq) (die x y slot order : Nat) : Placement :=
  let e (n : Nat) : Nat := s.effective q.vi q.op.rcb n
  { regId := q.id, vi := q.vi, job := q.op.job, rcb := q.op.rcb, die := die, x := x, y := y, w := q.op.image.w,
    h := q.op.image.h, slot := slot, cls := e 5, banks := 0, save := 0, hbanks := 0, placedAt := s.clk.time,
    round := e 7, storeRound := e 8, pageTimeout := e 9,
    domain := e 10, weights := q.weights, routes := q.op.image.routes.map (·.fld 63 56), order := order }

/-- Whether every tile of a rectangle is free (R311): enabled and unplaced. -/
def State.rectFree (s : State) (die x y w h : Nat) : Bool :=
  (virtTiles w h).all (fun vt =>
    let t := s.tile (physTile die (x + vt % 12) (y + vt / 12))
    t.state == .enabled && t.anchor.isNone)

/-- The rectangles that a search tries, in order (R311). -/
def searchOrder (die x y w h : Nat) (exact : Bool) : List (Nat × Nat × Nat) :=
  let dies := if die = 15 then List.range 8 else die :: (List.range 8).filter (· != die)
  let all_ := dies.flatMap (fun d => (List.range (13 - h)).flatMap (fun y0 => (List.range (13 - w)).map (fun x0 => (d, x0, y0))))
  if exact then all_.filter (· == (die, x, y)) else all_

/-- The operators of class 2 or 3 of a region that would need a save area once a class 0 operator is among them (R312). -/
def State.needSave (s : State) (anchor cls : Nat) : List (Nat × Placement) :=
  if cls = 0 || s.hasClass0 anchor then
    (s.regionOps anchor).filter (fun q => decide (2 ≤ q.2.cls) && q.2.save == 0)
  else []

/-- How a join of a region turns out: refused with a status, or the banks it takes: the operator's, its save banks, its
hamper banks, and the save banks of operators that need them now. -/
inductive Join where
  | refused (status : Nat)
  | ok (banks save hbanks : BitVec 12) (others : List (Nat × BitVec 12))
  deriving DecidableEq, Repr, Inhabited

/-- Whether two operators would bind one route tag in the same tile (R312). -/
def State.tagsMeet (s : State) (im : Image) (anchor : Nat) : Bool :=
  (s.regionOps anchor).any (fun q =>
    match s.imageOf q.2 with
    | none => false
    | some jm => (virtTiles im.w im.h).any (fun vt => (im.tags vt).any (jm.tags vt).contains))

/-- Two banks of a list of free ones for a save area (R312): the lowest above the operator's own, so that they are the
highest of its mask (R314), or else the lowest. DEDUCED (log 85). -/
def saveFrom (free : List Nat) (own : BitVec 12) : BitVec 12 :=
  let up := free.filter (fun b => decide (own.toNat < 2 ^ b))
  if 2 ≤ up.length then lowest up 2 else lowest free 2

/-- The banks of a join (R312, R455): the lowest free in every tile of the region, save banks behind them. -/
def State.joinBanks (s : State) (q : PlaceReq) (anchor w h cls : Nat) : Join :=
  let tiles := (virtTiles w h).map (fun vt => anchor + vt)
  let used := tiles.foldl (fun m t => m ||| s.usedBanks anchor t) 0
  let free := (List.range 12).filter (fun b => !used.getLsbD b)
  let others := s.needSave anchor cls
  let own := if decide (2 ≤ cls) && s.hasClass0 anchor then 2 else 0
  if free.length < q.banks + own + 2 * others.length then .refused 6
  else
    let got := others.foldl (fun (a : List Nat × List (Nat × BitVec 12)) o =>
      let m := saveFrom a.1 o.2.banks
      (a.1.filter (fun b => !m.getLsbD b), a.2 ++ [(o.1, m)])) (free.drop (q.banks + own), [])
    match hamperRun got.1.contains (operPar q.op.image.oper).payload with
    | none => .refused 3
    | some hb => .ok (lowest free q.banks) (lowest (free.drop q.banks) own) hb got.2

/-- Join a region (R312): sizes, a free hamper slot, route tags, banks. R312 names no status for a region that carries four
operators already, and it is 6 (log 129). DESIGN CHOICE (log 129). -/
def State.joinRegion (s : State) (q : PlaceReq) (anchor cls : Nat) : Join :=
  match (s.regionOps anchor).head? with
  | none => .refused 6
  | some (_, p) =>
    if p.w != q.op.image.w || p.h != q.op.image.h || (s.regionOps anchor).length ≥ 4 || s.tagsMeet q.op.image anchor then
      .refused 6
    else s.joinBanks q anchor p.w p.h cls

/-- The charges of a join, which must fit as a whole: the operator's own, and the save banks that others get (R29, R312). -/
def State.joinFits (s : State) (q : PlaceReq) (p : Placement) (others : List (Nat × BitVec 12)) : Bool :=
  s.chargesFit ((q.vi, q.op.rcb, p.charged) :: others.filterMap (fun o =>
    (s.places.find? o.1).map (fun r =>
      (r.vi, r.rcb, ({ tiles := 0, banks := bankCount o.2 * (r.w * r.h), hampers := 0 } : Charge)))))

/-- Put a bank into FIFO mode for a hamper or a save area (R312, R455): what the tile cache held is written back, and the
bank is cleared. -/
def State.takeFifo (s : State) (t b : Nat) : State :=
  ((s.emptyWay t b).updBank t b (fun _ => { mode := .fifo, trans := none })).clearBank t b

/-- Banks of a mask in FIFO mode in every tile of a list. -/
def State.fifoBanks (s : State) (tiles : List Nat) (m : BitVec 12) : State :=
  tiles.foldl (fun s t => ((List.range 12).filter m.getLsbD).foldl (fun s b => s.takeFifo t b) s) s

/-- Give another operator of the region its save area (R312). -/
def State.giveSave (s : State) (o : Nat × BitVec 12) : State :=
  match s.places.find? o.1 with
  | none => s
  | some p =>
    let s := s.charge p.vi p.rcb { tiles := 0, banks := bankCount o.2 * (p.w * p.h), hampers := 0 }
    (s.updPlace o.1 (fun p => { p with save := o.2 })).fifoBanks p.tiles o.2

/-- A charged placement takes its place (R310 to R316): banks, registers of its own at zero (R319), routes, and on an empty region
the load. -/
def State.enterPlace (s : State) (p : Placement) (routes : List Word) : State :=
  let fresh := (s.regionOps p.anchor).isEmpty
  let s := { s with places := s.places.set p.key p }
  let s := p.tiles.foldl (fun s t => s.updTile t (fun x =>
    { x with anchor := some p.anchor, opr := x.opr.set p.slot {} })) s
  let s := p.tiles.foldl (fun s t => ((List.range 12).filter p.banks.getLsbD).foldl (fun s b => (s.emptyWay t b).releaseBank t b) s) s
  let s := (s.fifoBanks p.tiles p.save).fifoBanks [p.anchor] p.hbanks
  let s := s.enterRoutes p routes
  if fresh then ({ s with regions := s.regions.set p.anchor {} }).enterOp p.anchor p.key p else s

/-- Install a placement (R310 to R316): its charge, the save banks that others get, and its place. -/
def State.install (s : State) (q : PlaceReq) (p : Placement) (others : List (Nat × BitVec 12)) : State :=
  (others.foldl State.giveSave (s.charge p.vi p.rcb p.charged)).enterPlace p q.op.image.routes

/-- The lowest free hamper slot of a region. -/
def State.freeSlot (s : State) (anchor : Nat) : Nat :=
  (firstBelow 4 (fun k => (s.places.find? (placeKey anchor k)).isNone)).getD 0

/-- The result of PLACE (R310). -/
def placeResult (p : Placement) : Word := wd (p.anchor + p.slot * 4096)

/-- Place on a free rectangle, if one fits and the charge succeeds (R311): the status otherwise. -/
def State.placeFree (s : State) (q : PlaceReq) (order : Nat) (l : List (Nat × Nat × Nat)) : Except Nat (Placement × State) :=
  let w := q.op.image.w
  let h := q.op.image.h
  match hamperRun (fun b => decide (q.banks ≤ b)) (operPar q.op.image.oper).payload with
  | none => .error 3
  | some hb =>
    match l.find? (fun c => s.rectFree c.1 c.2.1 c.2.2 w h) with
    | none => .error 3
    | some c =>
      let p := { s.newPlacement q c.1 c.2.1 c.2.2 0 order with banks := lowest (List.range 12) q.banks, hbanks := hb }
      if s.chargeFits q.vi q.op.rcb p.charged then .ok (p, s.install q p []) else .error 2

/-- Place into one region, or the status that refuses it (R312, R29). -/
def State.placeJoin (s : State) (q : PlaceReq) (order anchor : Nat) : Except Nat (Placement × State) :=
  let cls := s.effective q.vi q.op.rcb 5
  match s.joinRegion q anchor cls with
  | .refused st => .error st
  | .ok banks save hb others =>
    let p0 := s.newPlacement q (anchor / 144) (anchor % 12) (anchor % 144 / 12) (s.freeSlot anchor) order
    let p := { p0 with banks := banks, save := save, hbanks := hb }
    if s.joinFits q p others then .ok (p, s.install q p others) else .error 2

/-- Place into the first region that takes the operator under the option over (R311): status 2 where only charges fail. -/
def State.placeOver (s : State) (q : PlaceReq) (order : Nat) (l : List (Nat × Nat × Nat)) : Except Nat (Placement × State) :=
  let cand := l.filter (fun c =>
    let a := physTile c.1 c.2.1 c.2.2
    !(s.regionOps a).isEmpty && (s.regionOps a).all (fun o => decide (2 ≤ o.2.cls)))
  let tries := cand.map (fun c => s.placeJoin q order (physTile c.1 c.2.1 c.2.2))
  let good (x : Except Nat (Placement × State)) : Option (Placement × State) :=
    match x with
    | .ok r => some r
    | .error _ => none
  let short (x : Except Nat (Placement × State)) : Bool :=
    match x with
    | .error 2 => true
    | _ => false
  match tries.findSome? good with
  | some r => .ok r
  | none => if tries.any short then .error 2 else .error 3

/-- Whether PLACE's options are in range (R310). -/
def placeOptsOk (o : Word) : Bool :=
  (decide (o.fld 63 60 ≤ 7) || o.fld 63 60 == 15) && decide (o.fld 59 56 ≤ 11) && decide (o.fld 55 52 ≤ 11) &&
  decide (o.fld 50 47 ≤ 12) && o.fld 45 0 == 0

/-- Whether an identifier is that of an RCB's latest registration, of the VI (R306). -/
def State.freshId (s : State) (vi : Nat) (id : Word) (op : Operator) : Bool :=
  op.vi == vi &&
  (match s.rcb vi op.rcb with
   | some r => regIdOf vi op.job op.rcb r.serial == id
   | none => false)

/-- Whether an index of a ROUTE section is held by another placed operator of the job (R313). -/
def State.routeHeld (s : State) (vi job : Nat) (routes : List Word) : Bool :=
  s.places.vals.any (fun p => p.vi == vi && p.job == job && routes.any (fun e => p.routes.contains (e.fld 63 56)))

/-- Where a PLACE goes: into a named region, or where the search of R311 finds room; status 2 where only charges fail. -/
def State.placeWhere (s : State) (e : Entry) (q : PlaceReq) (order : Nat) : Except Nat (Placement × State) :=
  let o := e.w2
  let share := o.getLsbD 46
  if e.w3 != 0 then
    match s.placeOf e.w3 with
    | none => .error 5
    | some (k, p) => if p.vi != e.vi && e.vi != 0 then .error 6 else s.placeJoin q order (keyAnchor k)
  else
    let l := searchOrder (o.fld 63 60) (o.fld 59 56) (o.fld 55 52) q.op.image.w q.op.image.h (o.getLsbD 51)
    match s.placeFree q order l with
    | .ok r => .ok r
    | .error n =>
      if !share then .error n
      else
        match s.placeOver q order l with
        | .ok r => .ok r
        | .error m => .error (min n m)

/-- PLACE (R310 to R314). An operator that is placed already is not placed twice (status 6). DEDUCED (log 85). -/
def execPlace (e : Entry) (s : State) : Out :=
  match s.ops.find? e.w1.toNat with
  | none => .next (s.feFail e 5)
  | some op =>
    if !s.freshId e.vi e.w1 op then .next (s.feFail e 5)
    else if !placeOptsOk e.w2 then .next (s.feFail e 1)
    else if (s.placeOf e.w1).isSome then .next (s.feFail e 6)
    else if e.w2.getLsbD 46 && s.effective e.vi op.rcb 5 != 0 then .next (s.feFail e 6)
    else if s.routeHeld e.vi op.job op.image.routes then .next (s.feFail e 4)
    else
      let n := s.newId
      match n.2.placeWhere e { id := e.w1, op := op, vi := e.vi, banks := e.w2.fld 50 47, weights := e.w4 } n.1 with
      | .error st => .next (s.feFail e st)
      | .ok (p, s) => .next (s.feDone e (placeResult p))

/-! ### UNPLACE (R315) -/

/-- UNPLACE (R315): status 7 while records wait in the hamper or a row group of the operator is live. R315 names no status for an
operator of another VI, and it is 5, from VI 0 too (log 130). DEDUCED (log 81). DESIGN CHOICE (log 130). -/
def execUnplace (e : Entry) (s : State) : Out :=
  match s.placeOf e.w1 with
  | none => .next (s.feFail e 5)
  | some (pk, p) =>
    if p.vi != e.vi then .next (s.feFail e 5)
    else if !p.hamper.records.isEmpty || !(s.liveGroups pk).isEmpty then .next (s.feFail e 7)
    else .next ((s.unplaceOp pk).feOk e)

/-! ### INJECT (R308) -/

/-- The fields that INJECT writes into a record (R308). DEDUCED (log 10). -/
def injected (vi job cls : Nat) (r : TokenRec) : TokenRec :=
  { r with
    h0 := ((r.h0.put 63 58 vi).put 57 46 job).put 45 44 cls
    h1 := r.h1.put 47 36 0xFFF
    rw := ((r.rw.put 63 52 0).put 47 45 0) }

/-- Send a record of an INJECT, which the network carries with the INJECT's identifier (R308). -/
def State.injectOne (s : State) (id idx : Nat) (r : Rec) : State :=
  let u := s.sendTo (s.enterStage r) idx 0xFFF none
  { u with net := s.net ++ (u.net.drop s.net.length).map (fun n => { n with cmd := some id }) }

/-- Send records j, j + 1 and on from the arrays (R308), up to one that cannot be read, or that names a reserved payload format
(R68), which has code 0 here. DESIGN CHOICE (log 106). -/
def State.injectFrom (s : State) (e : Entry) (id cls : Nat) : Nat → Nat → Nat → Option Fail × State
  | 0, _, _ => (none, s)
  | n + 1, ra, pa =>
    match s.feRead e.vi (wd ra) 128 with
    | (.error f, s) => (some f, s)
    | (.ok b, s) =>
      let r := injected e.vi (e.w0.fld 43 32) cls (recOfBytes b)
      if !fmtAssigned (r.h1.fld 51 48) then (some ⟨0, wd ra, 0⟩, s)
      else
        match s.feRead e.vi (wd pa) (64 * r.lines) with
        | (.error f, s) => (some f, s)
        | (.ok pay, s) =>
          State.injectFrom (s.injectOne id (e.w3.fld 7 0) { r := r, pay := pay }) e id cls n (ra + 128) (pa + 64 * r.lines)

/-- An INJECT completes once none of its records is on its way to a hamper or to the die's waiting network before it (R308). -/
def State.injectEnd (s : State) (f : FeCmd) : State :=
  match f.wait with
  | .arriving id => if s.net.any (fun n => n.cmd == some id && n.toHamper) then s else s.feEnd f 0 f.e.w2
  | _ => s

/-- INJECT (R308): records enter in array order; a route index that names no placed target sends none. -/
def execInject (e : Entry) (s : State) : Out :=
  let job := e.w0.fld 43 32
  match s.rcb e.vi job with
  | none => .next (s.feFail e 5)
  | some r =>
    if r.level != 1 then .next (s.feFail e 5)
    else if e.w2 = 0 ∨ e.w2.toNat > 4096 ∨ e.w1.toNat % 128 != 0 ∨ e.w4.toNat % 64 != 0 then .next (s.feFail e 1)
    else if (s.routeTo e.vi job (e.w3.fld 7 0)).isNone then .next (s.feFail e 5)
    else
      let id := s.newId
      match id.2.injectFrom e id.1 (s.effective e.vi job 5) e.w2.toNat e.w1.toNat e.w4.toNat with
      | (some f, s) => .next (if f.code = 0 then s.feFail e 1 else s.feMem e f)
      | (none, s) =>
        let f : FeCmd := { s.feOf e with wait := .arriving id.1 }
        .next (State.injectEnd { s with fe := s.fe.filter (fun x => !(x.e.vi == e.vi && x.e.sq == e.sq)) ++ [f] } f)

/-! ### WBUILD, WSWITCH, COPY (R296, R299, R300, R303) -/

/-- Start an engine command of a submission entry (R303): it acts for the job that W0 names, and its done action is the
completion entry. `kind` is the queue kind it would need (R273). -/
def State.feEngine (s : State) (e : Entry) (code kind : Nat) : State :=
  let job := e.w0.fld 43 32
  match s.rcb e.vi job with
  | none => s.feFail e 5
  | some r =>
    if r.level != 1 then s.feFail e 5
    else
      let n := s.newId
      let c : QCmd :=
        { id := n.1, w0 := wd (code * 2 ^ 56 + e.w5.fld 31 0), w1 := e.w1, w2 := e.w2, w3 := e.w3, w4 := e.w4,
          by_ := .front e.vi e.sq, epoch := 0 }
      let eq := wd (kind * 2 ^ 60 + 15 * 2 ^ 56)
      let s := n.2
      if s.cmdRefusal c eq e.vi job != 0 then
        if code = 0xAB then s.feRefused (s.feOf e) 12 (s.effective e.vi job 10) else s.feFail e 1
      else
        let f := s.feOf e
        let rest := s.fe.filter (fun x => !(x.e.vi == e.vi && x.e.sq == e.sq))
        let rc : RunCmd :=
          { c := c, tile := 0xFFF, pk := 2 ^ 32, q := 0, vi := e.vi, job := job, domain := s.effective e.vi job 10,
            timeout := s.effective e.vi job 9, eq := eq, started := s.clk.cycle }
        (State.launch { s with fe := rest ++ [{ f with wait := .engine n.1 }] } rc).tryFinish n.1

/-- WBUILD of a submission entry (R299). -/
def execWbuildCommand (e : Entry) (s : State) : Out := .next (s.feEngine e 0xAA 1)

/-- WSWITCH of a submission entry (R300). -/
def execWswitchCommand (e : Entry) (s : State) : Out := .next (s.feEngine e 0xAB 7)

/-- COPY of a submission entry (R296). -/
def execCopyCommand (e : Entry) (s : State) : Out := .next (s.feEngine e 0x99 1)

/-! ### TIMED (R326) -/

/-- A submission entry from its 64 bytes. -/
def entryOfBytes (vi sq : Nat) (b : List Byte) : Entry :=
  let w := wordsOf b
  { vi := vi, sq := sq, w0 := w.getD 0 0, w1 := w.getD 1 0, w2 := w.getD 2 0, w3 := w.getD 3 0, w4 := w.getD 4 0,
    w5 := w.getD 5 0, w6 := w.getD 6 0, w7 := w.getD 7 0 }

/-- Whether TIMED may hold a command: INJECT, WBUILD, WSWITCH or COPY (R326). -/
def timedOk (e : Entry) : Bool :=
  let op := e.w0.fld 63 56
  decide (3 ≤ op) && decide (op ≤ 6) && entryOk op e

/-- TIMED (R326): the embedded entry is read now, and its command waits for the stamp. -/
def execTimed (e : Entry) (s : State) : Out :=
  if e.w2.toNat % 64 != 0 then .next (s.feFail e 1)
  else
    match s.feRead e.vi e.w2 64 with
    | (.error f, s) => .next (s.feMem e f)
    | (.ok b, s) =>
      let x := entryOfBytes e.vi e.sq b
      if !timedOk x then .next (s.feFail e 1)
      else
        let f := s.feOf e
        let rest := s.fe.filter (fun x => !(x.e.vi == e.vi && x.e.sq == e.sq))
        .next { s with fe := rest ++ [{ f with wait := .timed e.w1 x }] }

/-- Whether a command in front-end execution occupies a core (R304): one that waits on device time or on an engine leaves its core
free, and so does one that has ended and waits for room in its completion queue (log 148). DESIGN CHOICE (log 148). -/
def FeWait.onCore : FeWait → Bool
  | .ready => true
  | .arriving _ => true
  | _ => false

/-- Commands of one complex that occupy its cores (R304). -/
def State.coresBusy (s : State) (canary : Bool) : Nat :=
  (s.fe.filter (fun f => f.canary == canary && f.wait.onCore)).length

/-- Start the embedded command of a TIMED whose stamp device time has reached, under TIMED's identifier, on a core that is free
(R304, R326); its front-end execution begins now (R449). -/
def State.timedLaunch (s : State) (idx : Nat) : State :=
  match s.fe[idx]? with
  | none => s
  | some f =>
    match f.wait with
    | .timed stamp x =>
      if s.clk.time.toNat < stamp.toNat || 4 ≤ s.coresBusy f.canary then s
      else
        let x := { x with w0 := x.w0.put 31 0 (f.e.w0.fld 31 0) }
        { s with fe := s.fe.set idx { f with e := x, wait := .ready, started := s.clk.cycle } }
    | _ => s

/-- TIMED_LAUNCH (R326). -/
def execTimedLaunch (idx : Nat) (s : State) : Out := .next (s.timedLaunch idx)

/-! ### QUERY (R309) -/

/-- The byte of QUERY kind 0 for a tile (R309). -/
def Tile.queryByte (x : Tile) : Byte :=
  match x.state with
  | .enabled => if x.anchor.isSome then 1 else 0
  | .spare => 2
  | .defective => 3
  | .withdrawn => 4

/-- The tile-state bytes (R309). -/
def State.tileBytes (s : State) : List Byte := (List.range 1152).map (fun t => (s.tile t).queryByte)

/-- Write a QUERY's answer at W2, and complete. -/
def State.queryAnswer (s : State) (e : Entry) (b : List Byte) : State :=
  if e.w2.toNat % 8 != 0 then s.feFail e 1
  else
    match s.feWrite e.vi e.w2 b with
    | (some f, s) => s.feMem e f
    | (none, s) => s.feOk e

/-- QUERY kind 0 (R309). -/
def execQueryTileStates (e : Entry) (s : State) : Out := .next (s.queryAnswer e s.tileBytes)

/-- The placement record (R314). -/
def Placement.record (p : Placement) : List Byte := bytesOf [placeWord0 p, placeWord1 p, p.placedAt, 0]

/-- QUERY kind 1 (R309): an operator of the issuing VI, or of any for VI 0. DEDUCED (log 85). -/
def execQueryPlacement (e : Entry) (s : State) : Out :=
  match s.placeOf e.w3, s.ops.find? e.w3.toNat with
  | some (_, p), _ => if p.vi != e.vi && e.vi != 0 then .next (s.feFail e 6) else .next (s.queryAnswer e p.record)
  | none, some op => .next (s.feFail e (if s.freshId op.vi e.w3 op then 3 else 5))
  | none, none => .next (s.feFail e 5)

/-- QUERY kind 2 (R309): the usage words of an RCB of the issuing VI. -/
def execQueryRcbUsage (e : Entry) (s : State) : Out :=
  match s.rcb e.vi (e.w3.fld 11 0) with
  | none => .next (s.feFail e 5)
  | some _ => .next (s.queryAnswer e (bytesOf (s.usageWords e.vi (e.w3.fld 11 0))))

/-- QUERY kind 3 (R309). -/
def execQueryTime (e : Entry) (s : State) : Out := .next (s.queryAnswer e (bytesOf [s.clk.time]))

/-! ### Service of the queues (R304, R371, R373) -/

/-- Started commands of a VI whose entries go to completion queue c. -/
def State.startedFor (s : State) (vi c : Nat) : Nat :=
  (s.fe.filter (fun f => f.e.vi == vi && ((s.vi vi).sq.getD f.e.sq {}).w1.fld 59 56 == c)).length

/-- Entries that completion queue c of a VI still has to take: those of started commands, and those that wait for room. -/
def State.owedTo (s : State) (vi c : Nat) : Nat :=
  s.startedFor vi c + (if vi = 0 ∧ c = 0 then s.dev.owed.length else 0)

/-- Whether a VI's queue has a command to start and may start it (R304, R371). -/
def State.queueReady (s : State) (vi sq : Nat) : Bool :=
  let v := s.vi vi
  let q := v.sq.getD sq {}
  let c := q.w1.fld 59 56
  q.en && !q.busy && !q.stop && !q.failed && q.head != q.tail && decide (s.coresBusy q.canary < 4) &&
  decide (s.owedTo vi c < (v.cq.getD c {}).space)

/-- Whether a VI's queues may start commands (R371, R376, R382, R386). DEDUCED (log 82). -/
def State.viServed (s : State) (vi : Nat) : Bool :=
  let v := s.vi vi
  s.dev.ready && (vi == 0 || v.enable) && !v.halt && !v.d3 && !(s.vi 0).d3

/-- Whether a VI has work to start. DEDUCED (log 82). -/
def State.viReady (s : State) (vi : Nat) : Bool :=
  s.viServed vi && (List.range 16).any (fun q => s.queueReady vi q)

/-- The effective class of a VI's tenant RCB (R304); a VI that has none is served with the least urgent class. -/
def State.viClass (s : State) (vi : Nat) : Nat :=
  match (s.vi vi).rcbs.vals.find? (fun r => r.level == 0) with
  | some r => r.field 5
  | none => 3

/-- The first of a list after a value in cyclic order. -/
def nextInTurn (last : Nat) (l : List Nat) : Option Nat := (l.find? (fun x => decide (last < x))).orElse (fun _ => l.head?)

/-- The VI to serve (R304): the most urgent class with work, and within it in turn. -/
def State.viToServe (s : State) : Option (Nat × Nat) :=
  let l := (List.range 64).filter (fun v => s.viReady v)
  let best := (l.map s.viClass).foldl min 3
  (nextInTurn (s.dev.servedVi.getD best 63) (l.filter (fun v => s.viClass v == best))).map (fun v => (best, v))

/-- Read a submission entry (R373): as a front-end access in device memory, or from host memory. -/
def State.entryRead (s : State) (vi : Nat) (q : RingQ) : Res (List Byte) × State :=
  let a := q.base + 64 * q.head
  if q.inDevice then s.feRead vi (wd a) 64 else (.ok (s.readKeys (keysFrom (hostKey vi a) 64)), s)

/-- COMMAND_SERVICE (R304): the VI whose turn it is starts the next command of its next queue with work. An entry that cannot
be read stops its queue after a record (R414). -/
def execCommandService (vi : Nat) (s : State) : Out :=
  match s.viToServe, nextInTurn (s.vi vi).lastSq ((List.range 16).filter (fun q => s.queueReady vi q)) with
  | some (c, v), some sq =>
    if v != vi then .next s
    else
      let q := (s.vi vi).sq.getD sq {}
      let s := (s.updDev (fun d => { d with servedVi := d.servedVi.set c vi })).updVi vi (fun v => { v with lastSq := sq })
      let put (s : State) (f : RingQ → RingQ) : State := s.updVi vi (fun v => { v with sq := v.sq.upd sq {} f })
      match s.entryRead vi q with
      | (.error f, s) =>
        .next ((put s (fun q => { q with failed := true })).reportFail f
          { vi := vi, unit := 13, code := f.code, loc := f.loc, detail := f.detail })
      | (.ok b, s) =>
        let head := (q.head + 1) % q.size
        let s := put s (fun q => { q with head := head, busy := true })
        let f : FeCmd :=
          { e := entryOfBytes vi sq b, wait := .ready, started := s.clk.cycle, sqHead := head, canary := q.canary }
        .next { s with fe := s.fe ++ [f] }
  | _, _ => .next s

end Sys2Proof.Machine
end

