-- ==== Sys2Proof/Machine/HostRegs.lean ====
section
/-! DEFINITION. Writes to BAR0 registers (R369 to R377, R381, R384, R392 to R398, R405, R439, R448) and what the registers
read as. The write that is performed stands in the focus of the state. -/

namespace Sys2Proof.Machine

/-! ### Serving a write -/

/-- Whether a register write reaches its function: VI 0's always, another's while VICTL enables it (R376), and none through a
port that is down (R440). -/
def State.regServed (s : State) (w : RegWrite) : Bool :=
  (w.vi == 0 || (s.vi w.vi).enable) && !s.dev.portsDown.contains w.port

/-- Perform the register write of the focus if its function serves it. -/
def withReg (s : State) (f : RegWrite → State) : Out :=
  let w := s.sched.focus.wr
  .next (if s.regServed w then f w else s)

/-! ### Entries for VI 0's CQ0 (R384, R448) -/

/-- Write an entry that no submission queue asked for into VI 0's CQ0; the spec does not say what its cid, sq_head and sq
hold: they are free. It waits while the queue has no entry but those that started commands will need (R371). DEDUCED (log 93). -/
def State.cq0Entry (s : State) (attest : Bool) (status : Nat) (result : Word) : State :=
  let q := (s.vi 0).cq.getD 0 {}
  if !q.en then s
  else if q.space ≤ s.startedFor 0 0 then s.updDev (fun d => { d with owed := d.owed ++ [(attest, status, result)] })
  else
    let f := s.takeFree
    let w0 := wd (f.1.fld 63 12 * 4096 + status % 128 * 2 + (if q.phase then 1 else 0))
    let s := f.2.queueWrite 0 q (16 * q.tail) (bytesOf [w0, result])
    (s.updVi 0 (fun v => { v with cq := v.cq.set 0 q.advance })).signal 0 q.vector q.port

/-- Write the entries that waited for room. DEDUCED (log 93). -/
def State.payOwed (s : State) : State :=
  let l := s.dev.owed
  l.foldl (fun s o => s.cq0Entry o.1 o.2.1 o.2.2) (s.updDev (fun d => { d with owed := [] }))

/-! ### Queue descriptors and doorbells (R302, R371, R373) -/

/-- Whether a descriptor holds no reserved value (R302, R371); an error queue's cq field is zero (R392). -/
def descOk (err : Bool) (w0 w1 : Word) : Bool :=
  w0.fld 11 0 == 0 && w1.fld 46 0 == 0 && decide (4 ≤ w1.fld 63 60) && decide (w1.fld 63 60 ≤ 12) &&
  decide (w1.fld 55 48 ≤ 63) && (!err || w1.fld 59 56 == 0)

/-- A descriptor word written (R371): word 0 of an enabled queue ignores it; word 1 enables the queue afresh, or disables it
once its command in progress has completed; a refused one leaves the queue disabled. DEDUCED (log 89). -/
def RingQ.writeDesc (q : RingQ) (word : Nat) (v : Word) (port : Nat) (canary err : Bool) : RingQ :=
  if word = 0 then (if q.en then q else { q with w0 := v })
  else if !v.getLsbD 47 || !descOk err q.w0 v then
    if q.busy then { q with stop := true }
    else if v.getLsbD 47 then { q with en := false }
    else { q with w1 := v, en := false }
  else { w0 := q.w0, w1 := v, en := true, port := port, busy := q.busy, canary := canary }

/-- Whether the queues of a VI are canary queues now (R448, R449). -/
def State.isCanary (s : State) (vi : Nat) : Bool := s.dev.fwstate == .canary && s.dev.fwcanary.getLsbD vi

/-- QUEUE_DESCRIPTOR_WRITE (R371, R392, R393): SQD, CQD, ERRQD, and VI 0's LOGD; once a VF has enabled a queue, FEPOL is fixed
(R439). Commands that wait for room in a completion queue may have it now. DEDUCED (log 89). DESIGN CHOICE (log 148). -/
def execQueueDescriptorWrite (s : State) : Out :=
  withReg s (fun w =>
    let word := w.off / 8 % 2
    let f (err : Bool) (q : RingQ) : RingQ := q.writeDesc word w.v w.port (s.isCanary w.vi) err
    let was :=
      if w.off < 0x200 then (s.vi w.vi).sq.getD ((w.off - 0x100) / 16) {}
      else if w.off < 0x300 then (s.vi w.vi).cq.getD ((w.off - 0x200) / 16) {}
      else (s.vi w.vi).errq
    let s :=
      if w.off < 0x200 then s.updVi w.vi (fun v => { v with sq := v.sq.upd ((w.off - 0x100) / 16) {} (f false) })
      else if w.off < 0x300 then s.updVi w.vi (fun v => { v with cq := v.cq.upd ((w.off - 0x200) / 16) {} (f false) })
      else if w.off < 0x310 then
        s.updVi w.vi (fun v =>
          let q := f true v.errq
          { v with errq := q, errstat := if word = 1 ∧ q.en then 0 else v.errstat })
      else s.updDev (fun d =>
        { d with logq := f false d.logq, logCount := if word = 1 ∧ (f false d.logq).en then 0 else d.logCount })
    let s := if w.vi != 0 && word == 1 && w.v.getLsbD 47 && descOk (w.off ≥ 0x300) was.w0 w.v then
      s.updDev (fun d => { d with vfQueue := true })
    else s
    s.endWaiting)

/-- A submission tail reaches its queue (R371): a tail at or above the entry count disables the queue and is reported.
DEDUCED (log 90). -/
def State.ringDoorbell (s : State) (vi sq tail : Nat) : State :=
  let q := (s.vi vi).sq.getD sq {}
  if !q.en then s
  else if tail ≥ q.size then
    (s.updVi vi (fun v => { v with sq := v.sq.set sq (if q.busy then { q with stop := true } else { q with en := false }) })).malformed
      vi sq tail
  else s.updVi vi (fun v => { v with sq := v.sq.set sq { q with tail := tail } })

/-- The ordering point of a VI on a port (R147). -/
def State.ordAt (s : State) (vi port : Nat) : OrdPoint := (s.vi vi).ord.getD port {}
def State.updOrd (s : State) (vi port : Nat) (f : OrdPoint → OrdPoint) : State :=
  s.updVi vi (fun v => { v with ord := v.ord.upd port {} f })

/-- Perform a write at its home die, or a doorbell (R147, R373); a write into part of a bad granule is not performed and is
reported (R419). -/
def State.performIn (s : State) (vi port : Nat) (w : InWrite) : State :=
  match w.sqdb with
  | some (q, t) => s.ringDoorbell vi q t
  | none =>
    if s.badWrite w.keys then
      s.report { vi := vi, unit := 14, code := 0x1D, loc := wd ((w.keys.head?).getD 0), count := s.cecAt 14 port }
    else s.writeKeys w.keys w.data

/-- How many of a write's first bytes lie in one aligned group of 64 bytes, which is performed as one unit (R131). DEDUCED (log 8). -/
def InWrite.part (w : InWrite) : Nat := (w.keys.takeWhile (fun k => k / 64 == w.keys.headD 0 / 64)).length

/-- Perform the next part of a write (R131, R147), and what is left of it: a write that is one part, a doorbell, and one that meets a
bad granule (R419) end here. DEDUCED (log 8). -/
def State.performPart (s : State) (vi port : Nat) (w : InWrite) : Option InWrite × State :=
  let n := w.part
  if w.sqdb.isSome || s.badWrite w.keys || decide (w.keys.length ≤ n) then (none, s.performIn vi port w)
  else (some { w with keys := w.keys.drop n, data := w.data.drop n }, s.writeKeys (w.keys.take n) (w.data.take n))

/-- Perform the next part of write idx of an ordering point (R147): what is left of it keeps its place. -/
def State.performAt (s : State) (vi port idx : Nat) (w : InWrite) : State :=
  let p := s.performPart vi port w
  p.2.updOrd vi port (fun o => { o with writes := match p.1 with
    | some r => o.writes.set idx r
    | none => listDrop o.writes idx })

/-- A completion flag at the ordering point (R147, R440, R442): discarded and counted after a lost acknowledgement,
performed when nothing is ahead of it and it is one part, else it waits. -/
def State.flagIn (s : State) (vi port : Nat) (w : InWrite) : State :=
  let o := s.ordAt vi port
  if o.lost then s.updOrd vi port (fun o => { o with discarded := o.discarded + 1 })
  else if o.writes.isEmpty && decide (w.keys.length ≤ w.part) then s.performIn vi port w
  else s.updOrd vi port (fun o => { o with writes := o.writes ++ [w] })

/-- SQ_DOORBELL (R371, R373): the write of SQDB is a completion flag. DEDUCED (log 90). -/
def execSqDoorbell (s : State) : Out :=
  withReg s (fun w => s.flagIn w.vi w.port
    { keys := [], data := [], die := 0, flag := true, since := s.clk.cycle,
      sqdb := some ((w.off - 0x1000) / 8, w.v.fld 15 0) })

/-- CQ_DOORBELL (R371): the new completion head; one at or above the entry count is ignored. What waited for room goes in. -/
def execCqDoorbell (s : State) : Out :=
  withReg s (fun w =>
    let n := (w.off - 0x1080) / 8
    let q := (s.vi w.vi).cq.getD n {}
    if w.v.fld 15 0 ≥ q.size then s
    else
      let s := (s.updVi w.vi (fun v => { v with cq := v.cq.set n { q with head := w.v.fld 15 0 } })).endWaiting
      if w.vi = 0 ∧ n = 0 then s.payOwed else s)

/-! ### Roots, windows, invalidation (R374 to R376) -/

/-- Post an invalidation request of a VI (R375). -/
def State.postInv (s : State) (vi kind seq : Nat) : State :=
  s.updVi vi (fun v =>
    { v with inv := v.inv ++ [{ kind := kind, seq := seq, n := v.invCount, sysc := none }], invCount := v.invCount + 1 })

/-- INVREQ_TRANSLATION (R375). -/
def execInvreqTranslation (s : State) : Out := withReg s (fun w => s.postInv w.vi 1 (w.v.fld 31 0))

/-- INVREQ_HANDLE (R375). -/
def execInvreqHandle (s : State) : Out := withReg s (fun w => s.postInv w.vi 2 (w.v.fld 31 0))

/-- INVREQ_BOTH (R375). -/
def execInvreqBoth (s : State) : Out := withReg s (fun w => s.postInv w.vi 3 (w.v.fld 31 0))

/-- A translation root with its reserved bits zero (R7, R374). -/
def rootOf (v : Word) : Word := v &&& 0x800FFFFFFFFFF000#64

/-- The VI whose administration page holds an offset (R376), and the offset in the page. -/
def adminVi (off : Nat) : Nat := (off - 0x10000) / 0x400
def adminOff (off : Nat) : Nat := (off - 0x10000) % 0x400

/-- VSROOT_WRITE (R374). -/
def execVsrootWrite (s : State) : Out := withReg s (fun w => s.updVi w.vi (fun v => { v with vsroot := rootOf w.v }))

/-- HSROOT_WRITE (R374, R376). -/
def execHsrootWrite (s : State) : Out :=
  withReg s (fun w => s.updVi (adminVi w.off) (fun v => { v with hsroot := rootOf w.v }))

/-- Whether a window descriptor is accepted into a table at an index (R110): no reserved bit, and no overlap with another
enabled window. -/
def windowOk (tab : KMap WinDesc) (i : Nat) (d : WinDesc) : Bool :=
  d.w0.fld 63 57 == 0 && d.w0.fld 15 2 == 0 && d.w1.fld 63 41 == 0 &&
  tab.items.all (fun p => p.1 == i || p.2.len == 0 || d.len == 0 || decide (d.base + d.len ≤ p.2.base) ||
    decide (p.2.base + p.2.len ≤ d.base))

/-- WINDOW_DESCRIPTOR_WRITE (R110, R376): word 0 is kept, word 1 applies the descriptor; a refused one leaves WIND. -/
def execWindowDescriptorWrite (s : State) : Out :=
  withReg s (fun w =>
    let i := adminOff w.off / 16
    s.updVi (adminVi w.off) (fun v =>
      if w.off / 8 % 2 = 0 then { v with winw0 := v.winw0.set i w.v }
      else
        let d : WinDesc := { w0 := v.winw0.getD i 0, w1 := w.v }
        if windowOk v.wind i d then { v with wind := v.wind.set i d, windOld := (v.invCount, v.wind) :: v.windOld } else v))

/-- The record of flags discarded after a lost acknowledgement (R442). -/
def State.noteDiscarded (s : State) (vi : Nat) : State :=
  (s.vi vi).ord.items.foldl (fun s o =>
    if o.2.lost then
      s.report { severity := 3, unit := 18, code := 0x0E,
                 detail := o.2.die + o.1 % 2 * 2 ^ 8 + vi * 2 ^ 16 + min 1023 o.2.discarded * 2 ^ 22,
                 count := s.cecAt 18 o.2.die }
    else s) s

/-- VICTL_WRITE (R376, R442): clearing enable writes the record of discarded flags, setting it ends that state. -/
def execVictlWrite (s : State) : Out :=
  withReg s (fun w =>
    let n := adminVi w.off
    let was := (s.vi n).enable
    let on := w.v.getLsbD 0
    let s := if was && !on then s.noteDiscarded n else s
    s.updVi n (fun v =>
      { v with enable := on, halt := w.v.getLsbD 1,
               ord := if on && !was then v.ord.mapVals (fun _ o => { o with lost := false, discarded := 0 }) else v.ord }))

/-! ### DOMCTL (R394, R405) -/

/-- Tiles and instances of a VI's fault domain that are trapped. -/
def State.trappedIn (s : State) (vi domain : Nat) : List (Nat × Nat) :=
  (s.places.items.filter (fun q => q.2.vi == vi && q.2.domain == domain)).flatMap (fun q =>
    q.2.tiles.flatMap (fun t =>
      ((s.core t).insts.items.filter (fun i => i.2.pk == q.1 && i.2.status == .trapped)).map (fun i => (t, i.1))))

/-- Restart every trapped instance of a domain at its block start (R405). -/
def State.resumeDomain (s : State) (vi domain : Nat) : State :=
  (s.trappedIn vi domain).foldl (fun s x =>
    s.updCore x.1 (fun c => { c with insts := c.insts.upd x.2 default (fun i => { i with status := .ready }) })) s

/-- End every trapped instance of a domain, then retire every row of a set left with no instance, each with its record
(R405). -/
def State.abortDomain (s : State) (vi domain : Nat) : State :=
  let l := s.trappedIn vi domain
  let groups := (l.filterMap (fun x => (s.setGroup ((s.core x.1).insts.getD x.2 default).set).map Prod.fst)).eraseDups
  let s := l.foldl (fun s x => s.updCore x.1 (fun c => { c with insts := c.insts.erase x.2 })) s
  groups.foldl (fun s id =>
    match s.rgs.find? id with
    | none => s
    | some g =>
      if s.setBusy id g then s
      else
        (g.liveRows.foldl (fun s row =>
          (s.report (rowRec (s.rowRecord g row).r (s.places.find? g.pk) 1 1 4 0 g.rgid row)).retireRow id row) s).tryFree id) s

/-- The firings whose instances a hold has kept back wait for their start from the cycle of its release (R429).
DEDUCED (log 71). -/
def State.noteRelease (s : State) (on : Placement → Bool) : State :=
  let mine (t : Nat) (a : Arrival) : Bool :=
    a.kind == 0 && (match (s.tagOwner t a.tag).bind s.places.find? with
      | some p => on p
      | none => false)
  { s with tiles := s.tiles.mapVals (fun t x =>
      { x with core := { x.core with
          arrivals := x.core.arrivals.map (fun a => if mine t a then { a with heldTo := s.clk.cycle } else a) } }) }

/-- A DOMCTL write (R394, R405): abort before resume, then release, after which late class 0 work names the hold (R429). -/
def State.domctl (s : State) (vi : Nat) (v : Word) : State :=
  let d := v.fld 15 0
  let s := if v.getLsbD 18 then s.abortDomain vi d else if v.getLsbD 17 then s.resumeDomain vi d else s
  if v.getLsbD 16 ∧ (s.vi vi).held.contains d then
    let on (p : Placement) : Bool := p.vi == vi && p.domain == d
    ((s.noteCause (fun _ p => on p) 19).noteRelease on).updVi vi (fun x => { x with held := x.held.filter (· != d) })
  else s

/-- DOMCTL_RELEASE (R394). -/
def execDomctlRelease (s : State) : Out := withReg s (fun w => s.domctl w.vi w.v)

/-- DOMCTL_RESUME (R405). -/
def execDomctlResume (s : State) : Out := withReg s (fun w => s.domctl w.vi w.v)

/-- DOMCTL_ABORT (R405). -/
def execDomctlAbort (s : State) : Out := withReg s (fun w => s.domctl w.vi w.v)

/-! ### TILECMD (R398) -/

/-- The result of a TILECMD (R393). DEDUCED (log 97). -/
def State.tileResult (s : State) (n : Nat) : State := s.updDev (fun d => { d with tileResult := n })

/-- A TILECMD write (R398): it is ignored while busy is set, and sets it. What it does is done at once, and busy clears with the
move that ends the command. DEDUCED (log 97). -/
def State.tilecmd (s : State) (f : State → State) : State :=
  if s.dev.tileBusy then s else (f s).updDev (fun d => { d with tileBusy := true })

/-- The command of TILECMD has finished (R398). -/
def State.tilecmdDone (s : State) : State := s.updDev (fun d => { d with tileBusy := false })

/-- SRCAUSE[5] when a die has no spare left (R398). DEDUCED (log 97). -/
def State.checkSpares (s : State) (die : Nat) : State :=
  if (List.range 144).any (fun i => (s.tile (die * 144 + i)).state == .spare) then s else s.serviceCause 5

/-- Eject what an operator holds with code 0x07 and then unplace it (R398): its row groups' rows, with the record of a row that was
forwarded in this cycle (R395), and what waits for it. -/
def State.evacuate (s : State) (pk : Nat) (p : Placement) : State :=
  let carry := (s.parOf p).carry
  let mine := ((s.rgs.items ++ s.freed.items).filter (fun g => g.2.pk == pk)).map Prod.fst
  let l := (s.waitingFor pk p).map (fun r => { r with r := carried carry r.r })
  let s := (State.updHamper { s with net := s.net.filter (fun n => !n.boundFor pk) } pk (fun h => { h with net := [] }))
  let s := mine.foldl (fun s id => s.ejectRows id 7 0 13 ⟨0x22, 0, 7⟩) s
  (l.foldl (fun s r =>
    (s.report (rowRec r.r (some p) 13 1 0x22 7 r.lastRg r.lastRow)).ejectTo r 7 0 p.anchor (some p)) s).unplaceOp pk

/-- TILECMD_WITHDRAW (R398). -/
def execTilecmdWithdraw (s : State) : Out :=
  withReg s (fun w => s.tilecmd (fun s =>
    let t := w.v.fld 10 0
    let st := (s.tile t).state
    if t ≥ 1152 || st == .defective || st == .withdrawn then s.tileResult 1
    else
      let s := (s.placesOn t).foldl (fun s q => s.evacuate q.1 q.2) s
      (((s.updTile t (fun x => { x with state := .withdrawn })).serviceCause 2).checkSpares (t / 144)).tileResult 0))

/-- TILECMD_ADMIT (R398). -/
def execTilecmdAdmit (s : State) : Out :=
  withReg s (fun w => s.tilecmd (fun s =>
    let t := w.v.fld 10 0
    if t < 1152 ∧ (s.tile t).state = .spare then
      ((s.updTile t (fun x => { x with state := .enabled })).checkSpares (t / 144)).tileResult 0
    else s.tileResult 1))

/-- TILECMD_RESTART (R398). -/
def execTilecmdRestart (s : State) : Out :=
  withReg s (fun w => s.tilecmd (fun s =>
    let t := w.v.fld 10 0
    if t < 1152 ∧ (s.core t).halted then (s.updCore t (fun c => { c with halted := false })).tileResult 0
    else s.tileResult 1))

/-! ### Device time (R381) -/

/-- The pending THOLDs and TIMEDs whose time has passed: time, and tile and index, or none and the index of the command. -/
def State.passedHolds (s : State) : List (Nat × Option Nat × Nat) :=
  let now := s.clk.time.toNat
  let th := s.tiles.items.flatMap (fun x => x.2.core.tholds.zipIdx.map (fun h => (h.1.time.toNat, some x.1, h.2)))
  let fe := s.fe.zipIdx.filterMap (fun f => match f.1.wait with
    | .timed stamp _ => some (stamp.toNat, none, f.2)
    | _ => none)
  (th ++ fe).filter (fun h => decide (h.1 ≤ now))

/-- Whether a hold whose time has passed can be released now: a THOLD is no held sender (R52), and a TIMED has a core (R304). -/
def State.mayRelease (s : State) (h : Nat × Option Nat × Nat) : Bool :=
  match h with
  | (_, some t, i) =>
    (match (s.core t).tholds[i]? with
     | some x => !s.sendsHeld t (fun a => a.kind == 8 && a.tag == x.tag)
     | none => false)
  | (_, none, i) =>
    (match s.fe[i]? with
     | some f => decide (s.coresBusy f.canary < 4)
     | none => false)

/-- Release the earliest hold whose time has passed and that can be released. -/
def State.releaseHold (s : State) : State :=
  let best := (s.passedHolds.filter s.mayRelease).foldl (fun a h => match a with
    | none => some h
    | some b => if h.1 < b.1 then some h else some b) none
  match best with
  | some (_, some t, i) => s.raiseThold t i
  | some (_, none, i) => s.timedLaunch i
  | none => s

/-- A forward step of device time (R381): every hold whose time has been passed is released, in increasing order of time, but for
those that wait for something else. -/
def State.stepTime (s : State) (n : Nat) : State :=
  let s := { s with clk := { s.clk with time := s.clk.time + wd n } }
  s.passedHolds.foldl (fun s _ => s.releaseHold) s

/-- The signed amount of a TADJ write (R381). -/
def tadjAmount (v : Word) : Int := signed 62 (v.fld 61 0)

/-- A slew (R381): a later one replaces the remainder of an earlier one. -/
def State.slewTime (s : State) (n : Int) : State := { s with clk := { s.clk with slew := n * 470000 } }

/-- TADJ_SLEW (R381). DEDUCED (log 94). -/
def execTadjSlew (s : State) : Out := withReg s (fun w => s.slewTime (tadjAmount w.v))

/-- TADJ_STEP (R381): a step that is zero or negative is ignored. DEDUCED (log 94). -/
def execTadjStep (s : State) : Out :=
  withReg s (fun w => if tadjAmount w.v ≤ 0 then s else s.stepTime (tadjAmount w.v).toNat)

/-! ### Attestation (R383, R384) -/

/-- The device identity key (R383): the XMSS-SHAKE256_20_256 key of the part's seeds. -/
def identityKey : List Byte := xmssPublic 20 Config.identitySeed Config.identityPublic

/-- The device's signature of a message under a leaf (R383). -/
def signatureOf (leaf : Nat) (b : List Byte) : List Byte :=
  xmssSign 20 Config.identitySeed Config.identityPrf Config.identityPublic leaf b

/-- Bytes 0 to 151 of the report of an attestation (R384), which its signature covers. -/
def State.attestBody (s : State) : List Byte :=
  leBytes 4 0x58545641 ++ leBytes 4 s.dev.leaf ++ leBytes 8 s.clk.time.toNat ++ shake256 identityKey ++
    shake256 s.dev.fwImage ++ leBytes 4 (Config.fwVersion s.dev.fwImage) ++ leBytes 4 0 ++ shake256 s.tileBytes ++
    (List.range 32).map (fun i => s.dev.nonce.getD i 0)

/-- The report of an attestation (R384). -/
def State.attestReport (s : State) : List Byte := s.attestBody ++ signatureOf s.dev.leaf s.attestBody

/-- ATTESTATION (R383, R384): the leaf is advanced before its signature leaves; one that is under way makes a second write be
ignored. -/
def execAttestation (s : State) : Out :=
  withReg s (fun w =>
    if s.dev.owed.any (fun o => o.1) then s
    else if s.dev.leaf ≥ 2 ^ 20 then let f := s.takeFree; f.2.cq0Entry true 9 f.1
    else
      let b := s.attestReport
      let s := s.updDev (fun d => { d with leaf := d.leaf + 1 })
      match s.feWrite 0 (wd (w.v.fld 63 3 * 8)) b with
      | (some f, s) => (s.reportFail f { unit := 13, code := f.code, loc := f.loc, detail := f.detail }).cq0Entry true 8 (wd f.code)
      | (none, s) => let f := s.takeFree; f.2.cq0Entry true 0 f.1)

/-! ### Links and firmware (R379, R448, R449) -/

/-- LNKCTL_WRITE (R379): a port whose bit is clear is not trained. DESIGN CHOICE (log 95). -/
def execLnkctlWrite (s : State) : Out :=
  withReg s (fun w =>
    let v := w.v.setWidth 16
    s.updDev (fun d => { d with lnkctl := v, lnkstat := d.lnkstat &&& v }))

/-- FWSTAT (R448). -/
def State.fwstat (s : State) : Word :=
  let n := match s.dev.fwstate with
    | .idle => 0
    | .verifying => 1
    | .canary => 2
    | .committing => 3
    | .committed => 4
    | .reverted => 5
    | .refused => 6
  wd (n + s.dev.fwreason * 256)

/-- FWCTL_START (R448, R449): ignored while an update runs, and for a canary window outside 1 to 60,000 ms.
DESIGN CHOICE (log 96). -/
def execFwctlStart (s : State) : Out :=
  withReg s (fun w =>
    let st := s.dev.fwstate
    if st == .verifying || st == .canary || st == .committing || w.v.fld 31 0 = 0 || w.v.fld 31 0 > 60000 then s
    else s.updDev (fun d => { d with fwstate := .verifying, fwreason := 0, fwctl := w.v }))

/-- Queues back to the active complex, and commands that cross the handover (R449). -/
def State.endCanary (s : State) : State :=
  { s with
    vis := s.vis.mapVals (fun _ v => { v with sq := v.sq.mapVals (fun _ q => { q with canary := false }) })
    fe := s.fe.map (fun f => { f with canary := false }) }

/-- A final state of an update: FWSTAT, and its entry in VI 0's CQ0 (R448). -/
def State.fwFinal (s : State) (st : FwState) (reason : Nat) : State :=
  let s := s.updDev (fun d => { d with fwstate := st, fwreason := reason })
  s.cq0Entry false (if st = .committed then 0 else 11) s.fwstat

/-- A revert (R449 steps 4 and 6): only a canary can be reverted. -/
def State.fwRevert (s : State) (reason : Nat) : State :=
  if s.dev.fwstate = .canary then s.endCanary.fwFinal .reverted reason else s

/-- The decision to commit (R449 step 4); the handover follows at a packet boundary of both complexes. -/
def State.fwDecide (s : State) : State :=
  if s.dev.fwstate = .canary then s.updDev (fun d => { d with fwstate := .committing }) else s

/-- The standby's copy of the state table as it is now (R301): the commands in front-end execution and the queue positions, the
registrations, and the placements without what waits in their hampers. DESIGN CHOICE (log 96). -/
def State.copyTable (s : State) : State :=
  let heads := s.vis.items.flatMap (fun v => v.2.sq.items.map (fun q => (16 * v.1 + q.1, q.2.head)))
  { s with copy :=
      { fe := s.fe.filter (fun f => !f.canary), heads := heads.foldl (fun m x => m.set x.1 x.2) {}, ops := s.ops,
        rcbs := s.vis.mapVals (fun _ v => v.rcbs), jobs := s.jobs, places := s.places.mapVals (fun _ p => { p with hamper := {} }) } }

/-- The commit (R449 step 5): the standby takes every queue and becomes the active complex; with bump the fused counter is
raised to the image's version. -/
def State.fwCommit (s : State) : State :=
  if s.dev.fwstate = .committing then
    let bump := s.dev.fwctl.getLsbD 32
    let s := s.endCanary.updDev (fun d =>
      { d with activeB := !d.activeB, fwImage := d.fwNew,
               fused := if bump then max d.fused (Config.fwVersion d.fwNew) else d.fused })
    s.copyTable.fwFinal .committed 0
  else s

/-- FWCTL_COMMIT (R449). DESIGN CHOICE (log 96). -/
def execFwctlCommit (s : State) : Out := withReg s (fun _ => s.fwDecide)

/-- FWCTL_REVERT (R449). -/
def execFwctlRevert (s : State) : Out := withReg s (fun _ => s.fwRevert 6)

/-! ### Registers with no row of their own (R369, R370, R377, R392, R393, R439, R448) -/

/-- A write to VI 0's device registers. -/
def State.devRegWrite (s : State) (off : Nat) (v : Word) : State :=
  if off = 0x4000 then
    let n := v.fld 11 0
    if 800 ≤ n ∧ n ≤ 3200 then s.updDev (fun d => { d with pcap := n }) else s
  else if off = 0x4008 then if s.dev.lnkctl = 0 then s.updDev (fun d => { d with pkgid := v.fld 7 0 }) else s
  else if off = 0x4020 then
    if v.fld 1 0 = 3 then s
    else (if v.fld 1 0 = 0 then { s with clk := { s.clk with slew := 0 } } else s).updDev (fun d =>
      { d with timesrc := v &&& 0xF3#64, lastSync := s.clk.cycle, timeLost := false, timeLocked := false })
  else if 0x4040 ≤ off ∧ off < 0x4060 ∧ off % 8 = 0 then
    s.updDev (fun d => { d with nonce := (leBytes 8 v.toNat).zipIdx.foldl (fun m b => m.set (off - 0x4040 + b.2) b.1) d.nonce })
  else if off = 0x4110 then
    let n := v.fld 15 0
    let q := s.dev.logq
    if n < q.size then
      s.updDev (fun d => { d with logq := { q with head := n }, logCount := (q.tail + q.size - n) % q.size })
    else s
  else if off = 0x4200 then s.tilecmd (fun s => s.tileResult (if v.fld 59 11 = 0 ∧ v.fld 63 60 = 0 then 0 else 2))
  else if off = 0x4210 then if v.fld 15 0 = 0 then s else s.updDev (fun d => { d with cethr := v.fld 15 0 })
  else if off = 0x4300 then if s.dev.vfQueue then s else s.updDev (fun d => { d with fepol := v.fld 1 0 })
  else if off = 0x4308 then s.updDev (fun d => { d with fwaddr := v &&& 0xFFFFFFFFFFFFFFF8#64 })
  else if off = 0x4310 then s.updDev (fun d => { d with fwlen := v })
  else if off = 0x4318 then s.updDev (fun d => { d with fwcanary := v })
  else if 0x4800 ≤ off ∧ off < 0x4A00 ∧ off % 2 = 0 then
    s.updDev (fun d => { d with rtbl := d.rtbl.set ((off - 0x4800) / 2) (v.setWidth 16) })
  else s

/-- REGISTER_WRITE (R369): APBASE, the MSI-X table, ERRDB, and VI 0's device registers; any other write is ignored.
DEDUCED (log 22). -/
def execRegisterWrite (s : State) : Out :=
  withReg s (fun w =>
    if w.off = 0x18 then s.updVi w.vi (fun v => { v with apbase := w.v &&& 0x01FFFFC000000000#64 })
    else if w.off = 0x1100 then
      s.updVi w.vi (fun v => if w.v.fld 15 0 < v.errq.size then { v with errq := { v.errq with head := w.v.fld 15 0 } } else v)
    else if 0x8000 ≤ w.off ∧ w.off < 0x8400 ∧ w.off % 8 = 0 then
      s.updVi w.vi (fun v => { v with msix := v.msix.set ((w.off - 0x8000) / 8) w.v })
    else if w.vi = 0 then s.devRegWrite w.off w.v
    else s)

/-! ### What the registers read as -/

/-- A descriptor word as it reads: reserved bits are zero (R7), and enable says whether the queue is in use. -/
def RingQ.descWord (q : RingQ) (word : Nat) : Word :=
  if word = 0 then q.w0.put 11 0 0 else (q.w1.put 47 47 (if q.en then 1 else 0)).put 46 0 0

/-- Whether an MSI-X vector is masked: bit 32 of its second word; the table masks every vector until software writes it.
PRESUMED (log 92). -/
def Vi.masked (v : Vi) (vec : Nat) : Bool := (v.msix.getD (2 * vec + 1) (wd (2 ^ 32))).getLsbD 32

/-- What VI 0's device registers read as. -/
def State.devRegRead (s : State) (off : Nat) : Word :=
  if off = 0x4000 then wd s.dev.pcap
  else if off = 0x4008 then wd s.dev.pkgid
  else if off = 0x4010 then s.dev.lnkctl.setWidth 64
  else if off = 0x4018 then s.dev.lnkstat.setWidth 64
  else if off = 0x4020 then s.dev.timesrc
  else if 0x4040 ≤ off ∧ off < 0x4060 then wd (leNat ((List.range 8).map (fun i => s.dev.nonce.getD (off - 0x4040 + i) 0)))
  else if off = 0x4100 ∨ off = 0x4108 then s.dev.logq.descWord (off / 8 % 2)
  else if off = 0x4118 then wd s.dev.logstat
  else if off = 0x4208 then wd (s.dev.tileResult + (if s.dev.tileBusy then 2 ^ 63 else 0))
  else if off = 0x4210 then wd s.dev.cethr
  else if off = 0x4218 then s.dev.srcause.setWidth 64
  else if off = 0x4300 then wd s.dev.fepol
  else if off = 0x4308 then s.dev.fwaddr
  else if off = 0x4310 then s.dev.fwlen
  else if off = 0x4318 then s.dev.fwcanary
  else if off = 0x4328 then s.fwstat
  else if 0x4800 ≤ off ∧ off < 0x4A00 then (s.dev.rtbl.getD ((off - 0x4800) / 2) 0).setWidth 64
  else 0

/-- What VI 0's administration pages read as (R376). -/
def State.adminRead (s : State) (off : Nat) : Word :=
  let v := s.vi (adminVi off)
  let o := adminOff off
  if o < 0x100 then (if o / 8 % 2 = 0 then ((v.winw0.getD (o / 16) 0).put 63 57 0).put 15 2 0 else (v.wind.getD (o / 16) {}).w1)
  else if o = 0x100 then v.hsroot
  else if o = 0x108 then wd ((if v.enable then 1 else 0) + (if v.halt then 2 else 0))
  else 0

/-- What the register at an offset of a function's page reads as through a port (R369, R370); a write-only register and an
offset that no table lists read as zero. -/
def State.readReg (s : State) (vi port off : Nat) : Word :=
  let v := s.vi vi
  if off = 0 then wd (vi + port * 256)
  else if off = 0x08 then s.devstat
  else if off = 0x10 then v.vsroot
  else if off = 0x18 then v.apbase
  else if off = 0x28 then v.invdone.setWidth 64
  else if off = 0x30 then s.clk.time
  else if 0x100 ≤ off ∧ off < 0x200 then (v.sq.getD ((off - 0x100) / 16) {}).descWord (off / 8 % 2)
  else if 0x200 ≤ off ∧ off < 0x300 then (v.cq.getD ((off - 0x200) / 16) {}).descWord (off / 8 % 2)
  else if 0x300 ≤ off ∧ off < 0x310 then v.errq.descWord (off / 8 % 2)
  else if off = 0x318 then wd v.errstat
  else if 0x2000 ≤ off ∧ off < 0x2100 then
    let d := v.wind.getD ((off - 0x2000) / 16) {}
    if off / 8 % 2 = 0 then d.w0 else d.w1
  else if 0x8000 ≤ off ∧ off < 0x8400 then v.msix.getD ((off - 0x8000) / 8) (if off / 8 % 2 = 1 then wd (2 ^ 32) else 0)
  else if off = 0x9000 then maskOf 64 (v.vecPend.keys)
  else if vi = 0 ∧ 0x10000 ≤ off ∧ off < 0x20000 then s.adminRead off
  else if vi = 0 then s.devRegRead off
  else 0

end Sys2Proof.Machine
end

