-- ==== Sys2Proof/Machine/Firmware.lean ====
section
/-! DEFINITION. Start-up (R17, R382, R387), self-test (R396), firmware update and takeover (R448 to R450). -/

namespace Sys2Proof.Machine

/-! ### Start-up -/

/-- Whether the signature of a firmware image verifies over the digest of the image, against the key whose digest is fused
(R382, R383). -/
def fwSignatureOk (b : List Byte) : Bool :=
  shake256 (Config.fwKey b) == Config.fusedKeyDigest &&
  xmssVerify 20 (Config.fwKey b) (shake256 (Config.fwBody b)) (Config.fwSignature b)

/-- Whether an image passes the checks of R382 against a fused counter: 0, or the reason of FWSTAT (R448). -/
def fwCheck (fused : Nat) (b : List Byte) : Nat :=
  if !fwSignatureOk b then 1 else if Config.fwVersion b < fused then 2 else 0

/-- The positions and states of a die's four tiles that are not for placement (R17): position picks from what is left.
DESIGN CHOICE (log 5). -/
def oddTiles (die : Nat) : Nat → List Nat → List (Nat × TileState)
  | 0, _ => []
  | n + 1, left =>
    let v := Config.tileState (4 * die + n)
    let i := v / 2 % left.length
    (left.getD i 0, if v % 2 = 0 then .spare else .defective) :: oddTiles die n (left.eraseIdx i)

/-- The states that the tile self-test records (R17, R387 step 3). -/
def State.recordTiles (s : State) : State :=
  (List.range 8).foldl (fun s die =>
    (oddTiles die 4 (List.range 144)).foldl (fun s q =>
      s.updTile (die * 144 + q.1) (fun x => { x with state := q.2 })) s) s

/-- BOOT (R382, R387 steps 1 to 4): the first image slot whose image passes its checks runs, and the part is ready; with
neither, it never is. A die that has no spare then asks for service (R398). -/
def execBoot (s : State) : Out :=
  if s.dev.ready then .next s
  else
    match [0, 1].find? (fun n => fwCheck s.dev.fused (Config.firmwareSlot n) == 0) with
    | none => .next s
    | some n =>
      .next ((List.range 8).foldl State.checkSpares
        (s.recordTiles.updDev (fun d => { d with ready := true, fwImage := Config.firmwareSlot n })))

/-- SELF_TEST (R396): a failed test of an unplaced enabled tile or a spare writes a severity-0 record, whose code the spec
does not give: it is free. -/
def execSelfTest (failed : List Nat) (s : State) : Out :=
  let tested (t : Nat) : Bool :=
    let x := s.tile t
    decide (t < 1152) && ((x.state == .enabled && x.anchor.isNone) || x.state == .spare)
  .next ((failed.filter tested).foldl (fun s t =>
    let f := s.takeFree
    (f.2.report { severity := 0, unit := 13, code := f.1.fld 7 0, tile := t }).serviceCause 1) s)

/-! ### Update (R448, R449) -/

/-- The new image's bytes, from VI 0's memory. -/
def State.readFirmware (s : State) : Res (List Byte) × State := s.feRead 0 s.dev.fwaddr s.dev.fwlen.toNat

/-- STANDBY_IMAGE_CHECKED (R449 steps 1 to 3): the image is refused, or it runs as the canary and the canary queues pass to
it, with their commands that wait on engines or on device time; one that occupies a core ends on the active complex. An image that cannot be read has no signature that verifies. -/
def execStandbyImageChecked (s : State) : Out :=
  if s.dev.fwstate != .verifying then .next s
  else
    match s.readFirmware with
    | (.error f, s) =>
      .next ((s.reportFail f { unit := 13, code := f.code, loc := f.loc, detail := f.detail }).fwFinal .refused 1)
    | (.ok b, s) =>
      let why := fwCheck s.dev.fused b
      if why != 0 then .next (s.fwFinal .refused why)
      else
        let s := s.updDev (fun d => { d with fwstate := .canary, fwNew := b, fwSince := s.clk.cycle })
        .next { s with
          vis := s.vis.mapVals (fun vi v =>
            if s.dev.fwcanary.getLsbD vi then { v with sq := v.sq.mapVals (fun _ q => { q with canary := true }) } else v)
          fe := s.fe.map (fun f => if s.dev.fwcanary.getLsbD f.e.vi && !f.wait.onCore then { f with canary := true } else f) }

/-- Length of the canary window in cycles (R448). -/
def State.canaryWindow (s : State) : Nat := usCycles (1000 * s.dev.fwctl.fld 31 0)

/-- CANARY_WINDOW_END (R449 steps 4 and 5): the window ends and the update commits; while FWSTAT is 3, the packet boundary at
which the standby takes every queue. -/
def execCanaryWindowEnd (s : State) : Out :=
  if s.dev.fwstate = .committing then .next s.fwCommit
  else if s.dev.fwSince + s.canaryWindow ≤ s.clk.cycle then .next s.fwDecide
  else .next s

/-- HEARTBEAT_LOST (R449 step 4). -/
def execHeartbeatLost (s : State) : Out := .next (s.fwRevert 3)

/-- CANARY_COMMAND_HUNG (R449 step 4): a canary command has been in front-end execution for 100 ms. -/
def execCanaryCommandHung (s : State) : Out :=
  if s.fe.any (fun f => f.canary && f.wait.onCore && decide (f.started + usCycles 100000 ≤ s.clk.cycle)) then
    .next (s.fwRevert 4)
  else .next s

/-- STANDBY_ASSERTION (R449 step 4). -/
def execStandbyAssertion (s : State) : Out := .next (s.fwRevert 5)

/-- A queue as the standby's copy of the state table shows it (R301, R450): its position, and whether a command of it had been
started; a queue that waited for a command the copy does not show is disabled. DESIGN CHOICE (log 96). -/
def RingQ.takenOver (q : RingQ) (head : Nat) (busy : Bool) : RingQ :=
  if q.canary then q
  else { q with head := head % q.size, busy := busy, stop := q.stop && busy, en := q.en && (!q.stop || busy) }

/-- A VI with the RCBs of a copy, and the slice that its tenant RCB gives it (R119, R306). -/
def Vi.withRcbs (v : Vi) (l : KMap Rcb) : Vi :=
  let slice := match l.vals.find? (fun r => r.level == 0) with
    | some r => r.field 4
    | none => 0
  { v with
    rcbs := l, slice := slice
    sliceOld := if slice = v.slice then v.sliceOld else (v.invCount, v.slice) :: v.sliceOld }

/-- A placement that the copy shows too stands as the copy has it: save banks that it got since leave it (R312).
DESIGN CHOICE (log 96). -/
def State.backTo (s : State) (pk : Nat) (q : Placement) : State :=
  let gone : BitVec 12 := match s.places.find? pk with
    | some p => p.save &&& ~~~q.save
    | none => 0
  (q.tiles.foldl (fun s t =>
    ((List.range 12).filter gone.getLsbD).foldl (fun s b => (s.emptyWay t b).releaseBank t b) s) s).updPlace pk
    (fun p => { q with hamper := p.hamper })

/-- A placement that the copy shows and that has gone since comes back, empty, where its tiles are still there; else it is given up
with its charge and its routes. DESIGN CHOICE (log 96). -/
def State.comeBack (s : State) (q : Placement) : State :=
  let there (t : Nat) : Bool :=
    (s.tile t).state == .enabled && ((s.tile t).anchor.isNone || (s.tile t).anchor == some q.anchor)
  if q.tiles.all there then s.enterPlace q (match s.imageOf q with | some im => im.routes | none => [])
  else (s.dropRoutes q).uncharge q.vi q.rcb q.charged

/-- The registrations and placements of a copy of the state table (R301, R450): operators that it does not show are unplaced and
their rows retired, and the counts of a job's collectives go on. DESIGN CHOICE (log 96). -/
def State.retable (s : State) (c : TableCopy) : State :=
  let stays (k : Nat) (p : Placement) : Bool := match c.places.find? k with
    | some q => q.order == p.order
    | none => false
  let s := (s.places.items.filter (fun q => !stays q.1 q.2)).foldl (fun s q => s.discardOp q.1) s
  let s : State := { s with
    ops := c.ops, jobs := c.jobs.mapVals (fun k j => { j with counts := (s.job k).counts })
    vis := s.vis.mapVals (fun vi v => v.withRcbs (c.rcbs.getD vi {})) }
  let s := c.places.items.foldl (fun s q => if (s.places.find? q.1).isSome then s.backTo q.1 q.2 else s.comeBack q.2) s
  c.rcbs.items.foldl (fun s v => v.2.keys.foldl (fun s i => s.writeUsage v.1 i) s) s

/-- COMPLEX_TAKEOVER (R450): the standby is the active complex from now on, with its last copy of the state table: every command that
the copy shows as started without a completion entry completes with status 10, once its completion queue has room (R371). What the
canary serves goes on. DESIGN CHOICE (log 96). -/
def execComplexTakeover (s : State) : Out :=
  if !s.dev.ready then .next s
  else
    let own := s.copy.fe.filter (fun f => !((s.vi f.e.vi).sq.getD f.e.sq {}).canary)
    let queue (vi sq : Nat) (q : RingQ) : RingQ :=
      q.takenOver (s.copy.heads.getD (16 * vi + sq) 0) (own.any (fun f => f.e.vi == vi && f.e.sq == sq))
    let s := (s.updDev (fun d => { d with activeB := !d.activeB })).retable s.copy
    let s : State := { s with
      fe := s.fe.filter (fun f => f.canary) ++ own
      vis := s.vis.mapVals (fun vi v => { v with sq := v.sq.mapVals (queue vi) }) }
    .next (own.foldl (fun s f => s.feStop f 10) s).copyTable

end Sys2Proof.Machine
end

