-- ==== Sys2Proof/Machine/HostEvents.lean ====
section
/-! DEFINITION. What happens at the host ports (R147, R367 to R376, R386, R440 to R442): messages, invalidations, accesses
through BAR2, completion flags and their loss, ports that go down, and power states. -/

namespace Sys2Proof.Machine

/-! ### MSI-X (R371) -/

/-- MSIX_MESSAGE (R148, R371): at most one message per microsecond and vector, on the port of the entry's queue; a masked vector
stays pending. -/
def execMsixMessage (vi vec : Nat) (s : State) : Out :=
  let v := s.vi vi
  match v.vecPend.find? vec with
  | none => .next s
  | some (_, port) =>
    let early := match v.vecLast.find? vec with
      | some c => decide (s.clk.cycle < c + usCycles 1)
      | none => false
    if v.masked vec || early then .next s
    else
      let s := s.updVi vi (fun v => { v with vecPend := v.vecPend.erase vec, vecLast := v.vecLast.set vec s.clk.cycle })
      .next { s with outs := s.outs ++ [.msix vi vec port] }

/-! ### Invalidation (R375) -/

/-- Whether a stream still uses an entry of a VI's slice that is no longer the present one, or lies no longer in the slice (R119,
R127, R145, R375). -/
def State.usesOld (s : State) (vi : Nat) (x : Stream) : Bool :=
  hVi x.w1 == vi &&
  (match x.entry with
   | some e => e != s.plainEntry x.w1 || decide ((s.vi vi).slice ≤ hIndex x.w1)
   | none => false)

/-- Whether some accepted stream still uses such an entry. -/
def State.oldInUse (s : State) (vi : Nat) : Bool :=
  s.tiles.vals.any (fun t => t.ags.vals.any (fun a =>
    (match a.run with
     | some r => r.err == 0 && s.usesOld vi r.s
     | none => false) ||
    a.queue.any (fun i => match i with
      | .stream x => s.usesOld vi x
      | .marker .. => false)))

/-- Whether an access of a VI that has been translated is still to be performed: a posted write at an ordering point, or a held
store of a block in progress (R235, R375). -/
def State.translatedHeld (s : State) (vi : Nat) : Bool :=
  (s.vi vi).ord.anyP (fun _ o => o.writes.any (fun w => !w.keys.isEmpty)) ||
  s.tiles.anyP (fun _ x =>
    match x.core.run with
    | some r =>
      (match s.places.find? (x.core.insts.getD r.inst default).pk with
       | some p => p.vi == vi
       | none => false) &&
      r.stores.any (fun p => match p with
        | .store _ _ a .. => decide (a < 2 ^ 52)
        | .amo _ _ a .. => decide (a < 2 ^ 52)
        | .fenRel .. => false
        | .fenAcq .. => false)
    | none => false)

/-- A VI without the translations and windows older than request n (R113, R376). -/
def Vi.dropTranslations (v : Vi) (n : Nat) : Vi :=
  { v with tlb := v.tlb.filter (fun e => decide (n < e.age)), windOld := v.windOld.filter (fun o => decide (n < o.1)) }

/-- A VI without the handle entries and slice sizes older than request n (R119). -/
def Vi.dropHandles (v : Vi) (n : Nat) : Vi :=
  { v with hOld := v.hOld.mapVals (fun _ l => l.filter (fun o => decide (n < o.1)))
           sliceOld := v.sliceOld.filter (fun o => decide (n < o.1))
           hUsed := (v.handles.items.filter (fun e => decide (e.1 < v.slice) && e.2.valid)).length }

/-- INVALIDATION_COMPLETE (R375, R385): once every access that used what it drops has been performed; requests of one VI
complete in the order written; a device-side request is answered, once its reply is not held (R52), and does not change
INVDONE. -/
def execInvalidationComplete (vi : Nat) (s : State) : Out :=
  match (s.vi vi).inv with
  | [] => .next s
  | q :: rest =>
    if (q.sysc.map s.replyHeld).getD false || (decide (2 ≤ q.kind) && s.oldInUse vi) || (q.kind % 2 == 1 && s.translatedHeld vi) then .next s
    else
      let s := s.updVi vi (fun v =>
        let v := { v with inv := rest, invdone := if q.sysc.isSome then v.invdone else BitVec.ofNat 32 q.seq }
        let v := if q.kind % 2 = 1 then v.dropTranslations q.n else v
        if q.kind ≥ 2 then v.dropHandles q.n else v)
      let s := match (s.vi vi).rcbs.vals.find? (fun r => r.level == 0) with
        | some r => if q.kind ≥ 2 then s.writeUsage vi r.index else s
        | none => s
      match q.sysc with
      | some x => .next (s.syscAnswer x (wd q.seq))
      | none => .next s

/-! ### BAR2 (R147, R372, R440, R442) -/

/-- Device-virtual address of an offset in a VI's aperture (R372). -/
def State.aperture (s : State) (vi off : Nat) : Nat := (s.vi vi).apbase.toNat + off

/-- The record of a failed BAR2 access (R372). -/
def State.barFail (s : State) (vi port : Nat) (f : Fail) : State :=
  s.reportFail f { vi := vi, unit := 14, code := f.code, loc := f.loc, detail := f.detail, count := s.cecAt 14 port }

/-- A poisoned write is not performed; one that is a flag is discarded with those that wait, as after a lost
acknowledgement (R440, R442). The number of the AER bit of a poisoned TLP is 12. -/
def State.barPoison (s : State) (r : BarAccess) : State :=
  let s := s.report { vi := r.vi, unit := 14, code := 0x0B, detail := 12 + r.port % 2 * 2 ^ 8, count := s.cecAt 14 r.port }
  if r.flag then s.updOrd r.vi r.port (fun o =>
    { o with writes := o.writes.filter (fun x => !x.flag), lost := true,
             discarded := o.discarded + 1 + (o.writes.filter (·.flag)).length })
  else s

/-- A poisoned write of a BAR0 register is not performed (R440); one of an SQDB register is a completion flag (R373). -/
def State.regPoison (s : State) (vi port off : Nat) : State :=
  if s.regServed { vi := vi, port := port } then
    s.barPoison { vi := vi, port := port, off := off, write := true, len := 8, data := [],
                  flag := decide (0x1000 ≤ off) && decide (off < 0x1080), poison := true }
  else s

/-- A posted write (R147, R372): checked, then on its way to its home die, or a completion flag. -/
def State.barWrite (s : State) (r : BarAccess) : State :=
  if r.poison then s.barPoison r
  else if r.flag && (s.ordAt r.vi r.port).lost then s.updOrd r.vi r.port (fun o => { o with discarded := o.discarded + 1 })
  else
    match s.resolveDv false none r.vi (s.aperture r.vi r.off) r.data.length false true with
    | (.error f, s) => s.barFail r.vi r.port f
    | (.ok ks, s) =>
      let w : InWrite :=
        { keys := ks, data := r.data, die := homeDie ((ks.head?).getD 0), flag := r.flag, since := s.clk.cycle }
      if r.flag then s.flagIn r.vi r.port w
      else s.updOrd r.vi r.port (fun o => { o with writes := o.writes ++ [w] })

/-- A read (R147, R372, R442): it waits for every earlier write of its VI on the port; a failed one answers with all bytes
0xFF. -/
def State.barRead (s : State) (r : BarAccess) : State :=
  let answer (s : State) (b : List Byte) : State := { s with outs := s.outs ++ [.readData r.vi r.port b] }
  if (s.ordAt r.vi r.port).lost then { s with outs := s.outs ++ [.completerAbort r.vi r.port] }
  else if !(s.ordAt r.vi r.port).writes.isEmpty then s
  else
    let ones := List.replicate r.len 0xFF#8
    match s.resolveDv false none r.vi (s.aperture r.vi r.off) r.len true false with
    | (.error f, s) => answer (s.barFail r.vi r.port f) ones
    | (.ok ks, s) =>
      if s.badRead ks then answer (s.barFail r.vi r.port ⟨0x1D, wd (s.aperture r.vi r.off), 0⟩) ones
      else answer s (s.readKeys ks)

/-- BAR2_ACCESS (R372): through steps 2 to 5 of R108 in the VI's space; a disabled function and a port that is down serve
none, and the aperture is 256 GiB (R369): an access that leaves it is not served (log 109). DESIGN CHOICE (log 109). -/
def execBar2Access (r : BarAccess) (s : State) : Out :=
  if !s.regServed { vi := r.vi, port := r.port } || decide (2 ^ 38 < r.off + (if r.write then r.data.length else r.len)) then .next s
  else if r.write then .next (s.barWrite r)
  else .next (s.barRead r)

/-- A read of a BAR0 register (R147, R369, R442): it waits for every earlier write of its VI on the port, and it is
aborted after a lost acknowledgement. -/
def State.regRead (s : State) (vi port off : Nat) : State :=
  if !s.regServed { vi := vi, port := port } then s
  else if (s.ordAt vi port).lost then { s with outs := s.outs ++ [.completerAbort vi port] }
  else if !(s.ordAt vi port).writes.isEmpty then s
  else { s with outs := s.outs ++ [.readData vi port (leBytes 8 (s.readReg vi port off).toNat)] }

/-- COMPLETION_FLAG_FORWARD (R147): the oldest flag is performed, part by part (R131), once no earlier write of its VI on the port is
outstanding; none is after a lost acknowledgement (R442). -/
def execCompletionFlagForward (port vi : Nat) (s : State) : Out :=
  match (s.ordAt vi port).writes with
  | w :: rest =>
    if !w.flag then .next s
    else if (s.ordAt vi port).lost then
      .next (s.updOrd vi port (fun o => { o with writes := rest, discarded := o.discarded + 1 }))
    else .next (s.performAt vi port 0 w)
  | [] => .next s

/-- A home die performs a part of write idx, and acknowledges it after the last (R131, R147); writes to one die are performed in arrival order, behind a flag to it
that waits too (R133). -/
def State.ackWrite (s : State) (port vi idx : Nat) : State :=
  let l := (s.ordAt vi port).writes
  match l[idx]? with
  | none => s
  | some w =>
    if w.flag || (l.take idx).any (fun x => x.sqdb.isNone && x.die == w.die) then s
    else s.performAt vi port idx w

/-- ACK_LOST (R441, R442): a write whose acknowledgement is 100 µs late counts as lost; whether it was performed is free. The
flags that wait behind it are discarded. -/
def execAckLost (port vi : Nat) (s : State) : Out :=
  match (s.ordAt vi port).writes.zipIdx.find? (fun w => !w.1.flag && decide (w.1.since + usCycles 100 ≤ s.clk.cycle)) with
  | none => .next s
  | some (w, i) =>
    let c := s.pick 2
    let s := if c.1 = 1 then c.2.performIn vi port w else c.2
    let s := s.report { severity := 3, unit := 18, code := 0x0E, detail := w.die + port % 2 * 2 ^ 8 + vi * 2 ^ 16,
                         count := s.cecAt 18 w.die }
    .next (s.updOrd vi port (fun o =>
      let l := listDrop o.writes i
      { writes := l.filter (fun x => !x.flag), lost := true, discarded := o.discarded + (l.filter (·.flag)).length,
        die := w.die }))

/-! ### Host memory and ports (R440) -/

/-- The read of a queue's next entry from host memory fails with an AER error (R440); the queue reads no further entry. -/
def State.hostReadError (s : State) (vi sq bit : Nat) : State :=
  let q := (s.vi vi).sq.getD sq {}
  if !s.queueReady vi sq || q.inDevice then s
  else
    (s.updVi vi (fun v => { v with sq := v.sq.upd sq {} (fun q => { q with failed := true }) })).report
      { vi := vi, unit := 14, code := 0x0B, detail := bit % 2 ^ 8 + q.port % 2 * 2 ^ 8, count := s.cecAt 14 q.port }

/-- HOST_READ_TIMEOUT (R440): no answer within 50 ms. The number of the AER bit of a completion time-out is 14. -/
def execHostReadTimeout (vi sq : Nat) (s : State) : Out := .next (s.hostReadError vi sq 14)

/-- Whether a queue is read or written through a port. -/
def RingQ.onPort (q : RingQ) (port : Nat) : Bool := q.en && !q.inDevice && q.port == port

/-- A queue whose port is down: disabled, once its command in progress has completed. DEDUCED (log 91). -/
def RingQ.portDown (port : Nat) (q : RingQ) : RingQ :=
  if q.onPort port then (if q.busy then { q with stop := true } else { q with en := false }) else q

/-- HOST_PORT_DOWN (R440): queues in host memory of the port are disabled, with one record per VI; with no such queue one
record of the device. The number of the AER bit of a port that is down is 5. DEDUCED (log 91). -/
def execHostPortDown (port : Nat) (s : State) : Out :=
  if s.dev.portsDown.contains port then .next s
  else
    let hit (v : Vi) : Bool := v.sq.vals.any (·.onPort port) || v.cq.vals.any (·.onPort port) || v.errq.onPort port
    let vis := (s.vis.items.filter (fun v => hit v.2)).map Prod.fst
    let note (s : State) (vi : Nat) : State :=
      s.report { vi := vi, severity := 3, unit := 14, code := 0x0B, detail := 5 + port % 2 * 2 ^ 8, count := s.cecAt 14 port }
    let s := if vis.isEmpty then note s 0 else vis.foldl note s
    let s := s.updDev (fun d => { d with portsDown := port :: d.portsDown, logq := d.logq.portDown port })
    let off (v : Vi) : Vi :=
      { v with sq := v.sq.mapVals (fun _ q => q.portDown port), cq := v.cq.mapVals (fun _ q => q.portDown port),
               errq := v.errq.portDown port }
    .next { s with vis := s.vis.mapVals (fun _ v => off v) }

/-! ### Power (R386) -/

/-- POWER_STATE_CHANGE (R386): in D3hot a function's queues start no command, and the physical function's stop every VI's;
back in D0 they go on where they stopped. -/
def execPowerStateChange (vi : Nat) (d3 : Bool) (s : State) : Out := .next (s.updVi vi (fun v => { v with d3 := d3 }))

end Sys2Proof.Machine
end

