-- ==== Sys2Proof/Machine/LinkTime.lean ====
section
/-! DEFINITION. The Renulun and attic links (R378, R379, R444 to R446), device time (R3, R10, R380, R381, R447) and
throttling (R386). -/

namespace Sys2Proof.Machine

/-! ### Renulun links -/

/-- LINK_TRAINED (R379): a port trains only while its LNKCTL bit is set. -/
def execLinkTrained (port : Nat) (s : State) : Out :=
  if port < 16 ∧ s.dev.lnkctl.getLsbD port then
    .next (s.updDev (fun d => { d with lnkstat := d.lnkstat ||| BitVec.ofNat 16 (2 ^ port) }))
  else .next s

/-- The locations of the group of a contribution: those that a command which waits for it started with, else the job's
(R306). -/
def State.locsOf (s : State) (c : Contribution) : List Nat :=
  match s.cmds.vals.find? (fun rc =>
    isColl rc.c.code && rc.vi == c.vi && rc.job == c.job && rc.c.w0.fld 31 16 == c.group && rc.k == c.k &&
    rc.c.w4.fld 63 48 == c.p && rc.res.isNone) with
  | some rc => rc.locs
  | none => ((s.job (jobKey c.vi c.job)).groups.find? c.group).getD []

/-- Contributions of a package's parties that a lost packet may have carried are lost or not, each by a free bit (R445). -/
def State.loseContributions (s : State) (pkg : Nat) : State :=
  let go (a : List Contribution × State) (c : Contribution) : List Contribution × State :=
    if !c.lost && pkg != s.dev.pkgid && (s.locsOf c).getD c.idx 0 / 256 == pkg then
      let k := a.2.pick 2
      (a.1 ++ [{ c with lost := k.1 == 1 }], k.2)
    else (a.1 ++ [c], a.2)
  let r := s.pool.foldl go ([], s)
  { r.2 with pool := r.1 }

/-- The moves among the next 64 whose packets are in flight: any of them, by a free word. DESIGN CHOICE (log 95). -/
def State.inFlight (s : State) : List Nat × State :=
  let f := s.takeFree
  (((List.range 64).filter f.1.getLsbD).map (fun i => s.sched.moves + 1 + i), f.2)

/-- Packets to or from a package are lost: the accesses to it that they belong to fail with 0x0D (R445).
DESIGN CHOICE (log 95). -/
def State.losePackets (s : State) (pkg : Nat) : State :=
  let m := s.inFlight
  let live (l : List (Nat × Nat)) : List (Nat × Nat) := l.filter (fun x => decide (s.sched.moves ≤ x.2))
  (m.2.updDev (fun d =>
    { d with dropMarks := m.1.map (fun n => (pkg, n)) ++ live d.dropMarks })).loseContributions pkg

/-- LINK_TRAINING_LOST (R446). Packets in flight on the port fail under R445; the packages it leads to are those whose route
it was. -/
def execLinkTrainingLost (port : Nat) (s : State) : Out :=
  if port < 16 ∧ s.dev.lnkstat.getLsbD port then
    let routed (d : Dev) (p : Nat) : Bool :=
      match (List.range 16).find? (fun i => (d.rtbl.getD p 0 &&& d.lnkstat).getLsbD i) with
      | some i => i == port
      | none => false
    let pkgs := (List.range 256).filter (routed s.dev)
    let s := s.updDev (fun d => { d with lnkstat := d.lnkstat &&& ~~~ BitVec.ofNat 16 (2 ^ port) })
    let s := (s.linkRec 0 port 0 {}).serviceCause 4
    .next (pkgs.foldl State.losePackets s)
  else .next s

/-- FLIT_DROP (R445): its record names no VI, for a flit may carry transactions of several (log 100). DESIGN CHOICE (log 95).
DEDUCED (log 100). -/
def execFlitDrop (port pkg : Nat) (s : State) : Out := .next ((s.linkRec 1 port pkg {}).losePackets pkg)

/-- REMOTE_TIMEOUT (R445): a remote access with no response fails as a dropped one. -/
def execRemoteTimeout (port pkg : Nat) (s : State) : Out := .next ((s.linkRec 1 port pkg {}).losePackets pkg)

/-- ATTIC_LINK_DOWN (R444): every later attic transfer fails until reset. -/
def execAtticLinkDown (link : Nat) (s : State) : Out :=
  if s.dev.linksDown.contains link then .next s
  else
    let s := s.updDev (fun d => { d with linksDown := d.linksDown ++ [link] })
    .next ((s.report { severity := 3, unit := 15, code := 0x0C, detail := link % 4, count := s.cecAt 15 link }).serviceCause 4)

/-- Transfers in flight on an attic link meet poison or a time-out (R444). DESIGN CHOICE (log 95). -/
def State.atticTimeout (s : State) (link : Nat) : State :=
  let m := s.inFlight
  let live (l : List (Nat × Nat)) : List (Nat × Nat) := l.filter (fun x => decide (s.sched.moves ≤ x.2))
  m.2.updDev (fun d => { d with atticMarks := m.1.map (fun n => (link, n)) ++ live d.atticMarks })

/-! ### Device time -/

/-- Parts of a time unit that one cycle advances: 16,000,000,000 / 940,000,000 units in parts of 1/470,000. -/
def cycleParts : Nat := 8000000

/-- Most parts that a slew takes from or adds to a cycle: 500 ppm (R381). -/
def slewParts : Nat := 4000

/-- n cycles of the device clock pass (R3, R10). How much of the slew they absorb is free up to 500 ppm (R381); a free-running
counter takes no correction (R380). -/
def State.tick (s : State) (n : Nat) : State :=
  let lim := if s.dev.timesrc.fld 1 0 = 0 then 0 else min s.clk.slew.natAbs (slewParts * n)
  let c := s.pick (lim + 1)
  let neg := decide (s.clk.slew < 0)
  let parts := s.clk.frac + cycleParts * n
  let parts := if neg then parts - c.1 else parts + c.1
  let k := s.clk
  { c.2 with clk :=
      { cycle := k.cycle + n, time := k.time + wd (parts / 470000), frac := parts % 470000,
        slew := if neg then k.slew + c.1 else k.slew - c.1 } }

/-- Whether the link time source is selected (R380). -/
def State.linkTime (s : State) : Bool := s.dev.timesrc.fld 1 0 == 2

/-- A correction of the slave, in units of 1/16 ns (R380, R381). -/
def State.correct (s : State) (off : Int) : State :=
  (s.slewTime off).updDev (fun d => { d with timeLocked := decide (off.natAbs < 800) })

/-- The slave sends a Delay_Req; its stamp is the device time at the port (R380). -/
def State.ptpDelayReq (s : State) : State :=
  if s.linkTime then s.updDev (fun d => { d with ptpT3 := s.clk.time }) else s

/-- PTP_MESSAGE (R380): two-step Sync, whose stamp is the device time at the port, its Follow_Up, and the Delay_Resp that
completes an exchange. The offset of the slave is half the difference of the two ways; it is taken away by slew. -/
def execPtpMessage (m : PtpMsg) (s : State) : Out :=
  if !s.linkTime then .next s
  else
    match m with
    | .sync => .next (s.updDev (fun d => { d with ptpT2 := s.clk.time, lastSync := s.clk.cycle }))
    | .followUp t1 => .next (s.updDev (fun d => { d with ptpT1 := t1 }))
    | .delayResp t4 =>
      if s.dev.timeLost then .next s
      else
        let off := ((s.dev.ptpT2 - s.dev.ptpT1).toInt - (t4 - s.dev.ptpT3).toInt) / 2
        .next (s.correct (-off))

/-- TIME_SOURCE_LOST (R447): no Sync for 3 s. -/
def execTimeSourceLost (s : State) : Out :=
  if !s.linkTime || s.dev.timeLost || decide (s.clk.cycle < s.dev.lastSync + usCycles 3000000) then .next s
  else
    let s := s.updDev (fun d => { d with timeLost := true, timeLocked := false })
    let s := { s with clk := { s.clk with slew := 0 } }
    .next (s.report { severity := 0, unit := 17, code := 0x0F, detail := 1 })

/-- The offset field of the re-lock record (R438): nanoseconds in 24 bits of two's complement, saturated. -/
def offsetField (off : Int) : Nat :=
  let ns := off / 16
  (min (2 ^ 23 - 1) (max (-(2 ^ 23)) ns) % 2 ^ 24).toNat

/-- TIME_RELOCK (R447): `off` is what device time must gain, in units of 1/16 ns. More than 1 ms is a forward step, anything
else a slew. -/
def execTimeRelock (off : Int) (s : State) : Out :=
  if !s.linkTime || !s.dev.timeLost then .next s
  else
    let s := s.updDev (fun d => { d with timeLost := false, lastSync := s.clk.cycle })
    let s := if off > 16000000 then (s.stepTime off.toNat).updDev (fun d => { d with timeLocked := true }) else s.correct off
    .next (s.report { severity := 0, unit := 17, code := 0x0F, detail := offsetField off * 2 ^ 8 })

/-! ### Power -/

/-- THROTTLE (R386): the power measured over 1 ms exceeds PCAP. -/
def execThrottle (watts : Nat) (s : State) : Out :=
  if s.dev.pcap < watts then .next (s.updDev (fun d => { d with throttle := true })) else .next s

/-- POWER_BELOW_CAP (R386): the class 0 work that waits has seen the throttling (R429). -/
def execPowerBelowCap (watts : Nat) (s : State) : Out :=
  if watts < s.dev.pcap then
    .next ((if s.dev.throttle then s.noteCause (fun _ _ => true) 16 else s).updDev (fun d => { d with throttle := false }))
  else .next s

end Sys2Proof.Machine
end

