-- ==== Sys2Proof/Machine/TileArith.lean ====
section
/-! DEFINITION. Integer arithmetic of the tile core (R237, R238). -/

namespace Sys2Proof.Machine

/-- Signed quotient truncated toward zero, with the edge cases of R237. -/
def sdiv64 (a b : Word) : Word :=
  if b = 0 then 0xFFFFFFFFFFFFFFFF#64 else BitVec.ofInt 64 (Int.tdiv a.toInt b.toInt)

/-- Signed remainder with the sign of the dividend and the edge cases of R237. -/
def srem64 (a b : Word) : Word := if b = 0 then a else BitVec.ofInt 64 (Int.tmod a.toInt b.toInt)

/-- Leading zeros of a number below 2^n. -/
def leadingZeros (n w : Nat) : Nat := if w = 0 then n else n - 1 - Nat.log2 w

/-- Set bits of a number below 2^n. -/
def popCount (n w : Nat) : Nat := ((List.range n).filter (bitOf w)).length

def execAdd (d a b : Nat) (s : State) : Out := regOp d a b (fun x y => x + y) s
def execSub (d a b : Nat) (s : State) : Out := regOp d a b (fun x y => x - y) s
def execMul (d a b : Nat) (s : State) : Out := regOp d a b (fun x y => x * y) s
/-- MULH: bits [127:64] of the signed product (R237). -/
def execMulh (d a b : Nat) (s : State) : Out :=
  regOp d a b (fun x y => BitVec.ofInt 64 (x.toInt * y.toInt / 2 ^ 64)) s
/-- MULHU: bits [127:64] of the unsigned product (R237). -/
def execMulhu (d a b : Nat) (s : State) : Out :=
  regOp d a b (fun x y => BitVec.ofNat 64 (x.toNat * y.toNat / 2 ^ 64)) s
def execDiv (d a b : Nat) (s : State) : Out := regOp d a b sdiv64 s
def execDivu (d a b : Nat) (s : State) : Out :=
  regOp d a b (fun x y => if y = 0 then 0xFFFFFFFFFFFFFFFF#64 else BitVec.ofNat 64 (x.toNat / y.toNat)) s
def execRem (d a b : Nat) (s : State) : Out := regOp d a b srem64 s
def execRemu (d a b : Nat) (s : State) : Out :=
  regOp d a b (fun x y => if y = 0 then x else BitVec.ofNat 64 (x.toNat % y.toNat)) s
def execAnd (d a b : Nat) (s : State) : Out := regOp d a b (fun x y => x &&& y) s
def execOr (d a b : Nat) (s : State) : Out := regOp d a b (fun x y => x ||| y) s
def execXor (d a b : Nat) (s : State) : Out := regOp d a b (fun x y => x ^^^ y) s
def execAndn (d a b : Nat) (s : State) : Out := regOp d a b (fun x y => x &&& ~~~ y) s
/-- SHL: 0 for counts of 64 or more (R237). -/
def execShl (d a b : Nat) (s : State) : Out := regOp d a b (fun x y => if y.toNat ≥ 64 then 0 else x <<< y.toNat) s
def execShr (d a b : Nat) (s : State) : Out := regOp d a b (fun x y => if y.toNat ≥ 64 then 0 else x >>> y.toNat) s
/-- SAR: the count is Min(n, 63) (R237). -/
def execSar (d a b : Nat) (s : State) : Out := regOp d a b (fun x y => x.sshiftRight (min y.toNat 63)) s
def execRot (d a b : Nat) (s : State) : Out := regOp d a b (fun x y => x.rotateLeft (y.toNat % 64)) s
def execClz (d a : Nat) (s : State) : Out := regOp d a 0 (fun x _ => wd (leadingZeros 64 x.toNat)) s
def execPopc (d a : Nat) (s : State) : Out := regOp d a 0 (fun x _ => wd (popCount 64 x.toNat)) s
def execCseq (d a b : Nat) (s : State) : Out := regOp d a b (fun x y => boolWord (x == y)) s
def execCsne (d a b : Nat) (s : State) : Out := regOp d a b (fun x y => boolWord (x != y)) s
def execCslt (d a b : Nat) (s : State) : Out := regOp d a b (fun x y => boolWord (x.slt y)) s
def execCsle (d a b : Nat) (s : State) : Out := regOp d a b (fun x y => boolWord (x.sle y)) s
def execCsltu (d a b : Nat) (s : State) : Out := regOp d a b (fun x y => boolWord (x.ult y)) s
def execCsleu (d a b : Nat) (s : State) : Out := regOp d a b (fun x y => boolWord (x.ule y)) s
/-- ADDS: ra + (rb << s) (R237). -/
def execAdds (d a b n : Nat) (s : State) : Out := regOp d a b (fun x y => x + (y <<< n)) s
def execMin (d a b : Nat) (s : State) : Out := regOp d a b (fun x y => if y.slt x then y else x) s
def execMax (d a b : Nat) (s : State) : Out := regOp d a b (fun x y => if x.slt y then y else x) s

def execAddi (d a i : Nat) (s : State) : Out := immOp d a i (fun x m => x + m) s
def execAndi (d a i : Nat) (s : State) : Out := immOp d a i (fun x m => x &&& m) s
def execOri (d a i : Nat) (s : State) : Out := immOp d a i (fun x m => x ||| m) s
def execXori (d a i : Nat) (s : State) : Out := immOp d a i (fun x m => x ^^^ m) s
/-- The immediate shifts take a count of 0 to 63 (R170, R238). -/
def execShli (d a i : Nat) (s : State) : Out := regOp d a 0 (fun x _ => x <<< (i % 64)) s
def execShri (d a i : Nat) (s : State) : Out := regOp d a 0 (fun x _ => x >>> (i % 64)) s
def execSari (d a i : Nat) (s : State) : Out := regOp d a 0 (fun x _ => x.sshiftRight (i % 64)) s
def execCslti (d a i : Nat) (s : State) : Out := immOp d a i (fun x m => boolWord (x.slt m)) s
def execCseqi (d a i : Nat) (s : State) : Out := immOp d a i (fun x m => boolWord (x == m)) s
def execLi (d i : Nat) (s : State) : Out := immOp d 0 i (fun _ m => m) s

end Sys2Proof.Machine
end

