-- ==== Sys2Proof/Machine/TileBlock.lean ====
section
/-! DEFINITION. Uniform registers and block control of the tile core (R165, R239 to R242). -/

namespace Sys2Proof.Machine

/-- KLD (R239): traps in an instance without a set (R233). -/
def execKld (g k : Nat) (s : State) : Out :=
  withRun s (fun t r => if s.noSet t r then .next (s.trapHere t r 7) else .next (s.putReg t r g (s.uniform t r k)))

/-- KST (R239): the write takes place at commit. -/
def execKst (g k : Nat) (s : State) : Out :=
  withRun s (fun t r =>
    if s.noSet t r then .next (s.trapHere t r 7) else .next (s.holdEffect t r (.kst k (r.reg g))))

/-- KMOV (R239). -/
def execKmov (a b : Nat) (s : State) : Out :=
  withRun s (fun t r =>
    if s.noSet t r then .next (s.trapHere t r 7) else .next (s.holdEffect t r (.kst a (s.uniform t r b))))

/-- The conditions of format B (R169). -/
def condHolds (c : Nat) (v : Word) : Bool :=
  match c with
  | 0 => true
  | 1 => v == 0
  | 2 => v != 0
  | 3 => v.slt 0
  | 4 => !v.slt 0
  | 5 => (0 : Word).slt v
  | _ => v.sle 0

/-- SKIP (R240). -/
def execSkip (c g n : Nat) (s : State) : Out :=
  withRun s (fun t r =>
    if condHolds c (r.reg g) then .next (s.setRun t { r with pos := r.pos + 1 + n, pfx := none })
    else .next (s.advance t r))

/-- EXIT (R240): n is a signed word offset from the EXIT word (R169). -/
def execExit (c g n : Nat) (s : State) : Out :=
  withRun s (fun t r =>
    if condHolds c (r.reg g) then .next (s.commit t r (some ((r.word : Int) + signed 15 n).toNat))
    else .next (s.advance t r))

/-- END (R241). -/
def execEnd (s : State) : Out := withRun s (fun t r => .next (s.commit t r none))

/-- SNUL (R242). -/
def execSnul (l : Nat) (s : State) : Out := withRun s (fun t r => .next (s.produce t r l (fun r => s.advance t r)))

/-- GNUL (R242). -/
def execGnul (d : Nat) (s : State) : Out := withRun s (fun t r => .next (s.markReg t r d))

/-- PFX (R165): the prefix waits for the next word. -/
def execPfx (h : Nat) (s : State) : Out :=
  withRun s (fun t r => .next (s.setRun t { r with pos := r.pos + 1, pfx := some h }))

end Sys2Proof.Machine
end

