-- ==== Sys2Proof/Machine/Dispatch.lean ====
section
/-! DEFINITION. The dispatch of every instruction to its meaning. -/

namespace Sys2Proof.Machine

/-- Perform one instruction, command, register write or event. -/
def exec (i : Instr) (s : State) : Host.Outcome State Fault Refusal :=
  match i with
  | .add d a b => Sys2Proof.Machine.execAdd d a b s
  | .sub d a b => Sys2Proof.Machine.execSub d a b s
  | .mul d a b => Sys2Proof.Machine.execMul d a b s
  | .mulh d a b => Sys2Proof.Machine.execMulh d a b s
  | .mulhu d a b => Sys2Proof.Machine.execMulhu d a b s
  | .div d a b => Sys2Proof.Machine.execDiv d a b s
  | .divu d a b => Sys2Proof.Machine.execDivu d a b s
  | .rem d a b => Sys2Proof.Machine.execRem d a b s
  | .remu d a b => Sys2Proof.Machine.execRemu d a b s
  | .and d a b => Sys2Proof.Machine.execAnd d a b s
  | .or d a b => Sys2Proof.Machine.execOr d a b s
  | .xor d a b => Sys2Proof.Machine.execXor d a b s
  | .andn d a b => Sys2Proof.Machine.execAndn d a b s
  | .shl d a b => Sys2Proof.Machine.execShl d a b s
  | .shr d a b => Sys2Proof.Machine.execShr d a b s
  | .sar d a b => Sys2Proof.Machine.execSar d a b s
  | .rot d a b => Sys2Proof.Machine.execRot d a b s
  | .clz d a => Sys2Proof.Machine.execClz d a s
  | .popc d a => Sys2Proof.Machine.execPopc d a s
  | .cseq d a b => Sys2Proof.Machine.execCseq d a b s
  | .csne d a b => Sys2Proof.Machine.execCsne d a b s
  | .cslt d a b => Sys2Proof.Machine.execCslt d a b s
  | .csle d a b => Sys2Proof.Machine.execCsle d a b s
  | .csltu d a b => Sys2Proof.Machine.execCsltu d a b s
  | .csleu d a b => Sys2Proof.Machine.execCsleu d a b s
  | .adds d a b q0 => Sys2Proof.Machine.execAdds d a b q0 s
  | .min d a b => Sys2Proof.Machine.execMin d a b s
  | .max d a b => Sys2Proof.Machine.execMax d a b s
  | .addi d a imm => Sys2Proof.Machine.execAddi d a imm s
  | .andi d a imm => Sys2Proof.Machine.execAndi d a imm s
  | .ori d a imm => Sys2Proof.Machine.execOri d a imm s
  | .xori d a imm => Sys2Proof.Machine.execXori d a imm s
  | .shli d a imm => Sys2Proof.Machine.execShli d a imm s
  | .shri d a imm => Sys2Proof.Machine.execShri d a imm s
  | .sari d a imm => Sys2Proof.Machine.execSari d a imm s
  | .cslti d a imm => Sys2Proof.Machine.execCslti d a imm s
  | .cseqi d a imm => Sys2Proof.Machine.execCseqi d a imm s
  | .li d imm => Sys2Proof.Machine.execLi d imm s
  | .kld g k => Sys2Proof.Machine.execKld g k s
  | .kst g k => Sys2Proof.Machine.execKst g k s
  | .kmov a b => Sys2Proof.Machine.execKmov a b s
  | .skip c g n => Sys2Proof.Machine.execSkip c g n s
  | .exit c g n => Sys2Proof.Machine.execExit c g n s
  | .endI => Sys2Proof.Machine.execEnd s
  | .snul l => Sys2Proof.Machine.execSnul l s
  | .gnul d => Sys2Proof.Machine.execGnul d s
  | .pfx h => Sys2Proof.Machine.execPfx h s
  | .ldB d a l imm => Sys2Proof.Machine.execLdB d a l imm s
  | .ldH d a l imm => Sys2Proof.Machine.execLdH d a l imm s
  | .ldW d a l imm => Sys2Proof.Machine.execLdW d a l imm s
  | .ld d a l imm => Sys2Proof.Machine.execLd d a l imm s
  | .ldBu d a l imm => Sys2Proof.Machine.execLdBu d a l imm s
  | .ldHu d a l imm => Sys2Proof.Machine.execLdHu d a l imm s
  | .ldWu d a l imm => Sys2Proof.Machine.execLdWu d a l imm s
  | .stB q0 a l imm => Sys2Proof.Machine.execStB q0 a l imm s
  | .stH q0 a l imm => Sys2Proof.Machine.execStH q0 a l imm s
  | .stW q0 a l imm => Sys2Proof.Machine.execStW q0 a l imm s
  | .st q0 a l imm => Sys2Proof.Machine.execSt q0 a l imm s
  | .ldAcq d a l c imm => Sys2Proof.Machine.execLdAcq d a l c imm s
  | .stRel q0 a l c imm => Sys2Proof.Machine.execStRel q0 a l c imm s
  | .fenAcq l c => Sys2Proof.Machine.execFenAcq l c s
  | .fenRel l c => Sys2Proof.Machine.execFenRel l c s
  | .amoAdd q d a l b c w => Sys2Proof.Machine.execAmoAdd q d a l b c w s
  | .amoMin q d a l b c w => Sys2Proof.Machine.execAmoMin q d a l b c w s
  | .amoMax q d a l b c w => Sys2Proof.Machine.execAmoMax q d a l b c w s
  | .amoAnd q d a l b c w => Sys2Proof.Machine.execAmoAnd q d a l b c w s
  | .amoOr q d a l b c w => Sys2Proof.Machine.execAmoOr q d a l b c w s
  | .amoXor q d a l b c w => Sys2Proof.Machine.execAmoXor q d a l b c w s
  | .amoXchg q d a l b c w => Sys2Proof.Machine.execAmoXchg q d a l b c w s
  | .amoCas q d a l b c w => Sys2Proof.Machine.execAmoCas q d a l b c w s
  | .blkt t => Sys2Proof.Machine.execBlkt t s
  | .ublkt t => Sys2Proof.Machine.execUblkt t s
  | .send d a t => Sys2Proof.Machine.execSend d a t s
  | .sendBo d a b => Sys2Proof.Machine.execSendBo d a b s
  | .boset a t b => Sys2Proof.Machine.execBoset a t b s
  | .bosetClr a t b => Sys2Proof.Machine.execBosetClr a t b s
  | .boarm b => Sys2Proof.Machine.execBoarm b s
  | .spawn p r imm => Sys2Proof.Machine.execSpawn p r imm s
  | .join t => Sys2Proof.Machine.execJoin t s
  | .rfwd a => Sys2Proof.Machine.execRfwd a s
  | .rfwdRet a => Sys2Proof.Machine.execRfwdRet a s
  | .strm a t n => Sys2Proof.Machine.execStrm a t n s
  | .strmTemplate a t p n => Sys2Proof.Machine.execStrmTemplate a t p n s
  | .sbar r t m => Sys2Proof.Machine.execSbar r t m s
  | .cfgl t d c m => Sys2Proof.Machine.execCfgl t d c m s
  | .cfgbank t m b => Sys2Proof.Machine.execCfgbank t m b s
  | .ctsw a => Sys2Proof.Machine.execCtsw a s
  | .eqw a n => Sys2Proof.Machine.execEqw a n s
  | .eqwPort a n => Sys2Proof.Machine.execEqwPort a n s
  | .copy a t n => Sys2Proof.Machine.execCopy a t n s
  | .publ a t n => Sys2Proof.Machine.execPubl a t n s
  | .mv a t n => Sys2Proof.Machine.execMv a t n s
  | .scout a t n => Sys2Proof.Machine.execScout a t n s
  | .attn a t n => Sys2Proof.Machine.execAttn a t n s
  | .iredGatherSum a t n => Sys2Proof.Machine.execIredGatherSum a t n s
  | .iredGatherMax a t n => Sys2Proof.Machine.execIredGatherMax a t n s
  | .iredAtomic a t n => Sys2Proof.Machine.execIredAtomic a t n s
  | .collTri a t n => Sys2Proof.Machine.execCollTri a t n s
  | .collSum a t n => Sys2Proof.Machine.execCollSum a t n s
  | .collMax a t n => Sys2Proof.Machine.execCollMax a t n s
  | .collGath a t n => Sys2Proof.Machine.execCollGath a t n s
  | .collSmp a t n => Sys2Proof.Machine.execCollSmp a t n s
  | .sample a t n => Sys2Proof.Machine.execSample a t n s
  | .wbuild a t n => Sys2Proof.Machine.execWbuild a t n s
  | .wswitch a t n => Sys2Proof.Machine.execWswitch a t n s
  | .promo a t n => Sys2Proof.Machine.execPromo a t n s
  | .promoDemote a t n => Sys2Proof.Machine.execPromoDemote a t n s
  | .tnow d => Sys2Proof.Machine.execTnow d s
  | .thold a t => Sys2Proof.Machine.execThold a t s
  | .csrr d c => Sys2Proof.Machine.execCsrr d c s
  | .csrw a c => Sys2Proof.Machine.execCsrw a c s
  | .sysc a t c => Sys2Proof.Machine.execSysc a t c s
  | .eret a => Sys2Proof.Machine.execEret a s
  | .eretAbort a => Sys2Proof.Machine.execEretAbort a s
  | .trap c => Sys2Proof.Machine.execTrap c s
  | .halt => Sys2Proof.Machine.execHalt s
  | .lcugoWrite a body => Sys2Proof.Machine.execLcugoWrite a body s
  | .csweeptWrite a => Sys2Proof.Machine.execCsweeptWrite a s
  | .cteWrite a ag e => Sys2Proof.Machine.execCteWrite a ag e s
  | .cellAdd f => Sys2Proof.Machine.execCellAdd f s
  | .cellSub f => Sys2Proof.Machine.execCellSub f s
  | .cellMul f => Sys2Proof.Machine.execCellMul f s
  | .cellMulh f => Sys2Proof.Machine.execCellMulh f s
  | .cellAnd f => Sys2Proof.Machine.execCellAnd f s
  | .cellOr f => Sys2Proof.Machine.execCellOr f s
  | .cellXor f => Sys2Proof.Machine.execCellXor f s
  | .cellAndn f => Sys2Proof.Machine.execCellAndn f s
  | .cellShl f => Sys2Proof.Machine.execCellShl f s
  | .cellShr f => Sys2Proof.Machine.execCellShr f s
  | .cellSar f => Sys2Proof.Machine.execCellSar f s
  | .cellRot f => Sys2Proof.Machine.execCellRot f s
  | .cellMin f => Sys2Proof.Machine.execCellMin f s
  | .cellMax f => Sys2Proof.Machine.execCellMax f s
  | .minu f => Sys2Proof.Machine.execMinu f s
  | .maxu f => Sys2Proof.Machine.execMaxu f s
  | .cellClz f => Sys2Proof.Machine.execCellClz f s
  | .cellPopc f => Sys2Proof.Machine.execCellPopc f s
  | .bperm f => Sys2Proof.Machine.execBperm f s
  | .pack f => Sys2Proof.Machine.execPack f s
  | .sel n f => Sys2Proof.Machine.execSel n f s
  | .ceq f => Sys2Proof.Machine.execCeq f s
  | .cne f => Sys2Proof.Machine.execCne f s
  | .clt f => Sys2Proof.Machine.execClt f s
  | .cle f => Sys2Proof.Machine.execCle f s
  | .cltu f => Sys2Proof.Machine.execCltu f s
  | .cleu f => Sys2Proof.Machine.execCleu f s
  | .fadd f => Sys2Proof.Machine.execFadd f s
  | .fsub f => Sys2Proof.Machine.execFsub f s
  | .fmul f => Sys2Proof.Machine.execFmul f s
  | .fma f => Sys2Proof.Machine.execFma f s
  | .fms f => Sys2Proof.Machine.execFms f s
  | .fmin f => Sys2Proof.Machine.execFmin f s
  | .fmax f => Sys2Proof.Machine.execFmax f s
  | .famn f => Sys2Proof.Machine.execFamn f s
  | .fabs f => Sys2Proof.Machine.execFabs f s
  | .fneg f => Sys2Proof.Machine.execFneg f s
  | .frcp f => Sys2Proof.Machine.execFrcp f s
  | .frsq f => Sys2Proof.Machine.execFrsq f s
  | .fexp2 f => Sys2Proof.Machine.execFexp2 f s
  | .flog2 f => Sys2Proof.Machine.execFlog2 f s
  | .frnd f => Sys2Proof.Machine.execFrnd f s
  | .fceq f => Sys2Proof.Machine.execFceq f s
  | .fclt f => Sys2Proof.Machine.execFclt f s
  | .fcle f => Sys2Proof.Machine.execFcle f s
  | .fcun f => Sys2Proof.Machine.execFcun f s
  | .fcvti f => Sys2Proof.Machine.execFcvti f s
  | .icvtf f => Sys2Proof.Machine.execIcvtf f s
  | .ucvtf f => Sys2Proof.Machine.execUcvtf f s
  | .lshl f => Sys2Proof.Machine.execLshl f s
  | .lshr f => Sys2Proof.Machine.execLshr f s
  | .lbc f => Sys2Proof.Machine.execLbc f s
  | .lredAdd f => Sys2Proof.Machine.execLredAdd f s
  | .lredMin f => Sys2Proof.Machine.execLredMin f s
  | .lredMax f => Sys2Proof.Machine.execLredMax f s
  | .lredFadd f => Sys2Proof.Machine.execLredFadd f s
  | .lredFmin f => Sys2Proof.Machine.execLredFmin f s
  | .lredFmax f => Sys2Proof.Machine.execLredFmax f s
  | .scanAdd f => Sys2Proof.Machine.execScanAdd f s
  | .scanMax f => Sys2Proof.Machine.execScanMax f s
  | .scanFadd f => Sys2Proof.Machine.execScanFadd f s
  | .scanFmax f => Sys2Proof.Machine.execScanFmax f s
  | .qapp f => Sys2Proof.Machine.execQapp f s
  | .mov f => Sys2Proof.Machine.execMov f s
  | .lit f => Sys2Proof.Machine.execLit f s
  | .steer f => Sys2Proof.Machine.execSteer f s
  | .steerCtl f => Sys2Proof.Machine.execSteerCtl f s
  | .merge f => Sys2Proof.Machine.execMerge f s
  | .ctok f => Sys2Proof.Machine.execCtok f s
  | .crec f => Sys2Proof.Machine.execCrec f s
  | .drop f => Sys2Proof.Machine.execDrop f s
  | .tag f => Sys2Proof.Machine.execTag f s
  | .done f => Sys2Proof.Machine.execDone f s
  | .ldsI f => Sys2Proof.Machine.execLdsI f s
  | .ldsF f => Sys2Proof.Machine.execLdsF f s
  | .stsI f => Sys2Proof.Machine.execStsI f s
  | .stsF f => Sys2Proof.Machine.execStsF f s
  | .updAdd f => Sys2Proof.Machine.execUpdAdd f s
  | .updFadd f => Sys2Proof.Machine.execUpdFadd f s
  | .updMin f => Sys2Proof.Machine.execUpdMin f s
  | .updMax f => Sys2Proof.Machine.execUpdMax f s
  | .updOr f => Sys2Proof.Machine.execUpdOr f s
  | .updTas f => Sys2Proof.Machine.execUpdTas f s
  | .own f => Sys2Proof.Machine.execOwn f s
  | .ordt f => Sys2Proof.Machine.execOrdt f s
  | .sysm f => Sys2Proof.Machine.execSysm f s
  | .sysmOff f => Sys2Proof.Machine.execSysmOff f s
  | .ldsw f => Sys2Proof.Machine.execLdsw f s
  | .pswp f => Sys2Proof.Machine.execPswp f s
  | .scl f => Sys2Proof.Machine.execScl f s
  | .tmrg f => Sys2Proof.Machine.execTmrg f s
  | .ecmd f => Sys2Proof.Machine.execEcmd f s
  | .csweep f => Sys2Proof.Machine.execCsweep f s
  | .cellTrap f => Sys2Proof.Machine.execCellTrap f s
  | .cellHalt f => Sys2Proof.Machine.execCellHalt f s
  | .flgr f => Sys2Proof.Machine.execFlgr f s
  | .flgc f => Sys2Proof.Machine.execFlgc f s
  | .register e => Sys2Proof.Machine.execRegister e s
  | .place e => Sys2Proof.Machine.execPlace e s
  | .inject e => Sys2Proof.Machine.execInject e s
  | .wbuildCommand e => Sys2Proof.Machine.execWbuildCommand e s
  | .wswitchCommand e => Sys2Proof.Machine.execWswitchCommand e s
  | .copyCommand e => Sys2Proof.Machine.execCopyCommand e s
  | .timed e => Sys2Proof.Machine.execTimed e s
  | .queryTileStates e => Sys2Proof.Machine.execQueryTileStates e s
  | .queryPlacement e => Sys2Proof.Machine.execQueryPlacement e s
  | .queryRcbUsage e => Sys2Proof.Machine.execQueryRcbUsage e s
  | .queryTime e => Sys2Proof.Machine.execQueryTime e s
  | .unplace e => Sys2Proof.Machine.execUnplace e s
  | .sqDoorbell => Sys2Proof.Machine.execSqDoorbell s
  | .cqDoorbell => Sys2Proof.Machine.execCqDoorbell s
  | .queueDescriptorWrite => Sys2Proof.Machine.execQueueDescriptorWrite s
  | .invreqTranslation => Sys2Proof.Machine.execInvreqTranslation s
  | .invreqHandle => Sys2Proof.Machine.execInvreqHandle s
  | .invreqBoth => Sys2Proof.Machine.execInvreqBoth s
  | .vsrootWrite => Sys2Proof.Machine.execVsrootWrite s
  | .hsrootWrite => Sys2Proof.Machine.execHsrootWrite s
  | .windowDescriptorWrite => Sys2Proof.Machine.execWindowDescriptorWrite s
  | .victlWrite => Sys2Proof.Machine.execVictlWrite s
  | .domctlRelease => Sys2Proof.Machine.execDomctlRelease s
  | .domctlResume => Sys2Proof.Machine.execDomctlResume s
  | .domctlAbort => Sys2Proof.Machine.execDomctlAbort s
  | .tilecmdWithdraw => Sys2Proof.Machine.execTilecmdWithdraw s
  | .tilecmdAdmit => Sys2Proof.Machine.execTilecmdAdmit s
  | .tilecmdRestart => Sys2Proof.Machine.execTilecmdRestart s
  | .tadjSlew => Sys2Proof.Machine.execTadjSlew s
  | .tadjStep => Sys2Proof.Machine.execTadjStep s
  | .attestation => Sys2Proof.Machine.execAttestation s
  | .lnkctlWrite => Sys2Proof.Machine.execLnkctlWrite s
  | .fwctlStart => Sys2Proof.Machine.execFwctlStart s
  | .fwctlCommit => Sys2Proof.Machine.execFwctlCommit s
  | .fwctlRevert => Sys2Proof.Machine.execFwctlRevert s
  | .registerWrite => Sys2Proof.Machine.execRegisterWrite s
  | .codeTableApply tile ag => Sys2Proof.Machine.execCodeTableApply tile ag s
  | .taskLaunch tile tag => Sys2Proof.Machine.execTaskLaunch tile tag s
  | .tholdExpiry tile idx => Sys2Proof.Machine.execTholdExpiry tile idx s
  | .syscReply idx => Sys2Proof.Machine.execSyscReply idx s
  | .hamperRecordArrival idx => Sys2Proof.Machine.execHamperRecordArrival idx s
  | .hamperAdmit pk => Sys2Proof.Machine.execHamperAdmit pk s
  | .hamperTimeout pk => Sys2Proof.Machine.execHamperTimeout pk s
  | .draftGroupTimeout pk seqSlot => Sys2Proof.Machine.execDraftGroupTimeout pk seqSlot s
  | .hamperFire pk => Sys2Proof.Machine.execHamperFire pk s
  | .rotationSlot die => Sys2Proof.Machine.execRotationSlot die s
  | .routeTagDelivery idx => Sys2Proof.Machine.execRouteTagDelivery idx s
  | .hamperStarved pk idx => Sys2Proof.Machine.execHamperStarved pk idx s
  | .schedulerEvaluation anchor => Sys2Proof.Machine.execSchedulerEvaluation anchor s
  | .preemption anchor => Sys2Proof.Machine.execPreemption anchor s
  | .scaleLatch tile cell latch => Sys2Proof.Machine.execScaleLatch tile cell latch s
  | .systolicBeat tile cell => Sys2Proof.Machine.execSystolicBeat tile cell s
  | .ownerUpdateApply tile cell => Sys2Proof.Machine.execOwnerUpdateApply tile cell s
  | .orderingTokenEmit tile cell idx => Sys2Proof.Machine.execOrderingTokenEmit tile cell idx s
  | .spillRingRefill tile cell dir => Sys2Proof.Machine.execSpillRingRefill tile cell dir s
  | .cellSwitch tile cell => Sys2Proof.Machine.execCellSwitch tile cell s
  | .lcuRelease tile slot body => Sys2Proof.Machine.execLcuRelease tile slot body s
  | .drainStall tile cell => Sys2Proof.Machine.execDrainStall tile cell s
  | .regionStall anchor => Sys2Proof.Machine.execRegionStall anchor s
  | .streamStart tile ag => Sys2Proof.Machine.execStreamStart tile ag s
  | .streamTransfer tile ag => Sys2Proof.Machine.execStreamTransfer tile ag s
  | .streamCompletion tile ag => Sys2Proof.Machine.execStreamCompletion tile ag s
  | .commandStart tile slot q => Sys2Proof.Machine.execCommandStart tile slot q s
  | .commandCompletion id => Sys2Proof.Machine.execCommandCompletion id s
  | .pageTimeout id => Sys2Proof.Machine.execPageTimeout id s
  | .collectiveResult id => Sys2Proof.Machine.execCollectiveResult id s
  | .collectiveTimeout id => Sys2Proof.Machine.execCollectiveTimeout id s
  | .wswitchDrained id => Sys2Proof.Machine.execWswitchDrained id s
  | .switchWaiting id => Sys2Proof.Machine.execSwitchWaiting id s
  | .engineFailed stack channel => Sys2Proof.Machine.execEngineFailed stack channel s
  | .bankTransitionComplete tile bank => Sys2Proof.Machine.execBankTransitionComplete tile bank s
  | .cfglComplete tile => Sys2Proof.Machine.execCfglComplete tile s
  | .timedLaunch idx => Sys2Proof.Machine.execTimedLaunch idx s
  | .commandService vi => Sys2Proof.Machine.execCommandService vi s
  | .msixMessage vi vec => Sys2Proof.Machine.execMsixMessage vi vec s
  | .invalidationComplete vi => Sys2Proof.Machine.execInvalidationComplete vi s
  | .bar2Access r => Sys2Proof.Machine.execBar2Access r s
  | .completionFlagForward port vi => Sys2Proof.Machine.execCompletionFlagForward port vi s
  | .ackLost port vi => Sys2Proof.Machine.execAckLost port vi s
  | .hostReadTimeout vi sq => Sys2Proof.Machine.execHostReadTimeout vi sq s
  | .hostPortDown port => Sys2Proof.Machine.execHostPortDown port s
  | .linkTrained port => Sys2Proof.Machine.execLinkTrained port s
  | .linkTrainingLost port => Sys2Proof.Machine.execLinkTrainingLost port s
  | .flitDrop port pkg => Sys2Proof.Machine.execFlitDrop port pkg s
  | .remoteTimeout port pkg => Sys2Proof.Machine.execRemoteTimeout port pkg s
  | .atticLinkDown link => Sys2Proof.Machine.execAtticLinkDown link s
  | .ptpMessage m => Sys2Proof.Machine.execPtpMessage m s
  | .timeSourceLost => Sys2Proof.Machine.execTimeSourceLost s
  | .timeRelock off => Sys2Proof.Machine.execTimeRelock off s
  | .throttle watts => Sys2Proof.Machine.execThrottle watts s
  | .powerStateChange vi d3 => Sys2Proof.Machine.execPowerStateChange vi d3 s
  | .boot => Sys2Proof.Machine.execBoot s
  | .selfTest failed => Sys2Proof.Machine.execSelfTest failed s
  | .canaryWindowEnd => Sys2Proof.Machine.execCanaryWindowEnd s
  | .heartbeatLost => Sys2Proof.Machine.execHeartbeatLost s
  | .canaryCommandHung => Sys2Proof.Machine.execCanaryCommandHung s
  | .standbyAssertion => Sys2Proof.Machine.execStandbyAssertion s
  | .complexTakeover => Sys2Proof.Machine.execComplexTakeover s
  | .standbyImageChecked => Sys2Proof.Machine.execStandbyImageChecked s
  | .powerBelowCap watts => Sys2Proof.Machine.execPowerBelowCap watts s
  | .rotationSliceDelivery die => Sys2Proof.Machine.execRotationSliceDelivery die s
  | .collectiveContribution id idx => Sys2Proof.Machine.execCollectiveContribution id idx s

end Sys2Proof.Machine
end

