-- ==== Sys2Proof/Machine/Moves.lean ====
section
/-! DEFINITION. The moves of the machine: what a step picks, how a tile core comes to its next word (R53, R54, R166), how a
cell selects its slot (R61, R62), and the host interface's own moves. `step` only calls these. -/

namespace Sys2Proof.Machine

/-! ### Picking a move (log 1) -/

/-- The next move: the head of the agenda, or the free choice of log 1 when it is empty. DESIGN CHOICE (log 1). -/
def State.nextMove (s : State) : Move :=
  match s.sched.agenda with
  | m :: _ => m
  | [] => Config.nextMove s.sched.moves

/-- The state in which the next move is made: one more move counted, the agenda's head gone. -/
def State.took (s : State) : State :=
  { s with sched := { s.sched with agenda := s.sched.agenda.tail, moves := s.sched.moves + 1 } }

/-- The state with its focus on a tile, a cell and a slot. -/
def State.focusOn (s : State) (t c n : Nat) : State :=
  { s with sched := { s.sched with focus := { s.sched.focus with tile := t, cell := c, slot := n } } }

/-- The state with a register write in its focus. -/
def State.focusWrite (s : State) (w : RegWrite) : State :=
  { s with sched := { s.sched with focus := { s.sched.focus with wr := w } } }

/-- Perform a decoded instruction; a word that does not decode is refused by its number. -/
def perform (w : Nat) (r : Except DecodeError Instr) (s : State) : Out :=
  match r with
  | .ok i => exec i s
  | .error _ => .refused (.undecodable w)

/-! ### Tile cores -/

/-- The word at an offset of the TASK section of an operator's tile (R176). -/
def State.taskWord (s : State) (pk t off : Nat) : Nat :=
  match s.places.find? pk with
  | none => 0
  | some p =>
    match s.imageOf p, p.vtOf t with
    | some im, some vt => ((im.tasks.getD vt []).getD off 0).toNat
    | _, _ => 0

/-- The block at an offset of the TASK section, about to start for instance n (R166). -/
def State.blockAt (s : State) (t n : Nat) (i : Inst) : BlockRun :=
  let w (k : Nat) : Nat := s.taskWord i.pk t (i.block + k)
  { inst := n, base := i.block, pos := 0, len := fld (w 2) 31 21, storeMask := BitVec.ofNat 32 (w 0),
    writeMask := BitVec.ofNat 32 (w 1), g := i.g }

/-- Whether an instance may start its next block: it waits on no trap and its operator is loaded (R54, R316). -/
def State.mayRun (s : State) (t : Nat) (i : Inst) : Bool := i.status == .ready && s.loadedOn t == some i.pk

/-- Whether instance x goes before instance y: more urgent, or as urgent and started earlier (R54). -/
def Inst.before (x y : Inst) : Bool := decide (x.prio < y.prio) || (x.prio == y.prio && decide (x.seq < y.seq))

/-- The instance whose block a tile core starts next (R54). -/
def State.nextInst (s : State) (t : Nat) : Option (Nat × Inst) :=
  ((s.core t).insts.items.filter (fun q => s.mayRun t q.2)).foldl (fun a q =>
    match a with
    | none => some q
    | some b => if q.2.before b.2 then some q else a) none

/-- The current word of the block in progress. -/
def State.currentWord (s : State) (t : Nat) (r : BlockRun) : Nat := s.taskWord (s.instOf t r).pk t r.word

/-- The instruction at the current word of the block in progress; command word 0, the value of the register that the word
names, tells the rows of IRED and PROMO apart (R289, R298). DESIGN CHOICE (log 24). -/
def State.currentInstr (s : State) (t : Nat) (r : BlockRun) : Except DecodeError Instr :=
  let w := s.currentWord t r
  decodeCore (r.reg (fld w 18 14)).toNat w

/-- Execute the current word of the block in progress. Execution that has passed the last body word traps (R404). -/
def runWord (t : Nat) (r : BlockRun) (s : State) : Out :=
  if r.len ≤ r.pos then .next (s.blockTrap t r 3 0 0x3F (r.base + 2 + r.len) 0)
  else perform (s.currentWord t r) (s.currentInstr t r) (s.focusOn t 0 0)

/-- A tile core executes one word: of the block in progress, or the first of the next block (R54); a halted core starts no
block (R270). -/
def moveCore (t : Nat) (s : State) : Out :=
  match (s.core t).run with
  | some r => runWord t r s
  | none =>
    if (s.core t).halted then .next s
    else
      match s.nextInst t with
      | none => .next s
      | some (n, i) =>
        let r := s.blockAt t n i
        runWord t r ((s.judgeFirst t n).setRun t r)

/-! ### Cells -/

/-- Slot n of the active context of a cell. -/
def State.slotWordAt (s : State) (t c n : Nat) : Nat := (s.cellAt t c).ctx.slot n

/-- The firing of slot n of a cell. -/
def State.firingAt (s : State) (t c n : Nat) : Firing :=
  let w := s.slotWordAt t c n
  (s.focusOn t c n).firing (fld w 63 56) (slotFields w)

/-- The slots of a cell that are in use: those with a valid trigger word (R157). -/
def State.usedSlots (s : State) (t c : Nat) : List Nat := (List.range 32).filter (fun n => bitOf (s.slotWordAt t c n) 31)

/-- The ready slot that fires: lowest prio, then lowest index (R62). -/
def State.selectSlot (s : State) (t c : Nat) : Option Nat :=
  ((s.usedSlots t c).filter (fun n => s.slotReady (s.firingAt t c n))).foldl (fun a n =>
    match a with
    | none => some n
    | some m => if (s.firingAt t c n).f.prio < (s.firingAt t c m).f.prio then some n else a) none

/-- A cell fires at most one slot (R62); with none ready, pushes held back by a ring outside FIFO mode are recorded
(R422). -/
def moveCell (t c : Nat) (s : State) : Out :=
  if s.cellLive t c (s.cellsPaused t) then
    match s.selectSlot t c with
    | some n =>
      let w := s.slotWordAt t c n
      perform w (decodeSlot w) (s.focusOn t c n)
    | none => .next ((s.usedSlots t c).foldl (fun u n => u.noteRings (s.firingAt t c n)) s)
  else .next s

/-! ### Front end and registers -/

/-- The front end performs the command at an index of front-end execution (R304, R305); one that does not decode ends with
status 1, and an INJECT whose records have been sent ends when they have arrived (R308). -/
def moveCommand (idx : Nat) (s : State) : Out :=
  match s.fe[idx]? with
  | none => .next s
  | some f =>
    match f.wait with
    | .ready =>
      match decodeEntry f.e with
      | .ok i => exec i s
      | .error _ => .next (s.feBad f)
    | .arriving _ => .next (s.injectEnd f)
    | _ => .next s

/-- A BAR0 register write (R369). -/
def moveRegWrite (w : RegWrite) (s : State) : Out := exec (decodeRegWrite w.vi w.off w.v) (s.focusWrite w)

/-! ### The host interface -/

/-- Host software writes its own memory. -/
def State.hostWrite (s : State) (vi addr : Nat) (data : List Byte) : State :=
  if vi < 64 ∧ addr + data.length ≤ 2 ^ 64 then s.writeKeys (keysFrom (hostKey vi addr) data.length) data else s

/-- A VI's driver writes an entry of its slice (R119); only VI 0 sets read_only_shared. The old entry may be used until the
next handle invalidation completes. DEDUCED (log 61). -/
def State.handleWrite (s : State) (vi idx : Nat) (e : HEntry) : State :=
  let v := s.vi vi
  if idx < v.slice then
    let e := if vi = 0 then e else { e with w0 := e.w0.put 22 22 0 }
    s.updVi vi (fun v =>
      { v.writeEntry idx e s.clk.cycle with hOld := v.hOld.upd idx [] (fun l => (v.invCount, v.handles.getD idx noEntry) :: l) })
  else s

/-- A contribution of a party on another package arrives (R291, R307, R430): each party contributes once.
DEDUCED (log 63). -/
def State.remoteParty (s : State) (c : Contribution) : State :=
  let l := s.locsOf c
  let pkg := l.getD c.idx 0 / 256
  let ok := l.length == c.p && decide (c.idx < c.p) && pkg != s.dev.pkgid && s.pkgReachable pkg
  let twin (x : Contribution) : Bool :=
    x.vi == c.vi && x.job == c.job && x.group == c.group && x.p == c.p && x.k == c.k && x.idx == c.idx
  if ok && !s.pool.any twin then { s with pool := s.pool ++ [{ c with lost := false }] } else s

/-! ### Soft errors (R396, R419, R420) -/

/-- An uncorrectable error in a granule of a tile store, of HBM or of the attic, whose transfers then meet poison (R444),
or, for a key of 2^80 and more, in the image of a registered operator in the image store (R419). Reads of a sector that is
dirty in its die cache do not reach HBM, and its write-back replaces the granule (R115). -/
def State.eccBad (s : State) (key : Nat) : State :=
  if 2 ^ 80 ≤ key then
    match s.ops.find? (key - 2 ^ 80) with
    | some o => { s with ops := s.ops.set (key - 2 ^ 80) { o with image := { o.image with bad := true } } }
    | none => s
  else if (decide (key < 2 ^ 40) && hbmOk key) || inTileStore key || isAtticKey key then
    let g := granuleOf key
    if (s.die.find? g).isSome then s
    else
    { s with bad := g :: s.bad.filter (· != g), dieBad := s.dieBad.filter (· != g) }
  else s

/-- An uncorrectable error in a sector of a die cache (R420): up to 256 dirty ones a die are held; one more is dropped, and HBM
keeps its older value. DEDUCED (log 62). -/
def State.eccDie (s : State) (key : Nat) : State :=
  if key < 2 ^ 40 ∧ hbmOk key then
    let g := sectorOf key
    let held := s.dieBad.filter (fun k => s.bad.contains k && k != g)
    let here := held.filter (fun k => homeDie k == homeDie g && (s.die.find? k).isSome)
    match s.die.find? g with
    | some old =>
      if here.length < 256 then { s with bad := g :: s.bad.filter (· != g), dieBad := g :: held }
      else
        State.report { s with mem := s.mem.setN g old, bad := s.bad.filter (· != g), dieBad := held, die := s.die.erase g }
          { severity := 3, unit := 4, code := 0x1D, loc := wd g, count := s.cecAt 4 (homeDie g) }
    | none => { s with bad := g :: s.bad.filter (· != g), dieBad := g :: held }
  else s

/-- An uncorrectable error in a sector of a line of a tile cache (R419). -/
def State.eccCache (s : State) (t line sector : Nat) : State :=
  s.updTile t (fun x => { x with cache := x.cache.map (fun l =>
    if l.line = line then { l with bad := l.bad ||| BitVec.ofNat 2 (2 ^ (sector % 2)) } else l) })

/-- A corrected error of a tile store, die cache, HBM channel, host port, attic link, Renulun link or bridge (R396, R438):
a record at each multiple of CETHR, whose code and detail the spec does not give. DESIGN CHOICE (log 60). -/
def State.correctedError (s : State) (unit idx : Nat) : State :=
  if [3, 4, 5, 14, 15, 16, 18].contains unit then
    let key := unit * 2 ^ 32 + idx
    let n := s.dev.cec.getD key 0 + 1
    let s := s.updDev (fun d => { d with cec := d.cec.set key n })
    if n % s.dev.cethr = 0 then
      let r := s.takeFree
      (r.2.report { severity := 0, unit := unit, code := r.1.fld 7 0, tile := if unit = 3 then idx else 0x7FF,
                    count := n % 2 ^ 32, detail := r.1.fld 63 32 }).serviceCause 0
    else s
  else s

/-! ### Time -/

/-- n cycles pass, or as many as do before a hamper's timeout expires: what has expired closes in the cycle of its expiry, and
no cycle passes over one (R41, R42, R67). -/
def State.pass (s : State) (n : Nat) : State :=
  let s := s.places.keys.foldl (fun s pk => s.hamperDue pk) s
  s.tick (s.places.vals.foldl (fun n p => s.hamperRoom p n) n)

/-! ### One move -/

/-- Make a move. -/
def makeMove (m : Move) (s : State) : Out :=
  match m with
  | .core t => moveCore t s
  | .cell t c => moveCell t c s
  | .command idx => moveCommand idx s
  | .ev i => perform 0 (.ok i) s
  | .updMove t c => .next (if s.cellsPaused t then s else s.moveUpdates t c)
  | .senders t => .next ((s.resolveMarkers t).boChecks t)
  | .tableCopy => .next s.copyTable
  | .tick n => .next (s.pass n)
  | .hostMem vi a d => .next (s.hostWrite vi a d)
  | .handleWrite vi idx w0 w1 w2 w3 => .next (s.handleWrite vi idx ⟨w0, w1, w2, w3⟩)
  | .regWrite vi port off v => moveRegWrite { vi := vi, port := port, off := off, v := v } s
  | .regPoison vi port off => .next (s.regPoison vi port off)
  | .ackWrite port vi idx => .next (s.ackWrite port vi idx)
  | .eccBad k => .next (s.eccBad k)
  | .eccDie k => .next (s.eccDie k)
  | .dieClean k => .next (s.dieClean k)
  | .cmdWork id => .next (s.cmdWork id)
  | .eccCache t l n => .next (s.eccCache t l n)
  | .corrected u i => .next (s.correctedError u i)
  | .remoteParty vi job g p k i d =>
    .next (s.remoteParty { vi := vi, job := job, group := g, p := p, k := k, idx := i, data := d })
  | .tilecmdDone => .next s.tilecmdDone
  | .regRead vi port off => .next (s.regRead vi port off)
  | .hostReadError vi sq bit => .next (s.hostReadError vi sq bit)
  | .atticTimeout l => .next (s.atticTimeout l)
  | .ptpDelayReq => .next s.ptpDelayReq

/-- One step of the machine: take the next move and make it. -/
def oneStep (s : State) : Out := makeMove s.nextMove s.took

/-! ### Placing one instruction where the next step fetches it -/

/-- The TASK section that holds one block of n words at word 0, with no masked LSID and register (R166). -/
def oneBlock (ws : List (BitVec 32)) : List (BitVec 32) :=
  [0, 0, BitVec.ofNat 32 (ws.length * 2 ^ 21 + 2 ^ 13)] ++ ws

/-- An image of one tile. -/
def oneTileImage (tasks : KMap (List (BitVec 32))) (ctxs : KMap Ctx) : Image :=
  { w := 1, h := 1, oper := 0, tasks := tasks, ctxs := ctxs }

/-- A placement of a 1 x 1 operator on tile 0, slot 0. -/
def onePlacement (id : Word) : Placement :=
  { regId := id, vi := 0, job := 0, rcb := 0, die := 0, x := 0, y := 0, w := 1, h := 1, slot := 0, cls := 2, banks := 0,
    save := 0, hbanks := 0, placedAt := 0, round := 0, storeRound := 0, pageTimeout := 0,
    domain := 0, weights := 0, routes := [], order := 0 }

/-- The operator of the one image, registered and placed on tile 0 and loaded. -/
def State.withOne (s : State) (im : Image) : State :=
  { s with
    ops := s.ops.set 0 { vi := 0, job := 0, rcb := 0, image := im }
    places := s.places.set 0 (onePlacement 0)
    regions := s.regions.set 0 { loaded := some 0 } }

/-- A tile-core word as the current word of a block in progress on tile 0 (log 55). DESIGN CHOICE (log 55). -/
def State.withCoreWord (s : State) (w : Nat) : State :=
  let im := oneTileImage (KMap.ofList [oneBlock [BitVec.ofNat 32 w]]) {}
  let s := s.withOne im
  let s := s.updTile 0 (fun x => { x with anchor := some 0 })
  let i : Inst := { pk := 0, tag := 0, set := 0, prio := 0, seq := 0, block := 0 }
  let s := s.updCore 0 (fun c => { c with insts := c.insts.set 0 i, run := none })
  let s := s.updCore 0 (fun c => { c with run := some (s.blockAt 0 0 i) })
  { s with sched := { s.sched with agenda := [.core 0] } }

/-- A slot word (operation word above the trigger word) as the only slot of cell 0 of tile 0 (log 55). -/
def State.withSlotWord (s : State) (w : Nat) : State :=
  let k : Ctx := { slots := KMap.ofList [BitVec.ofNat 64 w], owner := some 0 }
  let s := s.withOne (oneTileImage {} (KMap.ofList [k]))
  let s := s.updTile 0 (fun x => { x with anchor := some 0 })
  let s := s.updCell 0 0 (fun x => { x with ctxs := x.ctxs.set 0 k, active := 0 })
  { s with sched := { s.sched with agenda := [.cell 0 0] } }

end Sys2Proof.Machine
end

