-- ==== Sys2Proof/Machine/Step.lean ====
section
/-! DEFINITION. One step of the machine, and the placing of one instruction where the next step fetches it. -/

namespace Sys2Proof.Machine

/-- One step: the head of the agenda, or with an empty agenda a free choice among the agents' moves (log 1). -/
def step (s : State) : Host.Outcome State Fault Refusal := oneStep s

/-- The state with one instruction placed for the next step (log 55): up to 32 bits are a tile-core word in a block in
progress on tile 0, more are the only slot of cell 0 of tile 0. DESIGN CHOICE (log 55). -/
def State.withFetchWord (s : State) (nbits w : Nat) : State :=
  if nbits ≤ 32 then s.withCoreWord w else s.withSlotWord w

end Sys2Proof.Machine
end

