-- ==== Sys2Proof/Laws/PerInstr.lean ====
section
/-! SUPPORT. The family RoundTrip: decoding the encoded word of a well-formed instruction gives that instruction, with one
lemma for each constructor. -/

namespace Sys2Proof.Laws.RoundTrip

set_option Elab.async false
set_option linter.unusedSimpArgs false
set_option linter.unnecessarySeqFocus false

/-- The decoder on n bits: a tile-core word beside command word 0, or a slot. -/
def decodeBits (w0 n w : Nat) : Except DecodeError Instr := if n ≤ 32 then decodeCore w0 w else decodeSlot w

/-- Whether command word 0 has the form of the instruction's row: the rows of IRED (R289) and PROMO (R298) share a word. -/
def formOk (w0 : Nat) : Instr → Prop
  | .iredGatherSum .. => fld w0 31 30 = 0
  | .iredGatherMax .. => fld w0 31 30 = 1
  | .iredAtomic .. => fld w0 31 30 = 2
  | .promo .. => bitOf w0 31 = false
  | .promoDemote .. => bitOf w0 31 = true
  | _ => True

/-- Decode of encode is the instruction, with every operand at every value the encoding admits. -/
def Statement (i : Instr) : Prop :=
  WellFormed i → ∀ w0 n w, formOk w0 i → encode i = some (n, w) → decodeBits w0 n w = .ok i

theorem plain_eq {u : Nat} {i j : Instr} (hu : u = 0) (hi : i = j) (h : coreOk j = true) : plain u i = .ok j := by
  subst hu hi; simp only [plain, if_true, checked, h]

theorem checked_eq {i j : Instr} (hi : i = j) (h : coreOk j = true) : checked i = .ok j := by
  subst hi; simp only [checked, h, if_true]

theorem wf_core {i : Instr} (h : WellFormed i) : coreOk i = true := by
  exact (Bool.and_eq_true_iff.1 (Bool.and_eq_true_iff.1 (Bool.and_eq_true_iff.1 h).1).1).1

theorem wf_cell {i : Instr} {p : Nat × CellF} (h : WellFormed i) (hp : cellParts i = some p) : slotError p.1 p.2 = none := by
  unfold WellFormed wfInstr at h; rw [hp] at h
  exact Option.isNone_iff_eq_none.1 (Bool.and_eq_true_iff.1 (Bool.and_eq_true_iff.1 h).1).2

/-- A core word's row: what is left to show is the decoder on that word. -/
theorem of_core {i : Instr} {w : Nat} (hw : coreWord i = some w)
    (h : coreOk i = true → ∀ w0, formOk w0 i → decodeCore w0 w = .ok i) : Statement i := by
  intro wf w0 n v hf he
  simp only [encode, hw, Option.some.injEq, Prod.mk.injEq] at he
  obtain ⟨rfl, rfl⟩ := he
  exact h (wf_core wf) w0 hf

theorem slot_bounds {op : Nat} {f : CellF} (h : slotError op f = none) :
    f.srcA < 32 ∧ f.srcB < 32 ∧ f.dstA < 32 ∧ f.dstB < 32 ∧ f.tagAct < 16 ∧ f.trig < 4294967296 := by
  by_contra hc
  have hb : (f.srcA ≥ 32 || f.srcB ≥ 32 || f.dstA ≥ 32 || f.dstB ≥ 32 || f.tagAct ≥ 16 || f.trig ≥ 2 ^ 32) = true := by
    simp only [Bool.or_eq_true, decide_eq_true_eq]; omega
  unfold slotError at h
  generalize cellForm op = k at h
  cases k with
  | none => cases h
  | some k =>
    simp only [hb, if_true] at h
    cases h

/-- The fields of the high word of a 64-bit slot. -/
theorem fld_high (x t h l : Nat) (ht : t < 2 ^ 32) : fld (x * 2 ^ 32 + t) (32 + h) (32 + l) = fld x h l := by
  unfold fld
  rw [Nat.pow_add, ← Nat.div_div_eq_div_mul, Nat.mul_comm x, Nat.mul_add_div (Nat.two_pow_pos 32), Nat.div_eq_of_lt ht,
    Nat.add_zero, show 32 + h + 1 - (32 + l) = h + 1 - l by omega]

/-- A slot's word from its operation word and its trigger word. -/
def joined (x t : Nat) : Nat := x * 2 ^ 32 + t

/-- The operation word of a slot. -/
def opWord (op : Nat) (f : CellF) : Nat :=
  op * 2 ^ 24 + f.srcA * 2 ^ 19 + f.srcB * 2 ^ 14 + f.dstA * 2 ^ 9 + f.dstB * 2 ^ 4 + f.tagAct

theorem slot_split (op : Nat) (f : CellF) : slotWord op f = joined (opWord op f) f.trig := by
  simp only [slotWord, opWord, joined]

theorem joined_high (x t h l h' l' : Nat) (ht : t < 4294967296) (hh : h' = 32 + h) (hl : l' = 32 + l) :
    fld (joined x t) h' l' = fld x h l := by
  subst hh hl
  exact fld_high x t h l (by omega)

theorem joined_low (x t : Nat) (ht : t < 4294967296) : fld (joined x t) 31 0 = t := by
  unfold fld joined
  rw [Nat.pow_zero, Nat.div_one, Nat.mul_comm, Nat.mul_add_mod, Nat.mod_eq_of_lt (by omega)]

theorem op_op {op : Nat} {f : CellF} (ho : op < 256) (hb : f.srcA < 32 ∧ f.srcB < 32 ∧ f.dstA < 32 ∧ f.dstB < 32 ∧
    f.tagAct < 16 ∧ f.trig < 4294967296) : fld (opWord op f) 31 24 = op := by
  simp only [fld, opWord]; omega

theorem op_srcA {op : Nat} {f : CellF} (hb : f.srcA < 32 ∧ f.srcB < 32 ∧ f.dstA < 32 ∧ f.dstB < 32 ∧
    f.tagAct < 16 ∧ f.trig < 4294967296) : fld (opWord op f) 23 19 = f.srcA := by
  simp only [fld, opWord]; omega

theorem op_srcB {op : Nat} {f : CellF} (hb : f.srcA < 32 ∧ f.srcB < 32 ∧ f.dstA < 32 ∧ f.dstB < 32 ∧
    f.tagAct < 16 ∧ f.trig < 4294967296) : fld (opWord op f) 18 14 = f.srcB := by
  simp only [fld, opWord]; omega

theorem op_dstA {op : Nat} {f : CellF} (hb : f.srcA < 32 ∧ f.srcB < 32 ∧ f.dstA < 32 ∧ f.dstB < 32 ∧
    f.tagAct < 16 ∧ f.trig < 4294967296) : fld (opWord op f) 13 9 = f.dstA := by
  simp only [fld, opWord]; omega

theorem op_dstB {op : Nat} {f : CellF} (hb : f.srcA < 32 ∧ f.srcB < 32 ∧ f.dstA < 32 ∧ f.dstB < 32 ∧
    f.tagAct < 16 ∧ f.trig < 4294967296) : fld (opWord op f) 8 4 = f.dstB := by
  simp only [fld, opWord]; omega

theorem op_tagAct {op : Nat} {f : CellF} (hb : f.srcA < 32 ∧ f.srcB < 32 ∧ f.dstA < 32 ∧ f.dstB < 32 ∧
    f.tagAct < 16 ∧ f.trig < 4294967296) : fld (opWord op f) 3 0 = f.tagAct := by
  simp only [fld, opWord]; omega

theorem slot_op {op : Nat} {f : CellF} (ho : op < 256) (hb : f.srcA < 32 ∧ f.srcB < 32 ∧ f.dstA < 32 ∧ f.dstB < 32 ∧
    f.tagAct < 16 ∧ f.trig < 4294967296) : fld (slotWord op f) 63 56 = op := by
  rw [slot_split, joined_high (opWord op f) f.trig 31 24 63 56 hb.2.2.2.2.2 rfl rfl]
  exact op_op ho hb

theorem slot_fields {op : Nat} {f : CellF} (hb : f.srcA < 32 ∧ f.srcB < 32 ∧ f.dstA < 32 ∧ f.dstB < 32 ∧
    f.tagAct < 16 ∧ f.trig < 4294967296) : slotFields (slotWord op f) = f := by
  have ht := hb.2.2.2.2.2
  unfold slotFields
  rw [slot_split, joined_high _ _ 23 19 55 51 ht rfl rfl, joined_high _ _ 18 14 50 46 ht rfl rfl,
    joined_high _ _ 13 9 45 41 ht rfl rfl, joined_high _ _ 8 4 40 36 ht rfl rfl, joined_high _ _ 3 0 35 32 ht rfl rfl,
    joined_low _ _ ht, op_srcA hb, op_srcB hb, op_dstA hb, op_dstB hb, op_tagAct hb]

theorem decodeSlot_of {i : Instr} {w op : Nat} {f : CellF} (ho : fld w 63 56 = op) (hf : slotFields w = f)
    (hs : slotError op f = none) (hc : cellOfOpcode op f = some i) : decodeSlot w = .ok i := by
  subst ho hf
  simp only [decodeSlot, hs, hc]

/-- A cell slot decodes to its instruction. -/
theorem decode_slot {i : Instr} {op : Nat} {f : CellF} (ho : op < 256) (hs : slotError op f = none)
    (hc : cellOfOpcode op f = some i) : decodeSlot (slotWord op f) = .ok i :=
  decodeSlot_of (slot_op ho (slot_bounds hs)) (slot_fields (slot_bounds hs)) hs hc

theorem of_encoded {i : Instr} {v : Nat} (he : encode i = some (64, v)) (hd : decodeSlot v = .ok i) : Statement i := by
  intro _ w0 n w _ h
  rw [he, Option.some.injEq, Prod.mk.injEq] at h
  obtain ⟨hn, hw⟩ := h
  rw [← hn, ← hw]
  exact (if_neg (by decide)).trans hd

theorem encode_cell {i : Instr} {op : Nat} {f : CellF} (hn : coreWord i = none) (hp : cellParts i = some (op, f)) :
    encode i = some (64, slotWord op f) := by
  unfold encode; rw [hn, hp]

/-- A cell slot's row. -/
theorem of_cell {i : Instr} {op : Nat} {f : CellF} (hn : coreWord i = none) (hp : cellParts i = some (op, f))
    (ho : op < 256) (hc : cellOfOpcode op f = some i) : Statement i := fun wf =>
  of_encoded (encode_cell hn hp) (decode_slot ho (wf_cell wf hp) hc) wf

/-- A row with no encoding. -/
theorem of_none {i : Instr} (h : encode i = none) : Statement i := by
  intro _ _ _ _ _ he; rw [h] at he; cases he

/-! ### The decoder, row by row -/

theorem dec_01 (w0 w : Nat) (h : fld w 31 24 = 0x01) :
    decodeCore w0 w = plain (fld w 8 0) (.add (fld w 23 19) (fld w 18 14) (fld w 13 9)) := by
  unfold decodeCore; rw [h]; rfl

theorem dec_02 (w0 w : Nat) (h : fld w 31 24 = 0x02) :
    decodeCore w0 w = plain (fld w 8 0) (.sub (fld w 23 19) (fld w 18 14) (fld w 13 9)) := by
  unfold decodeCore; rw [h]; rfl

theorem dec_03 (w0 w : Nat) (h : fld w 31 24 = 0x03) :
    decodeCore w0 w = plain (fld w 8 0) (.mul (fld w 23 19) (fld w 18 14) (fld w 13 9)) := by
  unfold decodeCore; rw [h]; rfl

theorem dec_04 (w0 w : Nat) (h : fld w 31 24 = 0x04) :
    decodeCore w0 w = plain (fld w 8 0) (.mulh (fld w 23 19) (fld w 18 14) (fld w 13 9)) := by
  unfold decodeCore; rw [h]; rfl

theorem dec_05 (w0 w : Nat) (h : fld w 31 24 = 0x05) :
    decodeCore w0 w = plain (fld w 8 0) (.mulhu (fld w 23 19) (fld w 18 14) (fld w 13 9)) := by
  unfold decodeCore; rw [h]; rfl

theorem dec_06 (w0 w : Nat) (h : fld w 31 24 = 0x06) :
    decodeCore w0 w = plain (fld w 8 0) (.div (fld w 23 19) (fld w 18 14) (fld w 13 9)) := by
  unfold decodeCore; rw [h]; rfl

theorem dec_07 (w0 w : Nat) (h : fld w 31 24 = 0x07) :
    decodeCore w0 w = plain (fld w 8 0) (.divu (fld w 23 19) (fld w 18 14) (fld w 13 9)) := by
  unfold decodeCore; rw [h]; rfl

theorem dec_08 (w0 w : Nat) (h : fld w 31 24 = 0x08) :
    decodeCore w0 w = plain (fld w 8 0) (.rem (fld w 23 19) (fld w 18 14) (fld w 13 9)) := by
  unfold decodeCore; rw [h]; rfl

theorem dec_09 (w0 w : Nat) (h : fld w 31 24 = 0x09) :
    decodeCore w0 w = plain (fld w 8 0) (.remu (fld w 23 19) (fld w 18 14) (fld w 13 9)) := by
  unfold decodeCore; rw [h]; rfl

theorem dec_0A (w0 w : Nat) (h : fld w 31 24 = 0x0A) :
    decodeCore w0 w = plain (fld w 8 0) (.and (fld w 23 19) (fld w 18 14) (fld w 13 9)) := by
  unfold decodeCore; rw [h]; rfl

theorem dec_0B (w0 w : Nat) (h : fld w 31 24 = 0x0B) :
    decodeCore w0 w = plain (fld w 8 0) (.or (fld w 23 19) (fld w 18 14) (fld w 13 9)) := by
  unfold decodeCore; rw [h]; rfl

theorem dec_0C (w0 w : Nat) (h : fld w 31 24 = 0x0C) :
    decodeCore w0 w = plain (fld w 8 0) (.xor (fld w 23 19) (fld w 18 14) (fld w 13 9)) := by
  unfold decodeCore; rw [h]; rfl

theorem dec_0D (w0 w : Nat) (h : fld w 31 24 = 0x0D) :
    decodeCore w0 w = plain (fld w 8 0) (.andn (fld w 23 19) (fld w 18 14) (fld w 13 9)) := by
  unfold decodeCore; rw [h]; rfl

theorem dec_0E (w0 w : Nat) (h : fld w 31 24 = 0x0E) :
    decodeCore w0 w = plain (fld w 8 0) (.shl (fld w 23 19) (fld w 18 14) (fld w 13 9)) := by
  unfold decodeCore; rw [h]; rfl

theorem dec_0F (w0 w : Nat) (h : fld w 31 24 = 0x0F) :
    decodeCore w0 w = plain (fld w 8 0) (.shr (fld w 23 19) (fld w 18 14) (fld w 13 9)) := by
  unfold decodeCore; rw [h]; rfl

theorem dec_10 (w0 w : Nat) (h : fld w 31 24 = 0x10) :
    decodeCore w0 w = plain (fld w 8 0) (.sar (fld w 23 19) (fld w 18 14) (fld w 13 9)) := by
  unfold decodeCore; rw [h]; rfl

theorem dec_11 (w0 w : Nat) (h : fld w 31 24 = 0x11) :
    decodeCore w0 w = plain (fld w 8 0) (.rot (fld w 23 19) (fld w 18 14) (fld w 13 9)) := by
  unfold decodeCore; rw [h]; rfl

theorem dec_12 (w0 w : Nat) (h : fld w 31 24 = 0x12) :
    decodeCore w0 w = plain (fld w 13 0) (.clz (fld w 23 19) (fld w 18 14)) := by
  unfold decodeCore; rw [h]; rfl

theorem dec_13 (w0 w : Nat) (h : fld w 31 24 = 0x13) :
    decodeCore w0 w = plain (fld w 13 0) (.popc (fld w 23 19) (fld w 18 14)) := by
  unfold decodeCore; rw [h]; rfl

theorem dec_14 (w0 w : Nat) (h : fld w 31 24 = 0x14) :
    decodeCore w0 w = plain (fld w 8 0) (.cseq (fld w 23 19) (fld w 18 14) (fld w 13 9)) := by
  unfold decodeCore; rw [h]; rfl

theorem dec_15 (w0 w : Nat) (h : fld w 31 24 = 0x15) :
    decodeCore w0 w = plain (fld w 8 0) (.csne (fld w 23 19) (fld w 18 14) (fld w 13 9)) := by
  unfold decodeCore; rw [h]; rfl

theorem dec_16 (w0 w : Nat) (h : fld w 31 24 = 0x16) :
    decodeCore w0 w = plain (fld w 8 0) (.cslt (fld w 23 19) (fld w 18 14) (fld w 13 9)) := by
  unfold decodeCore; rw [h]; rfl

theorem dec_17 (w0 w : Nat) (h : fld w 31 24 = 0x17) :
    decodeCore w0 w = plain (fld w 8 0) (.csle (fld w 23 19) (fld w 18 14) (fld w 13 9)) := by
  unfold decodeCore; rw [h]; rfl

theorem dec_18 (w0 w : Nat) (h : fld w 31 24 = 0x18) :
    decodeCore w0 w = plain (fld w 8 0) (.csltu (fld w 23 19) (fld w 18 14) (fld w 13 9)) := by
  unfold decodeCore; rw [h]; rfl

theorem dec_19 (w0 w : Nat) (h : fld w 31 24 = 0x19) :
    decodeCore w0 w = plain (fld w 8 0) (.csleu (fld w 23 19) (fld w 18 14) (fld w 13 9)) := by
  unfold decodeCore; rw [h]; rfl

theorem dec_1A (w0 w : Nat) (h : fld w 31 24 = 0x1A) :
    decodeCore w0 w = plain (fld w 8 2) (.adds (fld w 23 19) (fld w 18 14) (fld w 13 9) (fld w 1 0)) := by
  unfold decodeCore; rw [h]; rfl

theorem dec_1B (w0 w : Nat) (h : fld w 31 24 = 0x1B) :
    decodeCore w0 w = plain (fld w 8 0) (.min (fld w 23 19) (fld w 18 14) (fld w 13 9)) := by
  unfold decodeCore; rw [h]; rfl

theorem dec_1C (w0 w : Nat) (h : fld w 31 24 = 0x1C) :
    decodeCore w0 w = plain (fld w 8 0) (.max (fld w 23 19) (fld w 18 14) (fld w 13 9)) := by
  unfold decodeCore; rw [h]; rfl

theorem dec_20 (w0 w : Nat) (h : fld w 31 24 = 0x20) :
    decodeCore w0 w = checked (.addi (fld w 23 19) (fld w 18 14) (fld w 13 0)) := by
  unfold decodeCore; rw [h]; rfl

theorem dec_21 (w0 w : Nat) (h : fld w 31 24 = 0x21) :
    decodeCore w0 w = checked (.andi (fld w 23 19) (fld w 18 14) (fld w 13 0)) := by
  unfold decodeCore; rw [h]; rfl

theorem dec_22 (w0 w : Nat) (h : fld w 31 24 = 0x22) :
    decodeCore w0 w = checked (.ori (fld w 23 19) (fld w 18 14) (fld w 13 0)) := by
  unfold decodeCore; rw [h]; rfl

theorem dec_23 (w0 w : Nat) (h : fld w 31 24 = 0x23) :
    decodeCore w0 w = checked (.xori (fld w 23 19) (fld w 18 14) (fld w 13 0)) := by
  unfold decodeCore; rw [h]; rfl

theorem dec_24 (w0 w : Nat) (h : fld w 31 24 = 0x24) :
    decodeCore w0 w = plain (fld w 13 6) (.shli (fld w 23 19) (fld w 18 14) (fld w 5 0)) := by
  unfold decodeCore; rw [h]; rfl

theorem dec_25 (w0 w : Nat) (h : fld w 31 24 = 0x25) :
    decodeCore w0 w = plain (fld w 13 6) (.shri (fld w 23 19) (fld w 18 14) (fld w 5 0)) := by
  unfold decodeCore; rw [h]; rfl

theorem dec_26 (w0 w : Nat) (h : fld w 31 24 = 0x26) :
    decodeCore w0 w = plain (fld w 13 6) (.sari (fld w 23 19) (fld w 18 14) (fld w 5 0)) := by
  unfold decodeCore; rw [h]; rfl

theorem dec_27 (w0 w : Nat) (h : fld w 31 24 = 0x27) :
    decodeCore w0 w = checked (.cslti (fld w 23 19) (fld w 18 14) (fld w 13 0)) := by
  unfold decodeCore; rw [h]; rfl

theorem dec_28 (w0 w : Nat) (h : fld w 31 24 = 0x28) :
    decodeCore w0 w = checked (.cseqi (fld w 23 19) (fld w 18 14) (fld w 13 0)) := by
  unfold decodeCore; rw [h]; rfl

theorem dec_29 (w0 w : Nat) (h : fld w 31 24 = 0x29) :
    decodeCore w0 w = plain (fld w 18 14) (.li (fld w 23 19) (fld w 13 0)) := by
  unfold decodeCore; rw [h]; rfl

theorem dec_30 (w0 w : Nat) (h : fld w 31 24 = 0x30) :
    decodeCore w0 w = plain (fld w 10 0) (.kld (fld w 23 19) (fld w 18 11)) := by
  unfold decodeCore; rw [h]; rfl

theorem dec_31 (w0 w : Nat) (h : fld w 31 24 = 0x31) :
    decodeCore w0 w = plain (fld w 10 0) (.kst (fld w 23 19) (fld w 18 11)) := by
  unfold decodeCore; rw [h]; rfl

theorem dec_32 (w0 w : Nat) (h : fld w 31 24 = 0x32) :
    decodeCore w0 w = plain ((fld w 23 19) + fld w 2 0) (.kmov (fld w 18 11) (fld w 10 3)) := by
  unfold decodeCore; rw [h]; rfl

theorem dec_38 (w0 w : Nat) (h : fld w 31 24 = 0x38) :
    decodeCore w0 w = checked (.skip (fld w 23 20) (fld w 19 15) (fld w 14 0)) := by
  unfold decodeCore; rw [h]; rfl

theorem dec_39 (w0 w : Nat) (h : fld w 31 24 = 0x39) :
    decodeCore w0 w = checked (.exit (fld w 23 20) (fld w 19 15) (fld w 14 0)) := by
  unfold decodeCore; rw [h]; rfl

theorem dec_3A (w0 w : Nat) (h : fld w 31 24 = 0x3A) :
    decodeCore w0 w = plain (fld w 23 0) .endI := by
  unfold decodeCore; rw [h]; rfl

theorem dec_3B (w0 w : Nat) (h : fld w 31 24 = 0x3B) :
    decodeCore w0 w = plain (fld w 23 5) (.snul (fld w 4 0)) := by
  unfold decodeCore; rw [h]; rfl

theorem dec_3C (w0 w : Nat) (h : fld w 31 24 = 0x3C) :
    decodeCore w0 w = plain (fld w 18 0) (.gnul (fld w 23 19)) := by
  unfold decodeCore; rw [h]; rfl

theorem dec_3D (w0 w : Nat) (h : fld w 31 24 = 0x3D) :
    decodeCore w0 w = checked (.pfx (fld w 23 0)) := by
  unfold decodeCore; rw [h]; rfl

theorem dec_40 (w0 w : Nat) (h : fld w 31 24 = 0x40) :
    decodeCore w0 w = checked (.ldB (fld w 23 19) (fld w 18 14) (fld w 13 9) (fld w 8 0)) := by
  unfold decodeCore; rw [h]; rfl

theorem dec_41 (w0 w : Nat) (h : fld w 31 24 = 0x41) :
    decodeCore w0 w = checked (.ldH (fld w 23 19) (fld w 18 14) (fld w 13 9) (fld w 8 0)) := by
  unfold decodeCore; rw [h]; rfl

theorem dec_42 (w0 w : Nat) (h : fld w 31 24 = 0x42) :
    decodeCore w0 w = checked (.ldW (fld w 23 19) (fld w 18 14) (fld w 13 9) (fld w 8 0)) := by
  unfold decodeCore; rw [h]; rfl

theorem dec_43 (w0 w : Nat) (h : fld w 31 24 = 0x43) :
    decodeCore w0 w = checked (.ld (fld w 23 19) (fld w 18 14) (fld w 13 9) (fld w 8 0)) := by
  unfold decodeCore; rw [h]; rfl

theorem dec_44 (w0 w : Nat) (h : fld w 31 24 = 0x44) :
    decodeCore w0 w = checked (.ldBu (fld w 23 19) (fld w 18 14) (fld w 13 9) (fld w 8 0)) := by
  unfold decodeCore; rw [h]; rfl

theorem dec_45 (w0 w : Nat) (h : fld w 31 24 = 0x45) :
    decodeCore w0 w = checked (.ldHu (fld w 23 19) (fld w 18 14) (fld w 13 9) (fld w 8 0)) := by
  unfold decodeCore; rw [h]; rfl

theorem dec_46 (w0 w : Nat) (h : fld w 31 24 = 0x46) :
    decodeCore w0 w = checked (.ldWu (fld w 23 19) (fld w 18 14) (fld w 13 9) (fld w 8 0)) := by
  unfold decodeCore; rw [h]; rfl

theorem dec_48 (w0 w : Nat) (h : fld w 31 24 = 0x48) :
    decodeCore w0 w = checked (.stB (fld w 23 19) (fld w 18 14) (fld w 13 9) (fld w 8 0)) := by
  unfold decodeCore; rw [h]; rfl

theorem dec_49 (w0 w : Nat) (h : fld w 31 24 = 0x49) :
    decodeCore w0 w = checked (.stH (fld w 23 19) (fld w 18 14) (fld w 13 9) (fld w 8 0)) := by
  unfold decodeCore; rw [h]; rfl

theorem dec_4A (w0 w : Nat) (h : fld w 31 24 = 0x4A) :
    decodeCore w0 w = checked (.stW (fld w 23 19) (fld w 18 14) (fld w 13 9) (fld w 8 0)) := by
  unfold decodeCore; rw [h]; rfl

theorem dec_4B (w0 w : Nat) (h : fld w 31 24 = 0x4B) :
    decodeCore w0 w = checked (.st (fld w 23 19) (fld w 18 14) (fld w 13 9) (fld w 8 0)) := by
  unfold decodeCore; rw [h]; rfl

theorem dec_4C (w0 w : Nat) (h : fld w 31 24 = 0x4C) :
    decodeCore w0 w = checked (.ldAcq (fld w 23 19) (fld w 18 14) (fld w 13 9) (fld w 8 6) (fld w 5 0)) := by
  unfold decodeCore; rw [h]; rfl

theorem dec_4D (w0 w : Nat) (h : fld w 31 24 = 0x4D) :
    decodeCore w0 w = checked (.stRel (fld w 23 19) (fld w 18 14) (fld w 13 9) (fld w 8 6) (fld w 5 0)) := by
  unfold decodeCore; rw [h]; rfl

theorem dec_4E (w0 w : Nat) (h : fld w 31 24 = 0x4E) :
    decodeCore w0 w = plain (fld w 23 14 + fld w 5 0) (.fenAcq (fld w 13 9) (fld w 8 6)) := by
  unfold decodeCore; rw [h]; rfl

theorem dec_4F (w0 w : Nat) (h : fld w 31 24 = 0x4F) :
    decodeCore w0 w = plain (fld w 23 14 + fld w 5 0) (.fenRel (fld w 13 9) (fld w 8 6)) := by
  unfold decodeCore; rw [h]; rfl

theorem dec_60 (w0 w : Nat) (h : fld w 31 24 = 0x60) :
    decodeCore w0 w = checked (.amoAdd 0 (fld w 23 19) (fld w 18 14) (fld w 13 9) (fld w 8 4) (fld w 3 1) (fld w 0 0)) := by
  unfold decodeCore; rw [h]; rfl

theorem dec_61 (w0 w : Nat) (h : fld w 31 24 = 0x61) :
    decodeCore w0 w = checked (.amoAdd 1 (fld w 23 19) (fld w 18 14) (fld w 13 9) (fld w 8 4) (fld w 3 1) (fld w 0 0)) := by
  unfold decodeCore; rw [h]; rfl

theorem dec_62 (w0 w : Nat) (h : fld w 31 24 = 0x62) :
    decodeCore w0 w = checked (.amoAdd 2 (fld w 23 19) (fld w 18 14) (fld w 13 9) (fld w 8 4) (fld w 3 1) (fld w 0 0)) := by
  unfold decodeCore; rw [h]; rfl

theorem dec_63 (w0 w : Nat) (h : fld w 31 24 = 0x63) :
    decodeCore w0 w = checked (.amoAdd 3 (fld w 23 19) (fld w 18 14) (fld w 13 9) (fld w 8 4) (fld w 3 1) (fld w 0 0)) := by
  unfold decodeCore; rw [h]; rfl

theorem dec_64 (w0 w : Nat) (h : fld w 31 24 = 0x64) :
    decodeCore w0 w = checked (.amoMin 0 (fld w 23 19) (fld w 18 14) (fld w 13 9) (fld w 8 4) (fld w 3 1) (fld w 0 0)) := by
  unfold decodeCore; rw [h]; rfl

theorem dec_65 (w0 w : Nat) (h : fld w 31 24 = 0x65) :
    decodeCore w0 w = checked (.amoMin 1 (fld w 23 19) (fld w 18 14) (fld w 13 9) (fld w 8 4) (fld w 3 1) (fld w 0 0)) := by
  unfold decodeCore; rw [h]; rfl

theorem dec_66 (w0 w : Nat) (h : fld w 31 24 = 0x66) :
    decodeCore w0 w = checked (.amoMin 2 (fld w 23 19) (fld w 18 14) (fld w 13 9) (fld w 8 4) (fld w 3 1) (fld w 0 0)) := by
  unfold decodeCore; rw [h]; rfl

theorem dec_67 (w0 w : Nat) (h : fld w 31 24 = 0x67) :
    decodeCore w0 w = checked (.amoMin 3 (fld w 23 19) (fld w 18 14) (fld w 13 9) (fld w 8 4) (fld w 3 1) (fld w 0 0)) := by
  unfold decodeCore; rw [h]; rfl

theorem dec_68 (w0 w : Nat) (h : fld w 31 24 = 0x68) :
    decodeCore w0 w = checked (.amoMax 0 (fld w 23 19) (fld w 18 14) (fld w 13 9) (fld w 8 4) (fld w 3 1) (fld w 0 0)) := by
  unfold decodeCore; rw [h]; rfl

theorem dec_69 (w0 w : Nat) (h : fld w 31 24 = 0x69) :
    decodeCore w0 w = checked (.amoMax 1 (fld w 23 19) (fld w 18 14) (fld w 13 9) (fld w 8 4) (fld w 3 1) (fld w 0 0)) := by
  unfold decodeCore; rw [h]; rfl

theorem dec_6A (w0 w : Nat) (h : fld w 31 24 = 0x6A) :
    decodeCore w0 w = checked (.amoMax 2 (fld w 23 19) (fld w 18 14) (fld w 13 9) (fld w 8 4) (fld w 3 1) (fld w 0 0)) := by
  unfold decodeCore; rw [h]; rfl

theorem dec_6B (w0 w : Nat) (h : fld w 31 24 = 0x6B) :
    decodeCore w0 w = checked (.amoMax 3 (fld w 23 19) (fld w 18 14) (fld w 13 9) (fld w 8 4) (fld w 3 1) (fld w 0 0)) := by
  unfold decodeCore; rw [h]; rfl

theorem dec_6C (w0 w : Nat) (h : fld w 31 24 = 0x6C) :
    decodeCore w0 w = checked (.amoAnd 0 (fld w 23 19) (fld w 18 14) (fld w 13 9) (fld w 8 4) (fld w 3 1) (fld w 0 0)) := by
  unfold decodeCore; rw [h]; rfl

theorem dec_6D (w0 w : Nat) (h : fld w 31 24 = 0x6D) :
    decodeCore w0 w = checked (.amoAnd 1 (fld w 23 19) (fld w 18 14) (fld w 13 9) (fld w 8 4) (fld w 3 1) (fld w 0 0)) := by
  unfold decodeCore; rw [h]; rfl

theorem dec_6E (w0 w : Nat) (h : fld w 31 24 = 0x6E) :
    decodeCore w0 w = checked (.amoAnd 2 (fld w 23 19) (fld w 18 14) (fld w 13 9) (fld w 8 4) (fld w 3 1) (fld w 0 0)) := by
  unfold decodeCore; rw [h]; rfl

theorem dec_6F (w0 w : Nat) (h : fld w 31 24 = 0x6F) :
    decodeCore w0 w = checked (.amoAnd 3 (fld w 23 19) (fld w 18 14) (fld w 13 9) (fld w 8 4) (fld w 3 1) (fld w 0 0)) := by
  unfold decodeCore; rw [h]; rfl

theorem dec_70 (w0 w : Nat) (h : fld w 31 24 = 0x70) :
    decodeCore w0 w = checked (.amoOr 0 (fld w 23 19) (fld w 18 14) (fld w 13 9) (fld w 8 4) (fld w 3 1) (fld w 0 0)) := by
  unfold decodeCore; rw [h]; rfl

theorem dec_71 (w0 w : Nat) (h : fld w 31 24 = 0x71) :
    decodeCore w0 w = checked (.amoOr 1 (fld w 23 19) (fld w 18 14) (fld w 13 9) (fld w 8 4) (fld w 3 1) (fld w 0 0)) := by
  unfold decodeCore; rw [h]; rfl

theorem dec_72 (w0 w : Nat) (h : fld w 31 24 = 0x72) :
    decodeCore w0 w = checked (.amoOr 2 (fld w 23 19) (fld w 18 14) (fld w 13 9) (fld w 8 4) (fld w 3 1) (fld w 0 0)) := by
  unfold decodeCore; rw [h]; rfl

theorem dec_73 (w0 w : Nat) (h : fld w 31 24 = 0x73) :
    decodeCore w0 w = checked (.amoOr 3 (fld w 23 19) (fld w 18 14) (fld w 13 9) (fld w 8 4) (fld w 3 1) (fld w 0 0)) := by
  unfold decodeCore; rw [h]; rfl

theorem dec_74 (w0 w : Nat) (h : fld w 31 24 = 0x74) :
    decodeCore w0 w = checked (.amoXor 0 (fld w 23 19) (fld w 18 14) (fld w 13 9) (fld w 8 4) (fld w 3 1) (fld w 0 0)) := by
  unfold decodeCore; rw [h]; rfl

theorem dec_75 (w0 w : Nat) (h : fld w 31 24 = 0x75) :
    decodeCore w0 w = checked (.amoXor 1 (fld w 23 19) (fld w 18 14) (fld w 13 9) (fld w 8 4) (fld w 3 1) (fld w 0 0)) := by
  unfold decodeCore; rw [h]; rfl

theorem dec_76 (w0 w : Nat) (h : fld w 31 24 = 0x76) :
    decodeCore w0 w = checked (.amoXor 2 (fld w 23 19) (fld w 18 14) (fld w 13 9) (fld w 8 4) (fld w 3 1) (fld w 0 0)) := by
  unfold decodeCore; rw [h]; rfl

theorem dec_77 (w0 w : Nat) (h : fld w 31 24 = 0x77) :
    decodeCore w0 w = checked (.amoXor 3 (fld w 23 19) (fld w 18 14) (fld w 13 9) (fld w 8 4) (fld w 3 1) (fld w 0 0)) := by
  unfold decodeCore; rw [h]; rfl

theorem dec_78 (w0 w : Nat) (h : fld w 31 24 = 0x78) :
    decodeCore w0 w = checked (.amoXchg 0 (fld w 23 19) (fld w 18 14) (fld w 13 9) (fld w 8 4) (fld w 3 1) (fld w 0 0)) := by
  unfold decodeCore; rw [h]; rfl

theorem dec_79 (w0 w : Nat) (h : fld w 31 24 = 0x79) :
    decodeCore w0 w = checked (.amoXchg 1 (fld w 23 19) (fld w 18 14) (fld w 13 9) (fld w 8 4) (fld w 3 1) (fld w 0 0)) := by
  unfold decodeCore; rw [h]; rfl

theorem dec_7A (w0 w : Nat) (h : fld w 31 24 = 0x7A) :
    decodeCore w0 w = checked (.amoXchg 2 (fld w 23 19) (fld w 18 14) (fld w 13 9) (fld w 8 4) (fld w 3 1) (fld w 0 0)) := by
  unfold decodeCore; rw [h]; rfl

theorem dec_7B (w0 w : Nat) (h : fld w 31 24 = 0x7B) :
    decodeCore w0 w = checked (.amoXchg 3 (fld w 23 19) (fld w 18 14) (fld w 13 9) (fld w 8 4) (fld w 3 1) (fld w 0 0)) := by
  unfold decodeCore; rw [h]; rfl

theorem dec_7C (w0 w : Nat) (h : fld w 31 24 = 0x7C) :
    decodeCore w0 w = checked (.amoCas 0 (fld w 23 19) (fld w 18 14) (fld w 13 9) (fld w 8 4) (fld w 3 1) (fld w 0 0)) := by
  unfold decodeCore; rw [h]; rfl

theorem dec_7D (w0 w : Nat) (h : fld w 31 24 = 0x7D) :
    decodeCore w0 w = checked (.amoCas 1 (fld w 23 19) (fld w 18 14) (fld w 13 9) (fld w 8 4) (fld w 3 1) (fld w 0 0)) := by
  unfold decodeCore; rw [h]; rfl

theorem dec_7E (w0 w : Nat) (h : fld w 31 24 = 0x7E) :
    decodeCore w0 w = checked (.amoCas 2 (fld w 23 19) (fld w 18 14) (fld w 13 9) (fld w 8 4) (fld w 3 1) (fld w 0 0)) := by
  unfold decodeCore; rw [h]; rfl

theorem dec_7F (w0 w : Nat) (h : fld w 31 24 = 0x7F) :
    decodeCore w0 w = checked (.amoCas 3 (fld w 23 19) (fld w 18 14) (fld w 13 9) (fld w 8 4) (fld w 3 1) (fld w 0 0)) := by
  unfold decodeCore; rw [h]; rfl

theorem dec_80 (w0 w : Nat) (h : fld w 31 24 = 0x80) :
    decodeCore w0 w = plain (fld w 23 14 + (fld w 7 0)) (.blkt (fld w 13 8)) := by
  unfold decodeCore; rw [h]; rfl

theorem dec_81 (w0 w : Nat) (h : fld w 31 24 = 0x81) :
    decodeCore w0 w = plain (fld w 23 14 + (fld w 7 0)) (.ublkt (fld w 13 8)) := by
  unfold decodeCore; rw [h]; rfl

theorem dec_82 (w0 w : Nat) (h : fld w 31 24 = 0x82) :
    decodeCore w0 w = if bitOf w 7 then plain ((fld w 13 8) + fld w 6 5) (.sendBo (fld w 23 19) (fld w 18 14) (fld w 4 0)) else plain (fld w 7 0) (.send (fld w 23 19) (fld w 18 14) (fld w 13 8)) := by
  unfold decodeCore; rw [h]; rfl

theorem dec_83 (w0 w : Nat) (h : fld w 31 24 = 0x83) :
    decodeCore w0 w = if bitOf w 5 then plain ((fld w 23 19) + fld w 7 6) (.bosetClr (fld w 18 14) (fld w 13 8) (fld w 4 0)) else plain ((fld w 23 19) + fld w 7 6) (.boset (fld w 18 14) (fld w 13 8) (fld w 4 0)) := by
  unfold decodeCore; rw [h]; rfl

theorem dec_84 (w0 w : Nat) (h : fld w 31 24 = 0x84) :
    decodeCore w0 w = plain (fld w 23 5) (.boarm (fld w 4 0)) := by
  unfold decodeCore; rw [h]; rfl

theorem dec_88 (w0 w : Nat) (h : fld w 31 24 = 0x88) :
    decodeCore w0 w = plain (fld w 13 8) (.spawn (fld w 23 19) (fld w 18 14) (fld w 7 0)) := by
  unfold decodeCore; rw [h]; rfl

theorem dec_89 (w0 w : Nat) (h : fld w 31 24 = 0x89) :
    decodeCore w0 w = plain (fld w 23 14 + (fld w 7 0)) (.join (fld w 13 8)) := by
  unfold decodeCore; rw [h]; rfl

theorem dec_8A (w0 w : Nat) (h : fld w 31 24 = 0x8A) :
    decodeCore w0 w = if bitOf w 0 then plain ((fld w 23 19) + fld w 13 1) (.rfwdRet (fld w 18 14)) else plain ((fld w 23 19) + fld w 13 1) (.rfwd (fld w 18 14)) := by
  unfold decodeCore; rw [h]; rfl

theorem dec_90 (w0 w : Nat) (h : fld w 31 24 = 0x90) :
    decodeCore w0 w = if bitOf w 3 then plain (fld w 23 19) (.strmTemplate (fld w 18 14) (fld w 13 8) (fld w 7 4) (fld w 2 0)) else plain ((fld w 23 19) + fld w 7 4) (.strm (fld w 18 14) (fld w 13 8) (fld w 2 0)) := by
  unfold decodeCore; rw [h]; rfl

theorem dec_91 (w0 w : Nat) (h : fld w 31 24 = 0x91) :
    decodeCore w0 w = plain (fld w 23 20 + (fld w 18 14)) (.sbar (fld w 19 19) (fld w 13 8) (fld w 7 0)) := by
  unfold decodeCore; rw [h]; rfl

theorem dec_92 (w0 w : Nat) (h : fld w 31 24 = 0x92) :
    decodeCore w0 w = plain (fld w 23 14 + fld w 7 7) (.cfgl (fld w 13 8) (fld w 6 6) (fld w 5 4) (fld w 3 0)) := by
  unfold decodeCore; rw [h]; rfl

theorem dec_93 (w0 w : Nat) (h : fld w 31 24 = 0x93) :
    decodeCore w0 w = plain (fld w 23 14 + fld w 7 6) (.cfgbank (fld w 13 8) (fld w 5 4) (fld w 3 0)) := by
  unfold decodeCore; rw [h]; rfl

theorem dec_94 (w0 w : Nat) (h : fld w 31 24 = 0x94) :
    decodeCore w0 w = plain (fld w 23 3) (.ctsw (fld w 2 0)) := by
  unfold decodeCore; rw [h]; rfl

theorem dec_98 (w0 w : Nat) (h : fld w 31 24 = 0x98) :
    decodeCore w0 w = if bitOf w 7 then plain ((fld w 23 19) + (fld w 13 8) + fld w 6 3) (.eqwPort (fld w 18 14) (fld w 2 0)) else plain ((fld w 23 19) + (fld w 13 8) + fld w 6 3) (.eqw (fld w 18 14) (fld w 2 0)) := by
  unfold decodeCore; rw [h]; rfl

theorem dec_99 (w0 w : Nat) (h : fld w 31 24 = 0x99) :
    decodeCore w0 w = plain (fld w 23 19 + fld w 7 3) (.copy (fld w 18 14) (fld w 13 8) (fld w 2 0)) := by
  unfold decodeCore; rw [h]; rfl

theorem dec_9A (w0 w : Nat) (h : fld w 31 24 = 0x9A) :
    decodeCore w0 w = plain (fld w 23 19 + fld w 7 3) (.publ (fld w 18 14) (fld w 13 8) (fld w 2 0)) := by
  unfold decodeCore; rw [h]; rfl

theorem dec_A0 (w0 w : Nat) (h : fld w 31 24 = 0xA0) :
    decodeCore w0 w = plain (fld w 23 19 + fld w 7 3) (.mv (fld w 18 14) (fld w 13 8) (fld w 2 0)) := by
  unfold decodeCore; rw [h]; rfl

theorem dec_A1 (w0 w : Nat) (h : fld w 31 24 = 0xA1) :
    decodeCore w0 w = plain (fld w 23 19 + fld w 7 3) (.scout (fld w 18 14) (fld w 13 8) (fld w 2 0)) := by
  unfold decodeCore; rw [h]; rfl

theorem dec_A2 (w0 w : Nat) (h : fld w 31 24 = 0xA2) :
    decodeCore w0 w = plain (fld w 23 19 + fld w 7 3) (.attn (fld w 18 14) (fld w 13 8) (fld w 2 0)) := by
  unfold decodeCore; rw [h]; rfl

theorem dec_A3 (w0 w : Nat) (h : fld w 31 24 = 0xA3) :
    decodeCore w0 w = if fld w0 31 30 = 1 then plain (fld w 23 19 + fld w 7 3) (.iredGatherMax (fld w 18 14) (fld w 13 8) (fld w 2 0)) else if fld w0 31 30 = 2 then plain (fld w 23 19 + fld w 7 3) (.iredAtomic (fld w 18 14) (fld w 13 8) (fld w 2 0)) else plain (fld w 23 19 + fld w 7 3) (.iredGatherSum (fld w 18 14) (fld w 13 8) (fld w 2 0)) := by
  unfold decodeCore; rw [h]; rfl

theorem dec_A4 (w0 w : Nat) (h : fld w 31 24 = 0xA4) :
    decodeCore w0 w = plain (fld w 23 19 + fld w 7 3) (.collTri (fld w 18 14) (fld w 13 8) (fld w 2 0)) := by
  unfold decodeCore; rw [h]; rfl

theorem dec_A5 (w0 w : Nat) (h : fld w 31 24 = 0xA5) :
    decodeCore w0 w = plain (fld w 23 19 + fld w 7 3) (.collSum (fld w 18 14) (fld w 13 8) (fld w 2 0)) := by
  unfold decodeCore; rw [h]; rfl

theorem dec_A6 (w0 w : Nat) (h : fld w 31 24 = 0xA6) :
    decodeCore w0 w = plain (fld w 23 19 + fld w 7 3) (.collMax (fld w 18 14) (fld w 13 8) (fld w 2 0)) := by
  unfold decodeCore; rw [h]; rfl

theorem dec_A7 (w0 w : Nat) (h : fld w 31 24 = 0xA7) :
    decodeCore w0 w = plain (fld w 23 19 + fld w 7 3) (.collGath (fld w 18 14) (fld w 13 8) (fld w 2 0)) := by
  unfold decodeCore; rw [h]; rfl

theorem dec_A8 (w0 w : Nat) (h : fld w 31 24 = 0xA8) :
    decodeCore w0 w = plain (fld w 23 19 + fld w 7 3) (.collSmp (fld w 18 14) (fld w 13 8) (fld w 2 0)) := by
  unfold decodeCore; rw [h]; rfl

theorem dec_A9 (w0 w : Nat) (h : fld w 31 24 = 0xA9) :
    decodeCore w0 w = plain (fld w 23 19 + fld w 7 3) (.sample (fld w 18 14) (fld w 13 8) (fld w 2 0)) := by
  unfold decodeCore; rw [h]; rfl

theorem dec_AA (w0 w : Nat) (h : fld w 31 24 = 0xAA) :
    decodeCore w0 w = plain (fld w 23 19 + fld w 7 3) (.wbuild (fld w 18 14) (fld w 13 8) (fld w 2 0)) := by
  unfold decodeCore; rw [h]; rfl

theorem dec_AB (w0 w : Nat) (h : fld w 31 24 = 0xAB) :
    decodeCore w0 w = plain (fld w 23 19 + fld w 7 3) (.wswitch (fld w 18 14) (fld w 13 8) (fld w 2 0)) := by
  unfold decodeCore; rw [h]; rfl

theorem dec_AC (w0 w : Nat) (h : fld w 31 24 = 0xAC) :
    decodeCore w0 w = if bitOf w0 31 then plain (fld w 23 19 + fld w 7 3) (.promoDemote (fld w 18 14) (fld w 13 8) (fld w 2 0)) else plain (fld w 23 19 + fld w 7 3) (.promo (fld w 18 14) (fld w 13 8) (fld w 2 0)) := by
  unfold decodeCore; rw [h]; rfl

theorem dec_B0 (w0 w : Nat) (h : fld w 31 24 = 0xB0) :
    decodeCore w0 w = plain (fld w 18 0) (.tnow (fld w 23 19)) := by
  unfold decodeCore; rw [h]; rfl

theorem dec_B1 (w0 w : Nat) (h : fld w 31 24 = 0xB1) :
    decodeCore w0 w = plain ((fld w 23 19) + fld w 13 6) (.thold (fld w 18 14) (fld w 5 0)) := by
  unfold decodeCore; rw [h]; rfl

theorem dec_B8 (w0 w : Nat) (h : fld w 31 24 = 0xB8) :
    decodeCore w0 w = plain (fld w 18 14) (.csrr (fld w 23 19) (fld w 13 0)) := by
  unfold decodeCore; rw [h]; rfl

theorem dec_B9 (w0 w : Nat) (h : fld w 31 24 = 0xB9) :
    decodeCore w0 w = if (fld w 23 19) = 0 then decodeCsrw (fld w 18 14) (fld w 13 0) else .error .unusedField := by
  unfold decodeCore; rw [h]; rfl

theorem dec_BA (w0 w : Nat) (h : fld w 31 24 = 0xBA) :
    decodeCore w0 w = plain (fld w 23 19) (.sysc (fld w 18 14) (fld w 13 8) (fld w 7 0)) := by
  unfold decodeCore; rw [h]; rfl

theorem dec_BB (w0 w : Nat) (h : fld w 31 24 = 0xBB) :
    decodeCore w0 w = if bitOf w 0 then plain ((fld w 23 19) + fld w 13 1) (.eretAbort (fld w 18 14)) else plain ((fld w 23 19) + fld w 13 1) (.eret (fld w 18 14)) := by
  unfold decodeCore; rw [h]; rfl

theorem dec_BC (w0 w : Nat) (h : fld w 31 24 = 0xBC) :
    decodeCore w0 w = plain (fld w 23 8) (.trap (fld w 7 0)) := by
  unfold decodeCore; rw [h]; rfl

theorem dec_BD (w0 w : Nat) (h : fld w 31 24 = 0xBD) :
    decodeCore w0 w = plain (fld w 23 0) .halt := by
  unfold decodeCore; rw [h]; rfl

/-! ### The family -/

theorem add (d : Nat) (a : Nat) (b : Nat) : Statement (.add d a b) := by
  refine of_core rfl (fun hOk w0 hf => ?_)
  have hb := of_decide_eq_true hOk
  have hOp : fld (wordR 0x1 d a b 0) 31 24 = 1 := by ((try simp only [fld, bitOf, wordR, beq_iff_eq, beq_eq_false_iff_ne, ne_eq]); omega)
  rw [dec_01 _ _ hOp]
  exact plain_eq (by ((try simp only [fld, bitOf, wordR, beq_iff_eq, beq_eq_false_iff_ne, ne_eq]); omega)) (by congr 1 <;> ((try simp only [fld, bitOf, wordR, beq_iff_eq, beq_eq_false_iff_ne, ne_eq]); omega)) hOk

theorem sub (d : Nat) (a : Nat) (b : Nat) : Statement (.sub d a b) := by
  refine of_core rfl (fun hOk w0 hf => ?_)
  have hb := of_decide_eq_true hOk
  have hOp : fld (wordR 0x2 d a b 0) 31 24 = 2 := by ((try simp only [fld, bitOf, wordR, beq_iff_eq, beq_eq_false_iff_ne, ne_eq]); omega)
  rw [dec_02 _ _ hOp]
  exact plain_eq (by ((try simp only [fld, bitOf, wordR, beq_iff_eq, beq_eq_false_iff_ne, ne_eq]); omega)) (by congr 1 <;> ((try simp only [fld, bitOf, wordR, beq_iff_eq, beq_eq_false_iff_ne, ne_eq]); omega)) hOk

theorem mul (d : Nat) (a : Nat) (b : Nat) : Statement (.mul d a b) := by
  refine of_core rfl (fun hOk w0 hf => ?_)
  have hb := of_decide_eq_true hOk
  have hOp : fld (wordR 0x3 d a b 0) 31 24 = 3 := by ((try simp only [fld, bitOf, wordR, beq_iff_eq, beq_eq_false_iff_ne, ne_eq]); omega)
  rw [dec_03 _ _ hOp]
  exact plain_eq (by ((try simp only [fld, bitOf, wordR, beq_iff_eq, beq_eq_false_iff_ne, ne_eq]); omega)) (by congr 1 <;> ((try simp only [fld, bitOf, wordR, beq_iff_eq, beq_eq_false_iff_ne, ne_eq]); omega)) hOk

theorem mulh (d : Nat) (a : Nat) (b : Nat) : Statement (.mulh d a b) := by
  refine of_core rfl (fun hOk w0 hf => ?_)
  have hb := of_decide_eq_true hOk
  have hOp : fld (wordR 0x4 d a b 0) 31 24 = 4 := by ((try simp only [fld, bitOf, wordR, beq_iff_eq, beq_eq_false_iff_ne, ne_eq]); omega)
  rw [dec_04 _ _ hOp]
  exact plain_eq (by ((try simp only [fld, bitOf, wordR, beq_iff_eq, beq_eq_false_iff_ne, ne_eq]); omega)) (by congr 1 <;> ((try simp only [fld, bitOf, wordR, beq_iff_eq, beq_eq_false_iff_ne, ne_eq]); omega)) hOk

theorem mulhu (d : Nat) (a : Nat) (b : Nat) : Statement (.mulhu d a b) := by
  refine of_core rfl (fun hOk w0 hf => ?_)
  have hb := of_decide_eq_true hOk
  have hOp : fld (wordR 0x5 d a b 0) 31 24 = 5 := by ((try simp only [fld, bitOf, wordR, beq_iff_eq, beq_eq_false_iff_ne, ne_eq]); omega)
  rw [dec_05 _ _ hOp]
  exact plain_eq (by ((try simp only [fld, bitOf, wordR, beq_iff_eq, beq_eq_false_iff_ne, ne_eq]); omega)) (by congr 1 <;> ((try simp only [fld, bitOf, wordR, beq_iff_eq, beq_eq_false_iff_ne, ne_eq]); omega)) hOk

theorem div (d : Nat) (a : Nat) (b : Nat) : Statement (.div d a b) := by
  refine of_core rfl (fun hOk w0 hf => ?_)
  have hb := of_decide_eq_true hOk
  have hOp : fld (wordR 0x6 d a b 0) 31 24 = 6 := by ((try simp only [fld, bitOf, wordR, beq_iff_eq, beq_eq_false_iff_ne, ne_eq]); omega)
  rw [dec_06 _ _ hOp]
  exact plain_eq (by ((try simp only [fld, bitOf, wordR, beq_iff_eq, beq_eq_false_iff_ne, ne_eq]); omega)) (by congr 1 <;> ((try simp only [fld, bitOf, wordR, beq_iff_eq, beq_eq_false_iff_ne, ne_eq]); omega)) hOk

theorem divu (d : Nat) (a : Nat) (b : Nat) : Statement (.divu d a b) := by
  refine of_core rfl (fun hOk w0 hf => ?_)
  have hb := of_decide_eq_true hOk
  have hOp : fld (wordR 0x7 d a b 0) 31 24 = 7 := by ((try simp only [fld, bitOf, wordR, beq_iff_eq, beq_eq_false_iff_ne, ne_eq]); omega)
  rw [dec_07 _ _ hOp]
  exact plain_eq (by ((try simp only [fld, bitOf, wordR, beq_iff_eq, beq_eq_false_iff_ne, ne_eq]); omega)) (by congr 1 <;> ((try simp only [fld, bitOf, wordR, beq_iff_eq, beq_eq_false_iff_ne, ne_eq]); omega)) hOk

theorem rem (d : Nat) (a : Nat) (b : Nat) : Statement (.rem d a b) := by
  refine of_core rfl (fun hOk w0 hf => ?_)
  have hb := of_decide_eq_true hOk
  have hOp : fld (wordR 0x8 d a b 0) 31 24 = 8 := by ((try simp only [fld, bitOf, wordR, beq_iff_eq, beq_eq_false_iff_ne, ne_eq]); omega)
  rw [dec_08 _ _ hOp]
  exact plain_eq (by ((try simp only [fld, bitOf, wordR, beq_iff_eq, beq_eq_false_iff_ne, ne_eq]); omega)) (by congr 1 <;> ((try simp only [fld, bitOf, wordR, beq_iff_eq, beq_eq_false_iff_ne, ne_eq]); omega)) hOk

theorem remu (d : Nat) (a : Nat) (b : Nat) : Statement (.remu d a b) := by
  refine of_core rfl (fun hOk w0 hf => ?_)
  have hb := of_decide_eq_true hOk
  have hOp : fld (wordR 0x9 d a b 0) 31 24 = 9 := by ((try simp only [fld, bitOf, wordR, beq_iff_eq, beq_eq_false_iff_ne, ne_eq]); omega)
  rw [dec_09 _ _ hOp]
  exact plain_eq (by ((try simp only [fld, bitOf, wordR, beq_iff_eq, beq_eq_false_iff_ne, ne_eq]); omega)) (by congr 1 <;> ((try simp only [fld, bitOf, wordR, beq_iff_eq, beq_eq_false_iff_ne, ne_eq]); omega)) hOk

theorem and (d : Nat) (a : Nat) (b : Nat) : Statement (.and d a b) := by
  refine of_core rfl (fun hOk w0 hf => ?_)
  have hb := of_decide_eq_true hOk
  have hOp : fld (wordR 0xa d a b 0) 31 24 = 10 := by ((try simp only [fld, bitOf, wordR, beq_iff_eq, beq_eq_false_iff_ne, ne_eq]); omega)
  rw [dec_0A _ _ hOp]
  exact plain_eq (by ((try simp only [fld, bitOf, wordR, beq_iff_eq, beq_eq_false_iff_ne, ne_eq]); omega)) (by congr 1 <;> ((try simp only [fld, bitOf, wordR, beq_iff_eq, beq_eq_false_iff_ne, ne_eq]); omega)) hOk

theorem or (d : Nat) (a : Nat) (b : Nat) : Statement (.or d a b) := by
  refine of_core rfl (fun hOk w0 hf => ?_)
  have hb := of_decide_eq_true hOk
  have hOp : fld (wordR 0xb d a b 0) 31 24 = 11 := by ((try simp only [fld, bitOf, wordR, beq_iff_eq, beq_eq_false_iff_ne, ne_eq]); omega)
  rw [dec_0B _ _ hOp]
  exact plain_eq (by ((try simp only [fld, bitOf, wordR, beq_iff_eq, beq_eq_false_iff_ne, ne_eq]); omega)) (by congr 1 <;> ((try simp only [fld, bitOf, wordR, beq_iff_eq, beq_eq_false_iff_ne, ne_eq]); omega)) hOk

theorem xor (d : Nat) (a : Nat) (b : Nat) : Statement (.xor d a b) := by
  refine of_core rfl (fun hOk w0 hf => ?_)
  have hb := of_decide_eq_true hOk
  have hOp : fld (wordR 0xc d a b 0) 31 24 = 12 := by ((try simp only [fld, bitOf, wordR, beq_iff_eq, beq_eq_false_iff_ne, ne_eq]); omega)
  rw [dec_0C _ _ hOp]
  exact plain_eq (by ((try simp only [fld, bitOf, wordR, beq_iff_eq, beq_eq_false_iff_ne, ne_eq]); omega)) (by congr 1 <;> ((try simp only [fld, bitOf, wordR, beq_iff_eq, beq_eq_false_iff_ne, ne_eq]); omega)) hOk

theorem andn (d : Nat) (a : Nat) (b : Nat) : Statement (.andn d a b) := by
  refine of_core rfl (fun hOk w0 hf => ?_)
  have hb := of_decide_eq_true hOk
  have hOp : fld (wordR 0xd d a b 0) 31 24 = 13 := by ((try simp only [fld, bitOf, wordR, beq_iff_eq, beq_eq_false_iff_ne, ne_eq]); omega)
  rw [dec_0D _ _ hOp]
  exact plain_eq (by ((try simp only [fld, bitOf, wordR, beq_iff_eq, beq_eq_false_iff_ne, ne_eq]); omega)) (by congr 1 <;> ((try simp only [fld, bitOf, wordR, beq_iff_eq, beq_eq_false_iff_ne, ne_eq]); omega)) hOk

theorem shl (d : Nat) (a : Nat) (b : Nat) : Statement (.shl d a b) := by
  refine of_core rfl (fun hOk w0 hf => ?_)
  have hb := of_decide_eq_true hOk
  have hOp : fld (wordR 0xe d a b 0) 31 24 = 14 := by ((try simp only [fld, bitOf, wordR, beq_iff_eq, beq_eq_false_iff_ne, ne_eq]); omega)
  rw [dec_0E _ _ hOp]
  exact plain_eq (by ((try simp only [fld, bitOf, wordR, beq_iff_eq, beq_eq_false_iff_ne, ne_eq]); omega)) (by congr 1 <;> ((try simp only [fld, bitOf, wordR, beq_iff_eq, beq_eq_false_iff_ne, ne_eq]); omega)) hOk

theorem shr (d : Nat) (a : Nat) (b : Nat) : Statement (.shr d a b) := by
  refine of_core rfl (fun hOk w0 hf => ?_)
  have hb := of_decide_eq_true hOk
  have hOp : fld (wordR 0xf d a b 0) 31 24 = 15 := by ((try simp only [fld, bitOf, wordR, beq_iff_eq, beq_eq_false_iff_ne, ne_eq]); omega)
  rw [dec_0F _ _ hOp]
  exact plain_eq (by ((try simp only [fld, bitOf, wordR, beq_iff_eq, beq_eq_false_iff_ne, ne_eq]); omega)) (by congr 1 <;> ((try simp only [fld, bitOf, wordR, beq_iff_eq, beq_eq_false_iff_ne, ne_eq]); omega)) hOk

theorem sar (d : Nat) (a : Nat) (b : Nat) : Statement (.sar d a b) := by
  refine of_core rfl (fun hOk w0 hf => ?_)
  have hb := of_decide_eq_true hOk
  have hOp : fld (wordR 0x10 d a b 0) 31 24 = 16 := by ((try simp only [fld, bitOf, wordR, beq_iff_eq, beq_eq_false_iff_ne, ne_eq]); omega)
  rw [dec_10 _ _ hOp]
  exact plain_eq (by ((try simp only [fld, bitOf, wordR, beq_iff_eq, beq_eq_false_iff_ne, ne_eq]); omega)) (by congr 1 <;> ((try simp only [fld, bitOf, wordR, beq_iff_eq, beq_eq_false_iff_ne, ne_eq]); omega)) hOk

theorem rot (d : Nat) (a : Nat) (b : Nat) : Statement (.rot d a b) := by
  refine of_core rfl (fun hOk w0 hf => ?_)
  have hb := of_decide_eq_true hOk
  have hOp : fld (wordR 0x11 d a b 0) 31 24 = 17 := by ((try simp only [fld, bitOf, wordR, beq_iff_eq, beq_eq_false_iff_ne, ne_eq]); omega)
  rw [dec_11 _ _ hOp]
  exact plain_eq (by ((try simp only [fld, bitOf, wordR, beq_iff_eq, beq_eq_false_iff_ne, ne_eq]); omega)) (by congr 1 <;> ((try simp only [fld, bitOf, wordR, beq_iff_eq, beq_eq_false_iff_ne, ne_eq]); omega)) hOk

theorem clz (d : Nat) (a : Nat) : Statement (.clz d a) := by
  refine of_core rfl (fun hOk w0 hf => ?_)
  have hb := of_decide_eq_true hOk
  have hOp : fld (wordI 0x12 d a (0)) 31 24 = 18 := by ((try simp only [fld, bitOf, wordI, beq_iff_eq, beq_eq_false_iff_ne, ne_eq]); omega)
  rw [dec_12 _ _ hOp]
  exact plain_eq (by ((try simp only [fld, bitOf, wordI, beq_iff_eq, beq_eq_false_iff_ne, ne_eq]); omega)) (by congr 1 <;> ((try simp only [fld, bitOf, wordI, beq_iff_eq, beq_eq_false_iff_ne, ne_eq]); omega)) hOk

theorem popc (d : Nat) (a : Nat) : Statement (.popc d a) := by
  refine of_core rfl (fun hOk w0 hf => ?_)
  have hb := of_decide_eq_true hOk
  have hOp : fld (wordI 0x13 d a (0)) 31 24 = 19 := by ((try simp only [fld, bitOf, wordI, beq_iff_eq, beq_eq_false_iff_ne, ne_eq]); omega)
  rw [dec_13 _ _ hOp]
  exact plain_eq (by ((try simp only [fld, bitOf, wordI, beq_iff_eq, beq_eq_false_iff_ne, ne_eq]); omega)) (by congr 1 <;> ((try simp only [fld, bitOf, wordI, beq_iff_eq, beq_eq_false_iff_ne, ne_eq]); omega)) hOk

theorem cseq (d : Nat) (a : Nat) (b : Nat) : Statement (.cseq d a b) := by
  refine of_core rfl (fun hOk w0 hf => ?_)
  have hb := of_decide_eq_true hOk
  have hOp : fld (wordR 0x14 d a b 0) 31 24 = 20 := by ((try simp only [fld, bitOf, wordR, beq_iff_eq, beq_eq_false_iff_ne, ne_eq]); omega)
  rw [dec_14 _ _ hOp]
  exact plain_eq (by ((try simp only [fld, bitOf, wordR, beq_iff_eq, beq_eq_false_iff_ne, ne_eq]); omega)) (by congr 1 <;> ((try simp only [fld, bitOf, wordR, beq_iff_eq, beq_eq_false_iff_ne, ne_eq]); omega)) hOk

theorem csne (d : Nat) (a : Nat) (b : Nat) : Statement (.csne d a b) := by
  refine of_core rfl (fun hOk w0 hf => ?_)
  have hb := of_decide_eq_true hOk
  have hOp : fld (wordR 0x15 d a b 0) 31 24 = 21 := by ((try simp only [fld, bitOf, wordR, beq_iff_eq, beq_eq_false_iff_ne, ne_eq]); omega)
  rw [dec_15 _ _ hOp]
  exact plain_eq (by ((try simp only [fld, bitOf, wordR, beq_iff_eq, beq_eq_false_iff_ne, ne_eq]); omega)) (by congr 1 <;> ((try simp only [fld, bitOf, wordR, beq_iff_eq, beq_eq_false_iff_ne, ne_eq]); omega)) hOk

theorem cslt (d : Nat) (a : Nat) (b : Nat) : Statement (.cslt d a b) := by
  refine of_core rfl (fun hOk w0 hf => ?_)
  have hb := of_decide_eq_true hOk
  have hOp : fld (wordR 0x16 d a b 0) 31 24 = 22 := by ((try simp only [fld, bitOf, wordR, beq_iff_eq, beq_eq_false_iff_ne, ne_eq]); omega)
  rw [dec_16 _ _ hOp]
  exact plain_eq (by ((try simp only [fld, bitOf, wordR, beq_iff_eq, beq_eq_false_iff_ne, ne_eq]); omega)) (by congr 1 <;> ((try simp only [fld, bitOf, wordR, beq_iff_eq, beq_eq_false_iff_ne, ne_eq]); omega)) hOk

theorem csle (d : Nat) (a : Nat) (b : Nat) : Statement (.csle d a b) := by
  refine of_core rfl (fun hOk w0 hf => ?_)
  have hb := of_decide_eq_true hOk
  have hOp : fld (wordR 0x17 d a b 0) 31 24 = 23 := by ((try simp only [fld, bitOf, wordR, beq_iff_eq, beq_eq_false_iff_ne, ne_eq]); omega)
  rw [dec_17 _ _ hOp]
  exact plain_eq (by ((try simp only [fld, bitOf, wordR, beq_iff_eq, beq_eq_false_iff_ne, ne_eq]); omega)) (by congr 1 <;> ((try simp only [fld, bitOf, wordR, beq_iff_eq, beq_eq_false_iff_ne, ne_eq]); omega)) hOk

theorem csltu (d : Nat) (a : Nat) (b : Nat) : Statement (.csltu d a b) := by
  refine of_core rfl (fun hOk w0 hf => ?_)
  have hb := of_decide_eq_true hOk
  have hOp : fld (wordR 0x18 d a b 0) 31 24 = 24 := by ((try simp only [fld, bitOf, wordR, beq_iff_eq, beq_eq_false_iff_ne, ne_eq]); omega)
  rw [dec_18 _ _ hOp]
  exact plain_eq (by ((try simp only [fld, bitOf, wordR, beq_iff_eq, beq_eq_false_iff_ne, ne_eq]); omega)) (by congr 1 <;> ((try simp only [fld, bitOf, wordR, beq_iff_eq, beq_eq_false_iff_ne, ne_eq]); omega)) hOk

theorem csleu (d : Nat) (a : Nat) (b : Nat) : Statement (.csleu d a b) := by
  refine of_core rfl (fun hOk w0 hf => ?_)
  have hb := of_decide_eq_true hOk
  have hOp : fld (wordR 0x19 d a b 0) 31 24 = 25 := by ((try simp only [fld, bitOf, wordR, beq_iff_eq, beq_eq_false_iff_ne, ne_eq]); omega)
  rw [dec_19 _ _ hOp]
  exact plain_eq (by ((try simp only [fld, bitOf, wordR, beq_iff_eq, beq_eq_false_iff_ne, ne_eq]); omega)) (by congr 1 <;> ((try simp only [fld, bitOf, wordR, beq_iff_eq, beq_eq_false_iff_ne, ne_eq]); omega)) hOk

theorem adds (d : Nat) (a : Nat) (b : Nat) (s : Nat) : Statement (.adds d a b s) := by
  refine of_core rfl (fun hOk w0 hf => ?_)
  have hb := of_decide_eq_true hOk
  have hOp : fld (wordR 0x1a d a b (s)) 31 24 = 26 := by ((try simp only [fld, bitOf, wordR, beq_iff_eq, beq_eq_false_iff_ne, ne_eq]); omega)
  rw [dec_1A _ _ hOp]
  exact plain_eq (by ((try simp only [fld, bitOf, wordR, beq_iff_eq, beq_eq_false_iff_ne, ne_eq]); omega)) (by congr 1 <;> ((try simp only [fld, bitOf, wordR, beq_iff_eq, beq_eq_false_iff_ne, ne_eq]); omega)) hOk

theorem min (d : Nat) (a : Nat) (b : Nat) : Statement (.min d a b) := by
  refine of_core rfl (fun hOk w0 hf => ?_)
  have hb := of_decide_eq_true hOk
  have hOp : fld (wordR 0x1b d a b 0) 31 24 = 27 := by ((try simp only [fld, bitOf, wordR, beq_iff_eq, beq_eq_false_iff_ne, ne_eq]); omega)
  rw [dec_1B _ _ hOp]
  exact plain_eq (by ((try simp only [fld, bitOf, wordR, beq_iff_eq, beq_eq_false_iff_ne, ne_eq]); omega)) (by congr 1 <;> ((try simp only [fld, bitOf, wordR, beq_iff_eq, beq_eq_false_iff_ne, ne_eq]); omega)) hOk

theorem max (d : Nat) (a : Nat) (b : Nat) : Statement (.max d a b) := by
  refine of_core rfl (fun hOk w0 hf => ?_)
  have hb := of_decide_eq_true hOk
  have hOp : fld (wordR 0x1c d a b 0) 31 24 = 28 := by ((try simp only [fld, bitOf, wordR, beq_iff_eq, beq_eq_false_iff_ne, ne_eq]); omega)
  rw [dec_1C _ _ hOp]
  exact plain_eq (by ((try simp only [fld, bitOf, wordR, beq_iff_eq, beq_eq_false_iff_ne, ne_eq]); omega)) (by congr 1 <;> ((try simp only [fld, bitOf, wordR, beq_iff_eq, beq_eq_false_iff_ne, ne_eq]); omega)) hOk

theorem addi (d : Nat) (a : Nat) (i : Nat) : Statement (.addi d a i) := by
  refine of_core rfl (fun hOk w0 hf => ?_)
  have hb := of_decide_eq_true hOk
  have hOp : fld (wordI 0x20 d a (i)) 31 24 = 32 := by ((try simp only [fld, bitOf, wordI, beq_iff_eq, beq_eq_false_iff_ne, ne_eq]); omega)
  rw [dec_20 _ _ hOp]
  exact checked_eq (by congr 1 <;> ((try simp only [fld, bitOf, wordI, beq_iff_eq, beq_eq_false_iff_ne, ne_eq]); omega)) hOk

theorem andi (d : Nat) (a : Nat) (i : Nat) : Statement (.andi d a i) := by
  refine of_core rfl (fun hOk w0 hf => ?_)
  have hb := of_decide_eq_true hOk
  have hOp : fld (wordI 0x21 d a (i)) 31 24 = 33 := by ((try simp only [fld, bitOf, wordI, beq_iff_eq, beq_eq_false_iff_ne, ne_eq]); omega)
  rw [dec_21 _ _ hOp]
  exact checked_eq (by congr 1 <;> ((try simp only [fld, bitOf, wordI, beq_iff_eq, beq_eq_false_iff_ne, ne_eq]); omega)) hOk

theorem ori (d : Nat) (a : Nat) (i : Nat) : Statement (.ori d a i) := by
  refine of_core rfl (fun hOk w0 hf => ?_)
  have hb := of_decide_eq_true hOk
  have hOp : fld (wordI 0x22 d a (i)) 31 24 = 34 := by ((try simp only [fld, bitOf, wordI, beq_iff_eq, beq_eq_false_iff_ne, ne_eq]); omega)
  rw [dec_22 _ _ hOp]
  exact checked_eq (by congr 1 <;> ((try simp only [fld, bitOf, wordI, beq_iff_eq, beq_eq_false_iff_ne, ne_eq]); omega)) hOk

theorem xori (d : Nat) (a : Nat) (i : Nat) : Statement (.xori d a i) := by
  refine of_core rfl (fun hOk w0 hf => ?_)
  have hb := of_decide_eq_true hOk
  have hOp : fld (wordI 0x23 d a (i)) 31 24 = 35 := by ((try simp only [fld, bitOf, wordI, beq_iff_eq, beq_eq_false_iff_ne, ne_eq]); omega)
  rw [dec_23 _ _ hOp]
  exact checked_eq (by congr 1 <;> ((try simp only [fld, bitOf, wordI, beq_iff_eq, beq_eq_false_iff_ne, ne_eq]); omega)) hOk

theorem shli (d : Nat) (a : Nat) (i : Nat) : Statement (.shli d a i) := by
  refine of_core rfl (fun hOk w0 hf => ?_)
  have hb := of_decide_eq_true hOk
  have hOp : fld (wordI 0x24 d a (i)) 31 24 = 36 := by ((try simp only [fld, bitOf, wordI, beq_iff_eq, beq_eq_false_iff_ne, ne_eq]); omega)
  rw [dec_24 _ _ hOp]
  exact plain_eq (by ((try simp only [fld, bitOf, wordI, beq_iff_eq, beq_eq_false_iff_ne, ne_eq]); omega)) (by congr 1 <;> ((try simp only [fld, bitOf, wordI, beq_iff_eq, beq_eq_false_iff_ne, ne_eq]); omega)) hOk

theorem shri (d : Nat) (a : Nat) (i : Nat) : Statement (.shri d a i) := by
  refine of_core rfl (fun hOk w0 hf => ?_)
  have hb := of_decide_eq_true hOk
  have hOp : fld (wordI 0x25 d a (i)) 31 24 = 37 := by ((try simp only [fld, bitOf, wordI, beq_iff_eq, beq_eq_false_iff_ne, ne_eq]); omega)
  rw [dec_25 _ _ hOp]
  exact plain_eq (by ((try simp only [fld, bitOf, wordI, beq_iff_eq, beq_eq_false_iff_ne, ne_eq]); omega)) (by congr 1 <;> ((try simp only [fld, bitOf, wordI, beq_iff_eq, beq_eq_false_iff_ne, ne_eq]); omega)) hOk

theorem sari (d : Nat) (a : Nat) (i : Nat) : Statement (.sari d a i) := by
  refine of_core rfl (fun hOk w0 hf => ?_)
  have hb := of_decide_eq_true hOk
  have hOp : fld (wordI 0x26 d a (i)) 31 24 = 38 := by ((try simp only [fld, bitOf, wordI, beq_iff_eq, beq_eq_false_iff_ne, ne_eq]); omega)
  rw [dec_26 _ _ hOp]
  exact plain_eq (by ((try simp only [fld, bitOf, wordI, beq_iff_eq, beq_eq_false_iff_ne, ne_eq]); omega)) (by congr 1 <;> ((try simp only [fld, bitOf, wordI, beq_iff_eq, beq_eq_false_iff_ne, ne_eq]); omega)) hOk

theorem cslti (d : Nat) (a : Nat) (i : Nat) : Statement (.cslti d a i) := by
  refine of_core rfl (fun hOk w0 hf => ?_)
  have hb := of_decide_eq_true hOk
  have hOp : fld (wordI 0x27 d a (i)) 31 24 = 39 := by ((try simp only [fld, bitOf, wordI, beq_iff_eq, beq_eq_false_iff_ne, ne_eq]); omega)
  rw [dec_27 _ _ hOp]
  exact checked_eq (by congr 1 <;> ((try simp only [fld, bitOf, wordI, beq_iff_eq, beq_eq_false_iff_ne, ne_eq]); omega)) hOk

theorem cseqi (d : Nat) (a : Nat) (i : Nat) : Statement (.cseqi d a i) := by
  refine of_core rfl (fun hOk w0 hf => ?_)
  have hb := of_decide_eq_true hOk
  have hOp : fld (wordI 0x28 d a (i)) 31 24 = 40 := by ((try simp only [fld, bitOf, wordI, beq_iff_eq, beq_eq_false_iff_ne, ne_eq]); omega)
  rw [dec_28 _ _ hOp]
  exact checked_eq (by congr 1 <;> ((try simp only [fld, bitOf, wordI, beq_iff_eq, beq_eq_false_iff_ne, ne_eq]); omega)) hOk

theorem li (d : Nat) (i : Nat) : Statement (.li d i) := by
  refine of_core rfl (fun hOk w0 hf => ?_)
  have hb := of_decide_eq_true hOk
  have hOp : fld (wordI 0x29 d 0 (i)) 31 24 = 41 := by ((try simp only [fld, bitOf, wordI, beq_iff_eq, beq_eq_false_iff_ne, ne_eq]); omega)
  rw [dec_29 _ _ hOp]
  exact plain_eq (by ((try simp only [fld, bitOf, wordI, beq_iff_eq, beq_eq_false_iff_ne, ne_eq]); omega)) (by congr 1 <;> ((try simp only [fld, bitOf, wordI, beq_iff_eq, beq_eq_false_iff_ne, ne_eq]); omega)) hOk

theorem kld (g : Nat) (k : Nat) : Statement (.kld g k) := by
  refine of_core rfl (fun hOk w0 hf => ?_)
  have hb := of_decide_eq_true hOk
  have hOp : fld (wordK 0x30 g k 0) 31 24 = 48 := by ((try simp only [fld, bitOf, wordK, beq_iff_eq, beq_eq_false_iff_ne, ne_eq]); omega)
  rw [dec_30 _ _ hOp]
  exact plain_eq (by ((try simp only [fld, bitOf, wordK, beq_iff_eq, beq_eq_false_iff_ne, ne_eq]); omega)) (by congr 1 <;> ((try simp only [fld, bitOf, wordK, beq_iff_eq, beq_eq_false_iff_ne, ne_eq]); omega)) hOk

theorem kst (g : Nat) (k : Nat) : Statement (.kst g k) := by
  refine of_core rfl (fun hOk w0 hf => ?_)
  have hb := of_decide_eq_true hOk
  have hOp : fld (wordK 0x31 g k 0) 31 24 = 49 := by ((try simp only [fld, bitOf, wordK, beq_iff_eq, beq_eq_false_iff_ne, ne_eq]); omega)
  rw [dec_31 _ _ hOp]
  exact plain_eq (by ((try simp only [fld, bitOf, wordK, beq_iff_eq, beq_eq_false_iff_ne, ne_eq]); omega)) (by congr 1 <;> ((try simp only [fld, bitOf, wordK, beq_iff_eq, beq_eq_false_iff_ne, ne_eq]); omega)) hOk

theorem kmov (a : Nat) (b : Nat) : Statement (.kmov a b) := by
  refine of_core rfl (fun hOk w0 hf => ?_)
  have hb := of_decide_eq_true hOk
  have hOp : fld (wordK 0x32 0 a b) 31 24 = 50 := by ((try simp only [fld, bitOf, wordK, beq_iff_eq, beq_eq_false_iff_ne, ne_eq]); omega)
  rw [dec_32 _ _ hOp]
  exact plain_eq (by ((try simp only [fld, bitOf, wordK, beq_iff_eq, beq_eq_false_iff_ne, ne_eq]); omega)) (by congr 1 <;> ((try simp only [fld, bitOf, wordK, beq_iff_eq, beq_eq_false_iff_ne, ne_eq]); omega)) hOk

theorem skip (c : Nat) (g : Nat) (n : Nat) : Statement (.skip c g n) := by
  refine of_core rfl (fun hOk w0 hf => ?_)
  have hb := of_decide_eq_true hOk
  have hOp : fld (wordB 0x38 c g n) 31 24 = 56 := by ((try simp only [fld, bitOf, wordB, beq_iff_eq, beq_eq_false_iff_ne, ne_eq]); omega)
  rw [dec_38 _ _ hOp]
  exact checked_eq (by congr 1 <;> ((try simp only [fld, bitOf, wordB, beq_iff_eq, beq_eq_false_iff_ne, ne_eq]); omega)) hOk

theorem exit (c : Nat) (g : Nat) (n : Nat) : Statement (.exit c g n) := by
  refine of_core rfl (fun hOk w0 hf => ?_)
  have hb := of_decide_eq_true hOk
  have hOp : fld (wordB 0x39 c g n) 31 24 = 57 := by ((try simp only [fld, bitOf, wordB, beq_iff_eq, beq_eq_false_iff_ne, ne_eq]); omega)
  rw [dec_39 _ _ hOp]
  exact checked_eq (by congr 1 <;> ((try simp only [fld, bitOf, wordB, beq_iff_eq, beq_eq_false_iff_ne, ne_eq]); omega)) hOk

theorem endI : Statement (.endI) := by
  refine of_core rfl (fun hOk w0 hf => ?_)
  have hOp : fld (wordI 0x3a 0 0 (0)) 31 24 = 58 := by ((try simp only [fld, bitOf, wordI, beq_iff_eq, beq_eq_false_iff_ne, ne_eq]); omega)
  rw [dec_3A _ _ hOp]
  exact plain_eq (by ((try simp only [fld, bitOf, wordI, beq_iff_eq, beq_eq_false_iff_ne, ne_eq]); omega)) rfl hOk

theorem snul (l : Nat) : Statement (.snul l) := by
  refine of_core rfl (fun hOk w0 hf => ?_)
  have hb := of_decide_eq_true hOk
  have hOp : fld (wordI 0x3b 0 0 (l)) 31 24 = 59 := by ((try simp only [fld, bitOf, wordI, beq_iff_eq, beq_eq_false_iff_ne, ne_eq]); omega)
  rw [dec_3B _ _ hOp]
  exact plain_eq (by ((try simp only [fld, bitOf, wordI, beq_iff_eq, beq_eq_false_iff_ne, ne_eq]); omega)) (by congr 1 <;> ((try simp only [fld, bitOf, wordI, beq_iff_eq, beq_eq_false_iff_ne, ne_eq]); omega)) hOk

theorem gnul (d : Nat) : Statement (.gnul d) := by
  refine of_core rfl (fun hOk w0 hf => ?_)
  have hb := of_decide_eq_true hOk
  have hOp : fld (wordI 0x3c d 0 (0)) 31 24 = 60 := by ((try simp only [fld, bitOf, wordI, beq_iff_eq, beq_eq_false_iff_ne, ne_eq]); omega)
  rw [dec_3C _ _ hOp]
  exact plain_eq (by ((try simp only [fld, bitOf, wordI, beq_iff_eq, beq_eq_false_iff_ne, ne_eq]); omega)) (by congr 1 <;> ((try simp only [fld, bitOf, wordI, beq_iff_eq, beq_eq_false_iff_ne, ne_eq]); omega)) hOk

theorem pfx (h : Nat) : Statement (.pfx h) := by
  refine of_core rfl (fun hOk w0 hf => ?_)
  have hb := of_decide_eq_true hOk
  have hOp : fld (0x3d * 2 ^ 24 + h) 31 24 = 61 := by ((try simp only [fld, bitOf, beq_iff_eq, beq_eq_false_iff_ne, ne_eq]); omega)
  rw [dec_3D _ _ hOp]
  exact checked_eq (by congr 1 <;> ((try simp only [fld, bitOf, beq_iff_eq, beq_eq_false_iff_ne, ne_eq]); omega)) hOk

theorem ldB (d : Nat) (a : Nat) (l : Nat) (i : Nat) : Statement (.ldB d a l i) := by
  refine of_core rfl (fun hOk w0 hf => ?_)
  have hb := of_decide_eq_true hOk
  have hOp : fld (wordR 0x40 d a l (i)) 31 24 = 64 := by ((try simp only [fld, bitOf, wordR, beq_iff_eq, beq_eq_false_iff_ne, ne_eq]); omega)
  rw [dec_40 _ _ hOp]
  exact checked_eq (by congr 1 <;> ((try simp only [fld, bitOf, wordR, beq_iff_eq, beq_eq_false_iff_ne, ne_eq]); omega)) hOk

theorem ldH (d : Nat) (a : Nat) (l : Nat) (i : Nat) : Statement (.ldH d a l i) := by
  refine of_core rfl (fun hOk w0 hf => ?_)
  have hb := of_decide_eq_true hOk
  have hOp : fld (wordR 0x41 d a l (i)) 31 24 = 65 := by ((try simp only [fld, bitOf, wordR, beq_iff_eq, beq_eq_false_iff_ne, ne_eq]); omega)
  rw [dec_41 _ _ hOp]
  exact checked_eq (by congr 1 <;> ((try simp only [fld, bitOf, wordR, beq_iff_eq, beq_eq_false_iff_ne, ne_eq]); omega)) hOk

theorem ldW (d : Nat) (a : Nat) (l : Nat) (i : Nat) : Statement (.ldW d a l i) := by
  refine of_core rfl (fun hOk w0 hf => ?_)
  have hb := of_decide_eq_true hOk
  have hOp : fld (wordR 0x42 d a l (i)) 31 24 = 66 := by ((try simp only [fld, bitOf, wordR, beq_iff_eq, beq_eq_false_iff_ne, ne_eq]); omega)
  rw [dec_42 _ _ hOp]
  exact checked_eq (by congr 1 <;> ((try simp only [fld, bitOf, wordR, beq_iff_eq, beq_eq_false_iff_ne, ne_eq]); omega)) hOk

theorem ld (d : Nat) (a : Nat) (l : Nat) (i : Nat) : Statement (.ld d a l i) := by
  refine of_core rfl (fun hOk w0 hf => ?_)
  have hb := of_decide_eq_true hOk
  have hOp : fld (wordR 0x43 d a l (i)) 31 24 = 67 := by ((try simp only [fld, bitOf, wordR, beq_iff_eq, beq_eq_false_iff_ne, ne_eq]); omega)
  rw [dec_43 _ _ hOp]
  exact checked_eq (by congr 1 <;> ((try simp only [fld, bitOf, wordR, beq_iff_eq, beq_eq_false_iff_ne, ne_eq]); omega)) hOk

theorem ldBu (d : Nat) (a : Nat) (l : Nat) (i : Nat) : Statement (.ldBu d a l i) := by
  refine of_core rfl (fun hOk w0 hf => ?_)
  have hb := of_decide_eq_true hOk
  have hOp : fld (wordR 0x44 d a l (i)) 31 24 = 68 := by ((try simp only [fld, bitOf, wordR, beq_iff_eq, beq_eq_false_iff_ne, ne_eq]); omega)
  rw [dec_44 _ _ hOp]
  exact checked_eq (by congr 1 <;> ((try simp only [fld, bitOf, wordR, beq_iff_eq, beq_eq_false_iff_ne, ne_eq]); omega)) hOk

theorem ldHu (d : Nat) (a : Nat) (l : Nat) (i : Nat) : Statement (.ldHu d a l i) := by
  refine of_core rfl (fun hOk w0 hf => ?_)
  have hb := of_decide_eq_true hOk
  have hOp : fld (wordR 0x45 d a l (i)) 31 24 = 69 := by ((try simp only [fld, bitOf, wordR, beq_iff_eq, beq_eq_false_iff_ne, ne_eq]); omega)
  rw [dec_45 _ _ hOp]
  exact checked_eq (by congr 1 <;> ((try simp only [fld, bitOf, wordR, beq_iff_eq, beq_eq_false_iff_ne, ne_eq]); omega)) hOk

theorem ldWu (d : Nat) (a : Nat) (l : Nat) (i : Nat) : Statement (.ldWu d a l i) := by
  refine of_core rfl (fun hOk w0 hf => ?_)
  have hb := of_decide_eq_true hOk
  have hOp : fld (wordR 0x46 d a l (i)) 31 24 = 70 := by ((try simp only [fld, bitOf, wordR, beq_iff_eq, beq_eq_false_iff_ne, ne_eq]); omega)
  rw [dec_46 _ _ hOp]
  exact checked_eq (by congr 1 <;> ((try simp only [fld, bitOf, wordR, beq_iff_eq, beq_eq_false_iff_ne, ne_eq]); omega)) hOk

theorem stB (s : Nat) (a : Nat) (l : Nat) (i : Nat) : Statement (.stB s a l i) := by
  refine of_core rfl (fun hOk w0 hf => ?_)
  have hb := of_decide_eq_true hOk
  have hOp : fld (wordR 0x48 s a l (i)) 31 24 = 72 := by ((try simp only [fld, bitOf, wordR, beq_iff_eq, beq_eq_false_iff_ne, ne_eq]); omega)
  rw [dec_48 _ _ hOp]
  exact checked_eq (by congr 1 <;> ((try simp only [fld, bitOf, wordR, beq_iff_eq, beq_eq_false_iff_ne, ne_eq]); omega)) hOk

theorem stH (s : Nat) (a : Nat) (l : Nat) (i : Nat) : Statement (.stH s a l i) := by
  refine of_core rfl (fun hOk w0 hf => ?_)
  have hb := of_decide_eq_true hOk
  have hOp : fld (wordR 0x49 s a l (i)) 31 24 = 73 := by ((try simp only [fld, bitOf, wordR, beq_iff_eq, beq_eq_false_iff_ne, ne_eq]); omega)
  rw [dec_49 _ _ hOp]
  exact checked_eq (by congr 1 <;> ((try simp only [fld, bitOf, wordR, beq_iff_eq, beq_eq_false_iff_ne, ne_eq]); omega)) hOk

theorem stW (s : Nat) (a : Nat) (l : Nat) (i : Nat) : Statement (.stW s a l i) := by
  refine of_core rfl (fun hOk w0 hf => ?_)
  have hb := of_decide_eq_true hOk
  have hOp : fld (wordR 0x4a s a l (i)) 31 24 = 74 := by ((try simp only [fld, bitOf, wordR, beq_iff_eq, beq_eq_false_iff_ne, ne_eq]); omega)
  rw [dec_4A _ _ hOp]
  exact checked_eq (by congr 1 <;> ((try simp only [fld, bitOf, wordR, beq_iff_eq, beq_eq_false_iff_ne, ne_eq]); omega)) hOk

theorem st (s : Nat) (a : Nat) (l : Nat) (i : Nat) : Statement (.st s a l i) := by
  refine of_core rfl (fun hOk w0 hf => ?_)
  have hb := of_decide_eq_true hOk
  have hOp : fld (wordR 0x4b s a l (i)) 31 24 = 75 := by ((try simp only [fld, bitOf, wordR, beq_iff_eq, beq_eq_false_iff_ne, ne_eq]); omega)
  rw [dec_4B _ _ hOp]
  exact checked_eq (by congr 1 <;> ((try simp only [fld, bitOf, wordR, beq_iff_eq, beq_eq_false_iff_ne, ne_eq]); omega)) hOk

theorem ldAcq (d : Nat) (a : Nat) (l : Nat) (c : Nat) (i : Nat) : Statement (.ldAcq d a l c i) := by
  refine of_core rfl (fun hOk w0 hf => ?_)
  have hb := of_decide_eq_true hOk
  have hOp : fld (wordR 0x4c d a l (c * 64 + i)) 31 24 = 76 := by ((try simp only [fld, bitOf, wordR, beq_iff_eq, beq_eq_false_iff_ne, ne_eq]); omega)
  rw [dec_4C _ _ hOp]
  exact checked_eq (by congr 1 <;> ((try simp only [fld, bitOf, wordR, beq_iff_eq, beq_eq_false_iff_ne, ne_eq]); omega)) hOk

theorem stRel (s : Nat) (a : Nat) (l : Nat) (c : Nat) (i : Nat) : Statement (.stRel s a l c i) := by
  refine of_core rfl (fun hOk w0 hf => ?_)
  have hb := of_decide_eq_true hOk
  have hOp : fld (wordR 0x4d s a l (c * 64 + i)) 31 24 = 77 := by ((try simp only [fld, bitOf, wordR, beq_iff_eq, beq_eq_false_iff_ne, ne_eq]); omega)
  rw [dec_4D _ _ hOp]
  exact checked_eq (by congr 1 <;> ((try simp only [fld, bitOf, wordR, beq_iff_eq, beq_eq_false_iff_ne, ne_eq]); omega)) hOk

theorem fenAcq (l : Nat) (c : Nat) : Statement (.fenAcq l c) := by
  refine of_core rfl (fun hOk w0 hf => ?_)
  have hb := of_decide_eq_true hOk
  have hOp : fld (wordR 0x4e 0 0 l (c * 64)) 31 24 = 78 := by ((try simp only [fld, bitOf, wordR, beq_iff_eq, beq_eq_false_iff_ne, ne_eq]); omega)
  rw [dec_4E _ _ hOp]
  exact plain_eq (by ((try simp only [fld, bitOf, wordR, beq_iff_eq, beq_eq_false_iff_ne, ne_eq]); omega)) (by congr 1 <;> ((try simp only [fld, bitOf, wordR, beq_iff_eq, beq_eq_false_iff_ne, ne_eq]); omega)) hOk

theorem fenRel (l : Nat) (c : Nat) : Statement (.fenRel l c) := by
  refine of_core rfl (fun hOk w0 hf => ?_)
  have hb := of_decide_eq_true hOk
  have hOp : fld (wordR 0x4f 0 0 l (c * 64)) 31 24 = 79 := by ((try simp only [fld, bitOf, wordR, beq_iff_eq, beq_eq_false_iff_ne, ne_eq]); omega)
  rw [dec_4F _ _ hOp]
  exact plain_eq (by ((try simp only [fld, bitOf, wordR, beq_iff_eq, beq_eq_false_iff_ne, ne_eq]); omega)) (by congr 1 <;> ((try simp only [fld, bitOf, wordR, beq_iff_eq, beq_eq_false_iff_ne, ne_eq]); omega)) hOk

theorem amoAdd (q : Nat) (d : Nat) (a : Nat) (l : Nat) (b : Nat) (c : Nat) (w : Nat) : Statement (.amoAdd q d a l b c w) := by
  refine of_core rfl (fun hOk w0 hf => ?_)
  have hb := of_decide_eq_true hOk
  have hOp : fld (wordR (0x60 + q) d a l (b * 16 + c * 2 + w)) 31 24 = 96 + q := by ((try simp only [fld, bitOf, wordR, beq_iff_eq, beq_eq_false_iff_ne, ne_eq]); omega)
  have hq : q = 0 ∨ q = 1 ∨ q = 2 ∨ q = 3 := by omega
  rcases hq with rfl | rfl | rfl | rfl
  · rw [dec_60 _ _ hOp]; exact checked_eq (by congr 1 <;> ((try simp only [fld, bitOf, wordR, beq_iff_eq, beq_eq_false_iff_ne, ne_eq]); omega)) hOk
  · rw [dec_61 _ _ hOp]; exact checked_eq (by congr 1 <;> ((try simp only [fld, bitOf, wordR, beq_iff_eq, beq_eq_false_iff_ne, ne_eq]); omega)) hOk
  · rw [dec_62 _ _ hOp]; exact checked_eq (by congr 1 <;> ((try simp only [fld, bitOf, wordR, beq_iff_eq, beq_eq_false_iff_ne, ne_eq]); omega)) hOk
  · rw [dec_63 _ _ hOp]; exact checked_eq (by congr 1 <;> ((try simp only [fld, bitOf, wordR, beq_iff_eq, beq_eq_false_iff_ne, ne_eq]); omega)) hOk

theorem amoMin (q : Nat) (d : Nat) (a : Nat) (l : Nat) (b : Nat) (c : Nat) (w : Nat) : Statement (.amoMin q d a l b c w) := by
  refine of_core rfl (fun hOk w0 hf => ?_)
  have hb := of_decide_eq_true hOk
  have hOp : fld (wordR (0x64 + q) d a l (b * 16 + c * 2 + w)) 31 24 = 100 + q := by ((try simp only [fld, bitOf, wordR, beq_iff_eq, beq_eq_false_iff_ne, ne_eq]); omega)
  have hq : q = 0 ∨ q = 1 ∨ q = 2 ∨ q = 3 := by omega
  rcases hq with rfl | rfl | rfl | rfl
  · rw [dec_64 _ _ hOp]; exact checked_eq (by congr 1 <;> ((try simp only [fld, bitOf, wordR, beq_iff_eq, beq_eq_false_iff_ne, ne_eq]); omega)) hOk
  · rw [dec_65 _ _ hOp]; exact checked_eq (by congr 1 <;> ((try simp only [fld, bitOf, wordR, beq_iff_eq, beq_eq_false_iff_ne, ne_eq]); omega)) hOk
  · rw [dec_66 _ _ hOp]; exact checked_eq (by congr 1 <;> ((try simp only [fld, bitOf, wordR, beq_iff_eq, beq_eq_false_iff_ne, ne_eq]); omega)) hOk
  · rw [dec_67 _ _ hOp]; exact checked_eq (by congr 1 <;> ((try simp only [fld, bitOf, wordR, beq_iff_eq, beq_eq_false_iff_ne, ne_eq]); omega)) hOk

theorem amoMax (q : Nat) (d : Nat) (a : Nat) (l : Nat) (b : Nat) (c : Nat) (w : Nat) : Statement (.amoMax q d a l b c w) := by
  refine of_core rfl (fun hOk w0 hf => ?_)
  have hb := of_decide_eq_true hOk
  have hOp : fld (wordR (0x68 + q) d a l (b * 16 + c * 2 + w)) 31 24 = 104 + q := by ((try simp only [fld, bitOf, wordR, beq_iff_eq, beq_eq_false_iff_ne, ne_eq]); omega)
  have hq : q = 0 ∨ q = 1 ∨ q = 2 ∨ q = 3 := by omega
  rcases hq with rfl | rfl | rfl | rfl
  · rw [dec_68 _ _ hOp]; exact checked_eq (by congr 1 <;> ((try simp only [fld, bitOf, wordR, beq_iff_eq, beq_eq_false_iff_ne, ne_eq]); omega)) hOk
  · rw [dec_69 _ _ hOp]; exact checked_eq (by congr 1 <;> ((try simp only [fld, bitOf, wordR, beq_iff_eq, beq_eq_false_iff_ne, ne_eq]); omega)) hOk
  · rw [dec_6A _ _ hOp]; exact checked_eq (by congr 1 <;> ((try simp only [fld, bitOf, wordR, beq_iff_eq, beq_eq_false_iff_ne, ne_eq]); omega)) hOk
  · rw [dec_6B _ _ hOp]; exact checked_eq (by congr 1 <;> ((try simp only [fld, bitOf, wordR, beq_iff_eq, beq_eq_false_iff_ne, ne_eq]); omega)) hOk

theorem amoAnd (q : Nat) (d : Nat) (a : Nat) (l : Nat) (b : Nat) (c : Nat) (w : Nat) : Statement (.amoAnd q d a l b c w) := by
  refine of_core rfl (fun hOk w0 hf => ?_)
  have hb := of_decide_eq_true hOk
  have hOp : fld (wordR (0x6c + q) d a l (b * 16 + c * 2 + w)) 31 24 = 108 + q := by ((try simp only [fld, bitOf, wordR, beq_iff_eq, beq_eq_false_iff_ne, ne_eq]); omega)
  have hq : q = 0 ∨ q = 1 ∨ q = 2 ∨ q = 3 := by omega
  rcases hq with rfl | rfl | rfl | rfl
  · rw [dec_6C _ _ hOp]; exact checked_eq (by congr 1 <;> ((try simp only [fld, bitOf, wordR, beq_iff_eq, beq_eq_false_iff_ne, ne_eq]); omega)) hOk
  · rw [dec_6D _ _ hOp]; exact checked_eq (by congr 1 <;> ((try simp only [fld, bitOf, wordR, beq_iff_eq, beq_eq_false_iff_ne, ne_eq]); omega)) hOk
  · rw [dec_6E _ _ hOp]; exact checked_eq (by congr 1 <;> ((try simp only [fld, bitOf, wordR, beq_iff_eq, beq_eq_false_iff_ne, ne_eq]); omega)) hOk
  · rw [dec_6F _ _ hOp]; exact checked_eq (by congr 1 <;> ((try simp only [fld, bitOf, wordR, beq_iff_eq, beq_eq_false_iff_ne, ne_eq]); omega)) hOk

theorem amoOr (q : Nat) (d : Nat) (a : Nat) (l : Nat) (b : Nat) (c : Nat) (w : Nat) : Statement (.amoOr q d a l b c w) := by
  refine of_core rfl (fun hOk w0 hf => ?_)
  have hb := of_decide_eq_true hOk
  have hOp : fld (wordR (0x70 + q) d a l (b * 16 + c * 2 + w)) 31 24 = 112 + q := by ((try simp only [fld, bitOf, wordR, beq_iff_eq, beq_eq_false_iff_ne, ne_eq]); omega)
  have hq : q = 0 ∨ q = 1 ∨ q = 2 ∨ q = 3 := by omega
  rcases hq with rfl | rfl | rfl | rfl
  · rw [dec_70 _ _ hOp]; exact checked_eq (by congr 1 <;> ((try simp only [fld, bitOf, wordR, beq_iff_eq, beq_eq_false_iff_ne, ne_eq]); omega)) hOk
  · rw [dec_71 _ _ hOp]; exact checked_eq (by congr 1 <;> ((try simp only [fld, bitOf, wordR, beq_iff_eq, beq_eq_false_iff_ne, ne_eq]); omega)) hOk
  · rw [dec_72 _ _ hOp]; exact checked_eq (by congr 1 <;> ((try simp only [fld, bitOf, wordR, beq_iff_eq, beq_eq_false_iff_ne, ne_eq]); omega)) hOk
  · rw [dec_73 _ _ hOp]; exact checked_eq (by congr 1 <;> ((try simp only [fld, bitOf, wordR, beq_iff_eq, beq_eq_false_iff_ne, ne_eq]); omega)) hOk

theorem amoXor (q : Nat) (d : Nat) (a : Nat) (l : Nat) (b : Nat) (c : Nat) (w : Nat) : Statement (.amoXor q d a l b c w) := by
  refine of_core rfl (fun hOk w0 hf => ?_)
  have hb := of_decide_eq_true hOk
  have hOp : fld (wordR (0x74 + q) d a l (b * 16 + c * 2 + w)) 31 24 = 116 + q := by ((try simp only [fld, bitOf, wordR, beq_iff_eq, beq_eq_false_iff_ne, ne_eq]); omega)
  have hq : q = 0 ∨ q = 1 ∨ q = 2 ∨ q = 3 := by omega
  rcases hq with rfl | rfl | rfl | rfl
  · rw [dec_74 _ _ hOp]; exact checked_eq (by congr 1 <;> ((try simp only [fld, bitOf, wordR, beq_iff_eq, beq_eq_false_iff_ne, ne_eq]); omega)) hOk
  · rw [dec_75 _ _ hOp]; exact checked_eq (by congr 1 <;> ((try simp only [fld, bitOf, wordR, beq_iff_eq, beq_eq_false_iff_ne, ne_eq]); omega)) hOk
  · rw [dec_76 _ _ hOp]; exact checked_eq (by congr 1 <;> ((try simp only [fld, bitOf, wordR, beq_iff_eq, beq_eq_false_iff_ne, ne_eq]); omega)) hOk
  · rw [dec_77 _ _ hOp]; exact checked_eq (by congr 1 <;> ((try simp only [fld, bitOf, wordR, beq_iff_eq, beq_eq_false_iff_ne, ne_eq]); omega)) hOk

theorem amoXchg (q : Nat) (d : Nat) (a : Nat) (l : Nat) (b : Nat) (c : Nat) (w : Nat) : Statement (.amoXchg q d a l b c w) := by
  refine of_core rfl (fun hOk w0 hf => ?_)
  have hb := of_decide_eq_true hOk
  have hOp : fld (wordR (0x78 + q) d a l (b * 16 + c * 2 + w)) 31 24 = 120 + q := by ((try simp only [fld, bitOf, wordR, beq_iff_eq, beq_eq_false_iff_ne, ne_eq]); omega)
  have hq : q = 0 ∨ q = 1 ∨ q = 2 ∨ q = 3 := by omega
  rcases hq with rfl | rfl | rfl | rfl
  · rw [dec_78 _ _ hOp]; exact checked_eq (by congr 1 <;> ((try simp only [fld, bitOf, wordR, beq_iff_eq, beq_eq_false_iff_ne, ne_eq]); omega)) hOk
  · rw [dec_79 _ _ hOp]; exact checked_eq (by congr 1 <;> ((try simp only [fld, bitOf, wordR, beq_iff_eq, beq_eq_false_iff_ne, ne_eq]); omega)) hOk
  · rw [dec_7A _ _ hOp]; exact checked_eq (by congr 1 <;> ((try simp only [fld, bitOf, wordR, beq_iff_eq, beq_eq_false_iff_ne, ne_eq]); omega)) hOk
  · rw [dec_7B _ _ hOp]; exact checked_eq (by congr 1 <;> ((try simp only [fld, bitOf, wordR, beq_iff_eq, beq_eq_false_iff_ne, ne_eq]); omega)) hOk

theorem amoCas (q : Nat) (d : Nat) (a : Nat) (l : Nat) (b : Nat) (c : Nat) (w : Nat) : Statement (.amoCas q d a l b c w) := by
  refine of_core rfl (fun hOk w0 hf => ?_)
  have hb := of_decide_eq_true hOk
  have hOp : fld (wordR (0x7c + q) d a l (b * 16 + c * 2 + w)) 31 24 = 124 + q := by ((try simp only [fld, bitOf, wordR, beq_iff_eq, beq_eq_false_iff_ne, ne_eq]); omega)
  have hq : q = 0 ∨ q = 1 ∨ q = 2 ∨ q = 3 := by omega
  rcases hq with rfl | rfl | rfl | rfl
  · rw [dec_7C _ _ hOp]; exact checked_eq (by congr 1 <;> ((try simp only [fld, bitOf, wordR, beq_iff_eq, beq_eq_false_iff_ne, ne_eq]); omega)) hOk
  · rw [dec_7D _ _ hOp]; exact checked_eq (by congr 1 <;> ((try simp only [fld, bitOf, wordR, beq_iff_eq, beq_eq_false_iff_ne, ne_eq]); omega)) hOk
  · rw [dec_7E _ _ hOp]; exact checked_eq (by congr 1 <;> ((try simp only [fld, bitOf, wordR, beq_iff_eq, beq_eq_false_iff_ne, ne_eq]); omega)) hOk
  · rw [dec_7F _ _ hOp]; exact checked_eq (by congr 1 <;> ((try simp only [fld, bitOf, wordR, beq_iff_eq, beq_eq_false_iff_ne, ne_eq]); omega)) hOk

theorem blkt (t : Nat) : Statement (.blkt t) := by
  refine of_core rfl (fun hOk w0 hf => ?_)
  have hb := of_decide_eq_true hOk
  have hOp : fld (wordI 0x80 0 0 (t * 256)) 31 24 = 128 := by ((try simp only [fld, bitOf, wordI, beq_iff_eq, beq_eq_false_iff_ne, ne_eq]); omega)
  rw [dec_80 _ _ hOp]
  exact plain_eq (by ((try simp only [fld, bitOf, wordI, beq_iff_eq, beq_eq_false_iff_ne, ne_eq]); omega)) (by congr 1 <;> ((try simp only [fld, bitOf, wordI, beq_iff_eq, beq_eq_false_iff_ne, ne_eq]); omega)) hOk

theorem ublkt (t : Nat) : Statement (.ublkt t) := by
  refine of_core rfl (fun hOk w0 hf => ?_)
  have hb := of_decide_eq_true hOk
  have hOp : fld (wordI 0x81 0 0 (t * 256)) 31 24 = 129 := by ((try simp only [fld, bitOf, wordI, beq_iff_eq, beq_eq_false_iff_ne, ne_eq]); omega)
  rw [dec_81 _ _ hOp]
  exact plain_eq (by ((try simp only [fld, bitOf, wordI, beq_iff_eq, beq_eq_false_iff_ne, ne_eq]); omega)) (by congr 1 <;> ((try simp only [fld, bitOf, wordI, beq_iff_eq, beq_eq_false_iff_ne, ne_eq]); omega)) hOk

theorem send (d : Nat) (a : Nat) (t : Nat) : Statement (.send d a t) := by
  refine of_core rfl (fun hOk w0 hf => ?_)
  have hb := of_decide_eq_true hOk
  have hOp : fld (wordI 0x82 d a (t * 256)) 31 24 = 130 := by ((try simp only [fld, bitOf, wordI, beq_iff_eq, beq_eq_false_iff_ne, ne_eq]); omega)
  rw [dec_82 _ _ hOp]
  refine (if_neg (by simp only [Bool.not_eq_true]; ((try simp only [fld, bitOf, wordI, beq_iff_eq, beq_eq_false_iff_ne, ne_eq]); omega))).trans ?_
  exact plain_eq (by ((try simp only [fld, bitOf, wordI, beq_iff_eq, beq_eq_false_iff_ne, ne_eq]); omega)) (by congr 1 <;> ((try simp only [fld, bitOf, wordI, beq_iff_eq, beq_eq_false_iff_ne, ne_eq]); omega)) hOk

theorem sendBo (d : Nat) (a : Nat) (b : Nat) : Statement (.sendBo d a b) := by
  refine of_core rfl (fun hOk w0 hf => ?_)
  have hb := of_decide_eq_true hOk
  have hOp : fld (wordI 0x82 d a (b + 128)) 31 24 = 130 := by ((try simp only [fld, bitOf, wordI, beq_iff_eq, beq_eq_false_iff_ne, ne_eq]); omega)
  rw [dec_82 _ _ hOp]
  refine (if_pos (by ((try simp only [fld, bitOf, wordI, beq_iff_eq, beq_eq_false_iff_ne, ne_eq]); omega))).trans ?_
  exact plain_eq (by ((try simp only [fld, bitOf, wordI, beq_iff_eq, beq_eq_false_iff_ne, ne_eq]); omega)) (by congr 1 <;> ((try simp only [fld, bitOf, wordI, beq_iff_eq, beq_eq_false_iff_ne, ne_eq]); omega)) hOk

theorem boset (a : Nat) (t : Nat) (b : Nat) : Statement (.boset a t b) := by
  refine of_core rfl (fun hOk w0 hf => ?_)
  have hb := of_decide_eq_true hOk
  have hOp : fld (wordI 0x83 0 a (t * 256 + b)) 31 24 = 131 := by ((try simp only [fld, bitOf, wordI, beq_iff_eq, beq_eq_false_iff_ne, ne_eq]); omega)
  rw [dec_83 _ _ hOp]
  refine (if_neg (by simp only [Bool.not_eq_true]; ((try simp only [fld, bitOf, wordI, beq_iff_eq, beq_eq_false_iff_ne, ne_eq]); omega))).trans ?_
  exact plain_eq (by ((try simp only [fld, bitOf, wordI, beq_iff_eq, beq_eq_false_iff_ne, ne_eq]); omega)) (by congr 1 <;> ((try simp only [fld, bitOf, wordI, beq_iff_eq, beq_eq_false_iff_ne, ne_eq]); omega)) hOk

theorem bosetClr (a : Nat) (t : Nat) (b : Nat) : Statement (.bosetClr a t b) := by
  refine of_core rfl (fun hOk w0 hf => ?_)
  have hb := of_decide_eq_true hOk
  have hOp : fld (wordI 0x83 0 a (t * 256 + b + 32)) 31 24 = 131 := by ((try simp only [fld, bitOf, wordI, beq_iff_eq, beq_eq_false_iff_ne, ne_eq]); omega)
  rw [dec_83 _ _ hOp]
  refine (if_pos (by ((try simp only [fld, bitOf, wordI, beq_iff_eq, beq_eq_false_iff_ne, ne_eq]); omega))).trans ?_
  exact plain_eq (by ((try simp only [fld, bitOf, wordI, beq_iff_eq, beq_eq_false_iff_ne, ne_eq]); omega)) (by congr 1 <;> ((try simp only [fld, bitOf, wordI, beq_iff_eq, beq_eq_false_iff_ne, ne_eq]); omega)) hOk

theorem boarm (b : Nat) : Statement (.boarm b) := by
  refine of_core rfl (fun hOk w0 hf => ?_)
  have hb := of_decide_eq_true hOk
  have hOp : fld (wordI 0x84 0 0 (b)) 31 24 = 132 := by ((try simp only [fld, bitOf, wordI, beq_iff_eq, beq_eq_false_iff_ne, ne_eq]); omega)
  rw [dec_84 _ _ hOp]
  exact plain_eq (by ((try simp only [fld, bitOf, wordI, beq_iff_eq, beq_eq_false_iff_ne, ne_eq]); omega)) (by congr 1 <;> ((try simp only [fld, bitOf, wordI, beq_iff_eq, beq_eq_false_iff_ne, ne_eq]); omega)) hOk

theorem spawn (p : Nat) (r : Nat) (i : Nat) : Statement (.spawn p r i) := by
  refine of_core rfl (fun hOk w0 hf => ?_)
  have hb := of_decide_eq_true hOk
  have hOp : fld (wordI 0x88 p r (i)) 31 24 = 136 := by ((try simp only [fld, bitOf, wordI, beq_iff_eq, beq_eq_false_iff_ne, ne_eq]); omega)
  rw [dec_88 _ _ hOp]
  exact plain_eq (by ((try simp only [fld, bitOf, wordI, beq_iff_eq, beq_eq_false_iff_ne, ne_eq]); omega)) (by congr 1 <;> ((try simp only [fld, bitOf, wordI, beq_iff_eq, beq_eq_false_iff_ne, ne_eq]); omega)) hOk

theorem join (t : Nat) : Statement (.join t) := by
  refine of_core rfl (fun hOk w0 hf => ?_)
  have hb := of_decide_eq_true hOk
  have hOp : fld (wordI 0x89 0 0 (t * 256)) 31 24 = 137 := by ((try simp only [fld, bitOf, wordI, beq_iff_eq, beq_eq_false_iff_ne, ne_eq]); omega)
  rw [dec_89 _ _ hOp]
  exact plain_eq (by ((try simp only [fld, bitOf, wordI, beq_iff_eq, beq_eq_false_iff_ne, ne_eq]); omega)) (by congr 1 <;> ((try simp only [fld, bitOf, wordI, beq_iff_eq, beq_eq_false_iff_ne, ne_eq]); omega)) hOk

theorem rfwd (a : Nat) : Statement (.rfwd a) := by
  refine of_core rfl (fun hOk w0 hf => ?_)
  have hb := of_decide_eq_true hOk
  have hOp : fld (wordI 0x8a 0 a (0)) 31 24 = 138 := by ((try simp only [fld, bitOf, wordI, beq_iff_eq, beq_eq_false_iff_ne, ne_eq]); omega)
  rw [dec_8A _ _ hOp]
  refine (if_neg (by simp only [Bool.not_eq_true]; ((try simp only [fld, bitOf, wordI, beq_iff_eq, beq_eq_false_iff_ne, ne_eq]); omega))).trans ?_
  exact plain_eq (by ((try simp only [fld, bitOf, wordI, beq_iff_eq, beq_eq_false_iff_ne, ne_eq]); omega)) (by congr 1 <;> ((try simp only [fld, bitOf, wordI, beq_iff_eq, beq_eq_false_iff_ne, ne_eq]); omega)) hOk

theorem rfwdRet (a : Nat) : Statement (.rfwdRet a) := by
  refine of_core rfl (fun hOk w0 hf => ?_)
  have hb := of_decide_eq_true hOk
  have hOp : fld (wordI 0x8a 0 a (1)) 31 24 = 138 := by ((try simp only [fld, bitOf, wordI, beq_iff_eq, beq_eq_false_iff_ne, ne_eq]); omega)
  rw [dec_8A _ _ hOp]
  refine (if_pos (by ((try simp only [fld, bitOf, wordI, beq_iff_eq, beq_eq_false_iff_ne, ne_eq]); omega))).trans ?_
  exact plain_eq (by ((try simp only [fld, bitOf, wordI, beq_iff_eq, beq_eq_false_iff_ne, ne_eq]); omega)) (by congr 1 <;> ((try simp only [fld, bitOf, wordI, beq_iff_eq, beq_eq_false_iff_ne, ne_eq]); omega)) hOk

theorem strm (a : Nat) (t : Nat) (n : Nat) : Statement (.strm a t n) := by
  refine of_core rfl (fun hOk w0 hf => ?_)
  have hb := of_decide_eq_true hOk
  have hOp : fld (wordI 0x90 0 a (t * 256 + n)) 31 24 = 144 := by ((try simp only [fld, bitOf, wordI, beq_iff_eq, beq_eq_false_iff_ne, ne_eq]); omega)
  rw [dec_90 _ _ hOp]
  refine (if_neg (by simp only [Bool.not_eq_true]; ((try simp only [fld, bitOf, wordI, beq_iff_eq, beq_eq_false_iff_ne, ne_eq]); omega))).trans ?_
  exact plain_eq (by ((try simp only [fld, bitOf, wordI, beq_iff_eq, beq_eq_false_iff_ne, ne_eq]); omega)) (by congr 1 <;> ((try simp only [fld, bitOf, wordI, beq_iff_eq, beq_eq_false_iff_ne, ne_eq]); omega)) hOk

theorem strmTemplate (a : Nat) (t : Nat) (p : Nat) (n : Nat) : Statement (.strmTemplate a t p n) := by
  refine of_core rfl (fun hOk w0 hf => ?_)
  have hb := of_decide_eq_true hOk
  have hOp : fld (wordI 0x90 0 a (t * 256 + p * 16 + n + 8)) 31 24 = 144 := by ((try simp only [fld, bitOf, wordI, beq_iff_eq, beq_eq_false_iff_ne, ne_eq]); omega)
  rw [dec_90 _ _ hOp]
  refine (if_pos (by ((try simp only [fld, bitOf, wordI, beq_iff_eq, beq_eq_false_iff_ne, ne_eq]); omega))).trans ?_
  exact plain_eq (by ((try simp only [fld, bitOf, wordI, beq_iff_eq, beq_eq_false_iff_ne, ne_eq]); omega)) (by congr 1 <;> ((try simp only [fld, bitOf, wordI, beq_iff_eq, beq_eq_false_iff_ne, ne_eq]); omega)) hOk

theorem sbar (r : Nat) (t : Nat) (m : Nat) : Statement (.sbar r t m) := by
  refine of_core rfl (fun hOk w0 hf => ?_)
  have hb := of_decide_eq_true hOk
  have hOp : fld (wordI 0x91 r 0 (t * 256 + m)) 31 24 = 145 := by ((try simp only [fld, bitOf, wordI, beq_iff_eq, beq_eq_false_iff_ne, ne_eq]); omega)
  rw [dec_91 _ _ hOp]
  exact plain_eq (by ((try simp only [fld, bitOf, wordI, beq_iff_eq, beq_eq_false_iff_ne, ne_eq]); omega)) (by congr 1 <;> ((try simp only [fld, bitOf, wordI, beq_iff_eq, beq_eq_false_iff_ne, ne_eq]); omega)) hOk

theorem cfgl (t : Nat) (d : Nat) (c : Nat) (m : Nat) : Statement (.cfgl t d c m) := by
  refine of_core rfl (fun hOk w0 hf => ?_)
  have hb := of_decide_eq_true hOk
  have hOp : fld (wordI 0x92 0 0 (t * 256 + d * 64 + c * 16 + m)) 31 24 = 146 := by ((try simp only [fld, bitOf, wordI, beq_iff_eq, beq_eq_false_iff_ne, ne_eq]); omega)
  rw [dec_92 _ _ hOp]
  exact plain_eq (by ((try simp only [fld, bitOf, wordI, beq_iff_eq, beq_eq_false_iff_ne, ne_eq]); omega)) (by congr 1 <;> ((try simp only [fld, bitOf, wordI, beq_iff_eq, beq_eq_false_iff_ne, ne_eq]); omega)) hOk

theorem cfgbank (t : Nat) (m : Nat) (b : Nat) : Statement (.cfgbank t m b) := by
  refine of_core rfl (fun hOk w0 hf => ?_)
  have hb := of_decide_eq_true hOk
  have hOp : fld (wordI 0x93 0 0 (t * 256 + m * 16 + b)) 31 24 = 147 := by ((try simp only [fld, bitOf, wordI, beq_iff_eq, beq_eq_false_iff_ne, ne_eq]); omega)
  rw [dec_93 _ _ hOp]
  exact plain_eq (by ((try simp only [fld, bitOf, wordI, beq_iff_eq, beq_eq_false_iff_ne, ne_eq]); omega)) (by congr 1 <;> ((try simp only [fld, bitOf, wordI, beq_iff_eq, beq_eq_false_iff_ne, ne_eq]); omega)) hOk

theorem ctsw (a : Nat) : Statement (.ctsw a) := by
  refine of_core rfl (fun hOk w0 hf => ?_)
  have hb := of_decide_eq_true hOk
  have hOp : fld (wordI 0x94 0 0 (a)) 31 24 = 148 := by ((try simp only [fld, bitOf, wordI, beq_iff_eq, beq_eq_false_iff_ne, ne_eq]); omega)
  rw [dec_94 _ _ hOp]
  exact plain_eq (by ((try simp only [fld, bitOf, wordI, beq_iff_eq, beq_eq_false_iff_ne, ne_eq]); omega)) (by congr 1 <;> ((try simp only [fld, bitOf, wordI, beq_iff_eq, beq_eq_false_iff_ne, ne_eq]); omega)) hOk

theorem eqw (a : Nat) (n : Nat) : Statement (.eqw a n) := by
  refine of_core rfl (fun hOk w0 hf => ?_)
  have hb := of_decide_eq_true hOk
  have hOp : fld (wordI 0x98 0 a (n)) 31 24 = 152 := by ((try simp only [fld, bitOf, wordI, beq_iff_eq, beq_eq_false_iff_ne, ne_eq]); omega)
  rw [dec_98 _ _ hOp]
  refine (if_neg (by simp only [Bool.not_eq_true]; ((try simp only [fld, bitOf, wordI, beq_iff_eq, beq_eq_false_iff_ne, ne_eq]); omega))).trans ?_
  exact plain_eq (by ((try simp only [fld, bitOf, wordI, beq_iff_eq, beq_eq_false_iff_ne, ne_eq]); omega)) (by congr 1 <;> ((try simp only [fld, bitOf, wordI, beq_iff_eq, beq_eq_false_iff_ne, ne_eq]); omega)) hOk

theorem eqwPort (a : Nat) (n : Nat) : Statement (.eqwPort a n) := by
  refine of_core rfl (fun hOk w0 hf => ?_)
  have hb := of_decide_eq_true hOk
  have hOp : fld (wordI 0x98 0 a (n + 128)) 31 24 = 152 := by ((try simp only [fld, bitOf, wordI, beq_iff_eq, beq_eq_false_iff_ne, ne_eq]); omega)
  rw [dec_98 _ _ hOp]
  refine (if_pos (by ((try simp only [fld, bitOf, wordI, beq_iff_eq, beq_eq_false_iff_ne, ne_eq]); omega))).trans ?_
  exact plain_eq (by ((try simp only [fld, bitOf, wordI, beq_iff_eq, beq_eq_false_iff_ne, ne_eq]); omega)) (by congr 1 <;> ((try simp only [fld, bitOf, wordI, beq_iff_eq, beq_eq_false_iff_ne, ne_eq]); omega)) hOk

theorem copy (a : Nat) (t : Nat) (n : Nat) : Statement (.copy a t n) := by
  refine of_core rfl (fun hOk w0 hf => ?_)
  have hb := of_decide_eq_true hOk
  have hOp : fld (wordI 0x99 0 a (t * 256 + n)) 31 24 = 153 := by ((try simp only [fld, bitOf, wordI, beq_iff_eq, beq_eq_false_iff_ne, ne_eq]); omega)
  rw [dec_99 _ _ hOp]
  exact plain_eq (by ((try simp only [fld, bitOf, wordI, beq_iff_eq, beq_eq_false_iff_ne, ne_eq]); omega)) (by congr 1 <;> ((try simp only [fld, bitOf, wordI, beq_iff_eq, beq_eq_false_iff_ne, ne_eq]); omega)) hOk

theorem publ (a : Nat) (t : Nat) (n : Nat) : Statement (.publ a t n) := by
  refine of_core rfl (fun hOk w0 hf => ?_)
  have hb := of_decide_eq_true hOk
  have hOp : fld (wordI 0x9a 0 a (t * 256 + n)) 31 24 = 154 := by ((try simp only [fld, bitOf, wordI, beq_iff_eq, beq_eq_false_iff_ne, ne_eq]); omega)
  rw [dec_9A _ _ hOp]
  exact plain_eq (by ((try simp only [fld, bitOf, wordI, beq_iff_eq, beq_eq_false_iff_ne, ne_eq]); omega)) (by congr 1 <;> ((try simp only [fld, bitOf, wordI, beq_iff_eq, beq_eq_false_iff_ne, ne_eq]); omega)) hOk

theorem mv (a : Nat) (t : Nat) (n : Nat) : Statement (.mv a t n) := by
  refine of_core rfl (fun hOk w0 hf => ?_)
  have hb := of_decide_eq_true hOk
  have hOp : fld (wordI 0xa0 0 a (t * 256 + n)) 31 24 = 160 := by ((try simp only [fld, bitOf, wordI, beq_iff_eq, beq_eq_false_iff_ne, ne_eq]); omega)
  rw [dec_A0 _ _ hOp]
  exact plain_eq (by ((try simp only [fld, bitOf, wordI, beq_iff_eq, beq_eq_false_iff_ne, ne_eq]); omega)) (by congr 1 <;> ((try simp only [fld, bitOf, wordI, beq_iff_eq, beq_eq_false_iff_ne, ne_eq]); omega)) hOk

theorem scout (a : Nat) (t : Nat) (n : Nat) : Statement (.scout a t n) := by
  refine of_core rfl (fun hOk w0 hf => ?_)
  have hb := of_decide_eq_true hOk
  have hOp : fld (wordI 0xa1 0 a (t * 256 + n)) 31 24 = 161 := by ((try simp only [fld, bitOf, wordI, beq_iff_eq, beq_eq_false_iff_ne, ne_eq]); omega)
  rw [dec_A1 _ _ hOp]
  exact plain_eq (by ((try simp only [fld, bitOf, wordI, beq_iff_eq, beq_eq_false_iff_ne, ne_eq]); omega)) (by congr 1 <;> ((try simp only [fld, bitOf, wordI, beq_iff_eq, beq_eq_false_iff_ne, ne_eq]); omega)) hOk

theorem attn (a : Nat) (t : Nat) (n : Nat) : Statement (.attn a t n) := by
  refine of_core rfl (fun hOk w0 hf => ?_)
  have hb := of_decide_eq_true hOk
  have hOp : fld (wordI 0xa2 0 a (t * 256 + n)) 31 24 = 162 := by ((try simp only [fld, bitOf, wordI, beq_iff_eq, beq_eq_false_iff_ne, ne_eq]); omega)
  rw [dec_A2 _ _ hOp]
  exact plain_eq (by ((try simp only [fld, bitOf, wordI, beq_iff_eq, beq_eq_false_iff_ne, ne_eq]); omega)) (by congr 1 <;> ((try simp only [fld, bitOf, wordI, beq_iff_eq, beq_eq_false_iff_ne, ne_eq]); omega)) hOk

theorem iredGatherSum (a : Nat) (t : Nat) (n : Nat) : Statement (.iredGatherSum a t n) := by
  refine of_core rfl (fun hOk w0 hf => ?_)
  have hb := of_decide_eq_true hOk
  have hOp : fld (wordI 0xa3 0 a (t * 256 + n)) 31 24 = 163 := by ((try simp only [fld, bitOf, wordI, beq_iff_eq, beq_eq_false_iff_ne, ne_eq]); omega)
  rw [dec_A3 _ _ hOp]
  refine (if_neg (by simp only [formOk] at hf; omega)).trans ((if_neg (by simp only [formOk] at hf; omega)).trans ?_)
  exact plain_eq (by ((try simp only [fld, bitOf, wordI, beq_iff_eq, beq_eq_false_iff_ne, ne_eq]); omega)) (by congr 1 <;> ((try simp only [fld, bitOf, wordI, beq_iff_eq, beq_eq_false_iff_ne, ne_eq]); omega)) hOk

theorem iredGatherMax (a : Nat) (t : Nat) (n : Nat) : Statement (.iredGatherMax a t n) := by
  refine of_core rfl (fun hOk w0 hf => ?_)
  have hb := of_decide_eq_true hOk
  have hOp : fld (wordI 0xa3 0 a (t * 256 + n)) 31 24 = 163 := by ((try simp only [fld, bitOf, wordI, beq_iff_eq, beq_eq_false_iff_ne, ne_eq]); omega)
  rw [dec_A3 _ _ hOp]
  refine (if_pos hf).trans ?_
  exact plain_eq (by ((try simp only [fld, bitOf, wordI, beq_iff_eq, beq_eq_false_iff_ne, ne_eq]); omega)) (by congr 1 <;> ((try simp only [fld, bitOf, wordI, beq_iff_eq, beq_eq_false_iff_ne, ne_eq]); omega)) hOk

theorem iredAtomic (a : Nat) (t : Nat) (n : Nat) : Statement (.iredAtomic a t n) := by
  refine of_core rfl (fun hOk w0 hf => ?_)
  have hb := of_decide_eq_true hOk
  have hOp : fld (wordI 0xa3 0 a (t * 256 + n)) 31 24 = 163 := by ((try simp only [fld, bitOf, wordI, beq_iff_eq, beq_eq_false_iff_ne, ne_eq]); omega)
  rw [dec_A3 _ _ hOp]
  refine (if_neg (by simp only [formOk] at hf; omega)).trans ((if_pos hf).trans ?_)
  exact plain_eq (by ((try simp only [fld, bitOf, wordI, beq_iff_eq, beq_eq_false_iff_ne, ne_eq]); omega)) (by congr 1 <;> ((try simp only [fld, bitOf, wordI, beq_iff_eq, beq_eq_false_iff_ne, ne_eq]); omega)) hOk

theorem collTri (a : Nat) (t : Nat) (n : Nat) : Statement (.collTri a t n) := by
  refine of_core rfl (fun hOk w0 hf => ?_)
  have hb := of_decide_eq_true hOk
  have hOp : fld (wordI 0xa4 0 a (t * 256 + n)) 31 24 = 164 := by ((try simp only [fld, bitOf, wordI, beq_iff_eq, beq_eq_false_iff_ne, ne_eq]); omega)
  rw [dec_A4 _ _ hOp]
  exact plain_eq (by ((try simp only [fld, bitOf, wordI, beq_iff_eq, beq_eq_false_iff_ne, ne_eq]); omega)) (by congr 1 <;> ((try simp only [fld, bitOf, wordI, beq_iff_eq, beq_eq_false_iff_ne, ne_eq]); omega)) hOk

theorem collSum (a : Nat) (t : Nat) (n : Nat) : Statement (.collSum a t n) := by
  refine of_core rfl (fun hOk w0 hf => ?_)
  have hb := of_decide_eq_true hOk
  have hOp : fld (wordI 0xa5 0 a (t * 256 + n)) 31 24 = 165 := by ((try simp only [fld, bitOf, wordI, beq_iff_eq, beq_eq_false_iff_ne, ne_eq]); omega)
  rw [dec_A5 _ _ hOp]
  exact plain_eq (by ((try simp only [fld, bitOf, wordI, beq_iff_eq, beq_eq_false_iff_ne, ne_eq]); omega)) (by congr 1 <;> ((try simp only [fld, bitOf, wordI, beq_iff_eq, beq_eq_false_iff_ne, ne_eq]); omega)) hOk

theorem collMax (a : Nat) (t : Nat) (n : Nat) : Statement (.collMax a t n) := by
  refine of_core rfl (fun hOk w0 hf => ?_)
  have hb := of_decide_eq_true hOk
  have hOp : fld (wordI 0xa6 0 a (t * 256 + n)) 31 24 = 166 := by ((try simp only [fld, bitOf, wordI, beq_iff_eq, beq_eq_false_iff_ne, ne_eq]); omega)
  rw [dec_A6 _ _ hOp]
  exact plain_eq (by ((try simp only [fld, bitOf, wordI, beq_iff_eq, beq_eq_false_iff_ne, ne_eq]); omega)) (by congr 1 <;> ((try simp only [fld, bitOf, wordI, beq_iff_eq, beq_eq_false_iff_ne, ne_eq]); omega)) hOk

theorem collGath (a : Nat) (t : Nat) (n : Nat) : Statement (.collGath a t n) := by
  refine of_core rfl (fun hOk w0 hf => ?_)
  have hb := of_decide_eq_true hOk
  have hOp : fld (wordI 0xa7 0 a (t * 256 + n)) 31 24 = 167 := by ((try simp only [fld, bitOf, wordI, beq_iff_eq, beq_eq_false_iff_ne, ne_eq]); omega)
  rw [dec_A7 _ _ hOp]
  exact plain_eq (by ((try simp only [fld, bitOf, wordI, beq_iff_eq, beq_eq_false_iff_ne, ne_eq]); omega)) (by congr 1 <;> ((try simp only [fld, bitOf, wordI, beq_iff_eq, beq_eq_false_iff_ne, ne_eq]); omega)) hOk

theorem collSmp (a : Nat) (t : Nat) (n : Nat) : Statement (.collSmp a t n) := by
  refine of_core rfl (fun hOk w0 hf => ?_)
  have hb := of_decide_eq_true hOk
  have hOp : fld (wordI 0xa8 0 a (t * 256 + n)) 31 24 = 168 := by ((try simp only [fld, bitOf, wordI, beq_iff_eq, beq_eq_false_iff_ne, ne_eq]); omega)
  rw [dec_A8 _ _ hOp]
  exact plain_eq (by ((try simp only [fld, bitOf, wordI, beq_iff_eq, beq_eq_false_iff_ne, ne_eq]); omega)) (by congr 1 <;> ((try simp only [fld, bitOf, wordI, beq_iff_eq, beq_eq_false_iff_ne, ne_eq]); omega)) hOk

theorem sample (a : Nat) (t : Nat) (n : Nat) : Statement (.sample a t n) := by
  refine of_core rfl (fun hOk w0 hf => ?_)
  have hb := of_decide_eq_true hOk
  have hOp : fld (wordI 0xa9 0 a (t * 256 + n)) 31 24 = 169 := by ((try simp only [fld, bitOf, wordI, beq_iff_eq, beq_eq_false_iff_ne, ne_eq]); omega)
  rw [dec_A9 _ _ hOp]
  exact plain_eq (by ((try simp only [fld, bitOf, wordI, beq_iff_eq, beq_eq_false_iff_ne, ne_eq]); omega)) (by congr 1 <;> ((try simp only [fld, bitOf, wordI, beq_iff_eq, beq_eq_false_iff_ne, ne_eq]); omega)) hOk

theorem wbuild (a : Nat) (t : Nat) (n : Nat) : Statement (.wbuild a t n) := by
  refine of_core rfl (fun hOk w0 hf => ?_)
  have hb := of_decide_eq_true hOk
  have hOp : fld (wordI 0xaa 0 a (t * 256 + n)) 31 24 = 170 := by ((try simp only [fld, bitOf, wordI, beq_iff_eq, beq_eq_false_iff_ne, ne_eq]); omega)
  rw [dec_AA _ _ hOp]
  exact plain_eq (by ((try simp only [fld, bitOf, wordI, beq_iff_eq, beq_eq_false_iff_ne, ne_eq]); omega)) (by congr 1 <;> ((try simp only [fld, bitOf, wordI, beq_iff_eq, beq_eq_false_iff_ne, ne_eq]); omega)) hOk

theorem wswitch (a : Nat) (t : Nat) (n : Nat) : Statement (.wswitch a t n) := by
  refine of_core rfl (fun hOk w0 hf => ?_)
  have hb := of_decide_eq_true hOk
  have hOp : fld (wordI 0xab 0 a (t * 256 + n)) 31 24 = 171 := by ((try simp only [fld, bitOf, wordI, beq_iff_eq, beq_eq_false_iff_ne, ne_eq]); omega)
  rw [dec_AB _ _ hOp]
  exact plain_eq (by ((try simp only [fld, bitOf, wordI, beq_iff_eq, beq_eq_false_iff_ne, ne_eq]); omega)) (by congr 1 <;> ((try simp only [fld, bitOf, wordI, beq_iff_eq, beq_eq_false_iff_ne, ne_eq]); omega)) hOk

theorem promo (a : Nat) (t : Nat) (n : Nat) : Statement (.promo a t n) := by
  refine of_core rfl (fun hOk w0 hf => ?_)
  have hb := of_decide_eq_true hOk
  have hOp : fld (wordI 0xac 0 a (t * 256 + n)) 31 24 = 172 := by ((try simp only [fld, bitOf, wordI, beq_iff_eq, beq_eq_false_iff_ne, ne_eq]); omega)
  rw [dec_AC _ _ hOp]
  refine (if_neg (by simp only [formOk] at hf; simp [hf])).trans ?_
  exact plain_eq (by ((try simp only [fld, bitOf, wordI, beq_iff_eq, beq_eq_false_iff_ne, ne_eq]); omega)) (by congr 1 <;> ((try simp only [fld, bitOf, wordI, beq_iff_eq, beq_eq_false_iff_ne, ne_eq]); omega)) hOk

theorem promoDemote (a : Nat) (t : Nat) (n : Nat) : Statement (.promoDemote a t n) := by
  refine of_core rfl (fun hOk w0 hf => ?_)
  have hb := of_decide_eq_true hOk
  have hOp : fld (wordI 0xac 0 a (t * 256 + n)) 31 24 = 172 := by ((try simp only [fld, bitOf, wordI, beq_iff_eq, beq_eq_false_iff_ne, ne_eq]); omega)
  rw [dec_AC _ _ hOp]
  refine (if_pos hf).trans ?_
  exact plain_eq (by ((try simp only [fld, bitOf, wordI, beq_iff_eq, beq_eq_false_iff_ne, ne_eq]); omega)) (by congr 1 <;> ((try simp only [fld, bitOf, wordI, beq_iff_eq, beq_eq_false_iff_ne, ne_eq]); omega)) hOk

theorem tnow (d : Nat) : Statement (.tnow d) := by
  refine of_core rfl (fun hOk w0 hf => ?_)
  have hb := of_decide_eq_true hOk
  have hOp : fld (wordI 0xb0 d 0 (0)) 31 24 = 176 := by ((try simp only [fld, bitOf, wordI, beq_iff_eq, beq_eq_false_iff_ne, ne_eq]); omega)
  rw [dec_B0 _ _ hOp]
  exact plain_eq (by ((try simp only [fld, bitOf, wordI, beq_iff_eq, beq_eq_false_iff_ne, ne_eq]); omega)) (by congr 1 <;> ((try simp only [fld, bitOf, wordI, beq_iff_eq, beq_eq_false_iff_ne, ne_eq]); omega)) hOk

theorem thold (a : Nat) (t : Nat) : Statement (.thold a t) := by
  refine of_core rfl (fun hOk w0 hf => ?_)
  have hb := of_decide_eq_true hOk
  have hOp : fld (wordI 0xb1 0 a (t)) 31 24 = 177 := by ((try simp only [fld, bitOf, wordI, beq_iff_eq, beq_eq_false_iff_ne, ne_eq]); omega)
  rw [dec_B1 _ _ hOp]
  exact plain_eq (by ((try simp only [fld, bitOf, wordI, beq_iff_eq, beq_eq_false_iff_ne, ne_eq]); omega)) (by congr 1 <;> ((try simp only [fld, bitOf, wordI, beq_iff_eq, beq_eq_false_iff_ne, ne_eq]); omega)) hOk

theorem csrr (d : Nat) (c : Nat) : Statement (.csrr d c) := by
  refine of_core rfl (fun hOk w0 hf => ?_)
  have hb := of_decide_eq_true hOk
  have hOp : fld (wordI 0xb8 d 0 (c)) 31 24 = 184 := by ((try simp only [fld, bitOf, wordI, beq_iff_eq, beq_eq_false_iff_ne, ne_eq]); omega)
  rw [dec_B8 _ _ hOp]
  exact plain_eq (by ((try simp only [fld, bitOf, wordI, beq_iff_eq, beq_eq_false_iff_ne, ne_eq]); omega)) (by congr 1 <;> ((try simp only [fld, bitOf, wordI, beq_iff_eq, beq_eq_false_iff_ne, ne_eq]); omega)) hOk

theorem csrw (a : Nat) (c : Nat) : Statement (.csrw a c) := by
  refine of_core rfl (fun hOk w0 hf => ?_)
  have hb := of_decide_eq_true hOk
  have hOp : fld (wordI 0xb9 0 a (c)) 31 24 = 185 := by ((try simp only [fld, bitOf, wordI, beq_iff_eq, beq_eq_false_iff_ne, ne_eq]); omega)
  rw [dec_B9 _ _ hOp]
  refine (if_pos (by ((try simp only [fld, bitOf, wordI, beq_iff_eq, beq_eq_false_iff_ne, ne_eq]); omega))).trans ?_
  unfold decodeCsrw
  have hi : fld (wordI 0xb9 0 a (c)) 13 0 = c := by ((try simp only [fld, bitOf, wordI, beq_iff_eq, beq_eq_false_iff_ne, ne_eq]); omega)
  have ha : fld (wordI 0xb9 0 a (c)) 18 14 = a := by ((try simp only [fld, bitOf, wordI, beq_iff_eq, beq_eq_false_iff_ne, ne_eq]); omega)
  rw [hi, ha]
  have hw := hb.2.2
  simp only [csrWritable, Bool.or_eq_true, Bool.and_eq_true, decide_eq_true_eq, beq_iff_eq] at hw
  rw [if_neg (by omega), if_neg (by omega), if_neg (by omega)]
  exact checked_eq rfl hOk

theorem sysc (a : Nat) (t : Nat) (c : Nat) : Statement (.sysc a t c) := by
  refine of_core rfl (fun hOk w0 hf => ?_)
  have hb := of_decide_eq_true hOk
  have hOp : fld (wordI 0xba 0 a (t * 256 + c)) 31 24 = 186 := by ((try simp only [fld, bitOf, wordI, beq_iff_eq, beq_eq_false_iff_ne, ne_eq]); omega)
  rw [dec_BA _ _ hOp]
  exact plain_eq (by ((try simp only [fld, bitOf, wordI, beq_iff_eq, beq_eq_false_iff_ne, ne_eq]); omega)) (by congr 1 <;> ((try simp only [fld, bitOf, wordI, beq_iff_eq, beq_eq_false_iff_ne, ne_eq]); omega)) hOk

theorem eret (a : Nat) : Statement (.eret a) := by
  refine of_core rfl (fun hOk w0 hf => ?_)
  have hb := of_decide_eq_true hOk
  have hOp : fld (wordI 0xbb 0 a (0)) 31 24 = 187 := by ((try simp only [fld, bitOf, wordI, beq_iff_eq, beq_eq_false_iff_ne, ne_eq]); omega)
  rw [dec_BB _ _ hOp]
  refine (if_neg (by simp only [Bool.not_eq_true]; ((try simp only [fld, bitOf, wordI, beq_iff_eq, beq_eq_false_iff_ne, ne_eq]); omega))).trans ?_
  exact plain_eq (by ((try simp only [fld, bitOf, wordI, beq_iff_eq, beq_eq_false_iff_ne, ne_eq]); omega)) (by congr 1 <;> ((try simp only [fld, bitOf, wordI, beq_iff_eq, beq_eq_false_iff_ne, ne_eq]); omega)) hOk

theorem eretAbort (a : Nat) : Statement (.eretAbort a) := by
  refine of_core rfl (fun hOk w0 hf => ?_)
  have hb := of_decide_eq_true hOk
  have hOp : fld (wordI 0xbb 0 a (1)) 31 24 = 187 := by ((try simp only [fld, bitOf, wordI, beq_iff_eq, beq_eq_false_iff_ne, ne_eq]); omega)
  rw [dec_BB _ _ hOp]
  refine (if_pos (by ((try simp only [fld, bitOf, wordI, beq_iff_eq, beq_eq_false_iff_ne, ne_eq]); omega))).trans ?_
  exact plain_eq (by ((try simp only [fld, bitOf, wordI, beq_iff_eq, beq_eq_false_iff_ne, ne_eq]); omega)) (by congr 1 <;> ((try simp only [fld, bitOf, wordI, beq_iff_eq, beq_eq_false_iff_ne, ne_eq]); omega)) hOk

theorem trap (c : Nat) : Statement (.trap c) := by
  refine of_core rfl (fun hOk w0 hf => ?_)
  have hb := of_decide_eq_true hOk
  have hOp : fld (wordI 0xbc 0 0 (c)) 31 24 = 188 := by ((try simp only [fld, bitOf, wordI, beq_iff_eq, beq_eq_false_iff_ne, ne_eq]); omega)
  rw [dec_BC _ _ hOp]
  exact plain_eq (by ((try simp only [fld, bitOf, wordI, beq_iff_eq, beq_eq_false_iff_ne, ne_eq]); omega)) (by congr 1 <;> ((try simp only [fld, bitOf, wordI, beq_iff_eq, beq_eq_false_iff_ne, ne_eq]); omega)) hOk

theorem halt : Statement (.halt) := by
  refine of_core rfl (fun hOk w0 hf => ?_)
  have hOp : fld (wordI 0xbd 0 0 (0)) 31 24 = 189 := by ((try simp only [fld, bitOf, wordI, beq_iff_eq, beq_eq_false_iff_ne, ne_eq]); omega)
  rw [dec_BD _ _ hOp]
  exact plain_eq (by ((try simp only [fld, bitOf, wordI, beq_iff_eq, beq_eq_false_iff_ne, ne_eq]); omega)) rfl hOk

theorem lcugoWrite (a : Nat) (body : Nat) : Statement (.lcugoWrite a body) := by
  refine of_core rfl (fun hOk w0 hf => ?_)
  have hb := of_decide_eq_true hOk
  have hOp : fld (wordI 0xB9 0 a (0xA0 + body)) 31 24 = 185 := by ((try simp only [fld, bitOf, wordI, beq_iff_eq, beq_eq_false_iff_ne, ne_eq]); omega)
  rw [dec_B9 _ _ hOp]
  refine (if_pos (by ((try simp only [fld, bitOf, wordI, beq_iff_eq, beq_eq_false_iff_ne, ne_eq]); omega))).trans ?_
  unfold decodeCsrw
  have hi : fld (wordI 0xB9 0 a (0xA0 + body)) 13 0 = 0xA0 + body := by ((try simp only [fld, bitOf, wordI, beq_iff_eq, beq_eq_false_iff_ne, ne_eq]); omega)
  have ha : fld (wordI 0xB9 0 a (0xA0 + body)) 18 14 = a := by ((try simp only [fld, bitOf, wordI, beq_iff_eq, beq_eq_false_iff_ne, ne_eq]); omega)
  rw [hi, ha]
  refine (if_pos (by omega)).trans ?_
  exact congrArg (fun n => Except.ok (Instr.lcugoWrite _ n)) (by omega)

theorem csweeptWrite (a : Nat) : Statement (.csweeptWrite a) := by
  refine of_core rfl (fun hOk w0 hf => ?_)
  have hb := of_decide_eq_true hOk
  have hOp : fld (wordI 0xB9 0 a (0xA8)) 31 24 = 185 := by ((try simp only [fld, bitOf, wordI, beq_iff_eq, beq_eq_false_iff_ne, ne_eq]); omega)
  rw [dec_B9 _ _ hOp]
  refine (if_pos (by ((try simp only [fld, bitOf, wordI, beq_iff_eq, beq_eq_false_iff_ne, ne_eq]); omega))).trans ?_
  unfold decodeCsrw
  have hi : fld (wordI 0xB9 0 a (0xA8)) 13 0 = 0xA8 := by ((try simp only [fld, bitOf, wordI, beq_iff_eq, beq_eq_false_iff_ne, ne_eq]); omega)
  have ha : fld (wordI 0xB9 0 a (0xA8)) 18 14 = a := by ((try simp only [fld, bitOf, wordI, beq_iff_eq, beq_eq_false_iff_ne, ne_eq]); omega)
  rw [hi, ha]
  exact (if_neg (by omega)).trans (if_pos rfl)

theorem cteWrite (a : Nat) (ag : Nat) (e : Nat) : Statement (.cteWrite a ag e) := by
  refine of_core rfl (fun hOk w0 hf => ?_)
  have hb := of_decide_eq_true hOk
  have hOp : fld (wordI 0xB9 0 a (0x100 + 16 * ag + e)) 31 24 = 185 := by ((try simp only [fld, bitOf, wordI, beq_iff_eq, beq_eq_false_iff_ne, ne_eq]); omega)
  rw [dec_B9 _ _ hOp]
  refine (if_pos (by ((try simp only [fld, bitOf, wordI, beq_iff_eq, beq_eq_false_iff_ne, ne_eq]); omega))).trans ?_
  unfold decodeCsrw
  have hi : fld (wordI 0xB9 0 a (0x100 + 16 * ag + e)) 13 0 = 0x100 + 16 * ag + e := by ((try simp only [fld, bitOf, wordI, beq_iff_eq, beq_eq_false_iff_ne, ne_eq]); omega)
  have ha : fld (wordI 0xB9 0 a (0x100 + 16 * ag + e)) 18 14 = a := by ((try simp only [fld, bitOf, wordI, beq_iff_eq, beq_eq_false_iff_ne, ne_eq]); omega)
  rw [hi, ha]
  rw [if_neg (by omega), if_neg (by omega), if_pos (by omega)]
  congr 2 <;> (simp only [fld]; omega)

theorem cellAdd (f : CellF) : Statement (.cellAdd f) := of_cell rfl rfl (by decide) rfl
theorem cellSub (f : CellF) : Statement (.cellSub f) := of_cell rfl rfl (by decide) rfl
theorem cellMul (f : CellF) : Statement (.cellMul f) := of_cell rfl rfl (by decide) rfl
theorem cellMulh (f : CellF) : Statement (.cellMulh f) := of_cell rfl rfl (by decide) rfl
theorem cellAnd (f : CellF) : Statement (.cellAnd f) := of_cell rfl rfl (by decide) rfl
theorem cellOr (f : CellF) : Statement (.cellOr f) := of_cell rfl rfl (by decide) rfl
theorem cellXor (f : CellF) : Statement (.cellXor f) := of_cell rfl rfl (by decide) rfl
theorem cellAndn (f : CellF) : Statement (.cellAndn f) := of_cell rfl rfl (by decide) rfl
theorem cellShl (f : CellF) : Statement (.cellShl f) := of_cell rfl rfl (by decide) rfl
theorem cellShr (f : CellF) : Statement (.cellShr f) := of_cell rfl rfl (by decide) rfl
theorem cellSar (f : CellF) : Statement (.cellSar f) := of_cell rfl rfl (by decide) rfl
theorem cellRot (f : CellF) : Statement (.cellRot f) := of_cell rfl rfl (by decide) rfl
theorem cellMin (f : CellF) : Statement (.cellMin f) := of_cell rfl rfl (by decide) rfl
theorem cellMax (f : CellF) : Statement (.cellMax f) := of_cell rfl rfl (by decide) rfl
theorem minu (f : CellF) : Statement (.minu f) := of_cell rfl rfl (by decide) rfl
theorem maxu (f : CellF) : Statement (.maxu f) := of_cell rfl rfl (by decide) rfl
theorem cellClz (f : CellF) : Statement (.cellClz f) := of_cell rfl rfl (by decide) rfl
theorem cellPopc (f : CellF) : Statement (.cellPopc f) := of_cell rfl rfl (by decide) rfl
theorem bperm (f : CellF) : Statement (.bperm f) := of_cell rfl rfl (by decide) rfl
theorem pack (f : CellF) : Statement (.pack f) := of_cell rfl rfl (by decide) rfl
theorem sel (n : Nat) (f : CellF) : Statement (.sel n f) := by
  intro wf
  have hn : n < 4 := by
    simp only [WellFormed, wfInstr, Bool.and_eq_true, cellVariantOk, decide_eq_true_eq] at wf; exact wf.1.1.2
  refine of_cell (op := 0x18 + n) rfl rfl (by omega) ?_ wf
  have : n = 0 ∨ n = 1 ∨ n = 2 ∨ n = 3 := by omega
  rcases this with rfl | rfl | rfl | rfl <;> rfl

theorem ceq (f : CellF) : Statement (.ceq f) := of_cell rfl rfl (by decide) rfl
theorem cne (f : CellF) : Statement (.cne f) := of_cell rfl rfl (by decide) rfl
theorem clt (f : CellF) : Statement (.clt f) := of_cell rfl rfl (by decide) rfl
theorem cle (f : CellF) : Statement (.cle f) := of_cell rfl rfl (by decide) rfl
theorem cltu (f : CellF) : Statement (.cltu f) := of_cell rfl rfl (by decide) rfl
theorem cleu (f : CellF) : Statement (.cleu f) := of_cell rfl rfl (by decide) rfl
theorem fadd (f : CellF) : Statement (.fadd f) := of_cell rfl rfl (by decide) rfl
theorem fsub (f : CellF) : Statement (.fsub f) := of_cell rfl rfl (by decide) rfl
theorem fmul (f : CellF) : Statement (.fmul f) := of_cell rfl rfl (by decide) rfl
theorem fma (f : CellF) : Statement (.fma f) := of_cell rfl rfl (by decide) rfl
theorem fms (f : CellF) : Statement (.fms f) := of_cell rfl rfl (by decide) rfl
theorem fmin (f : CellF) : Statement (.fmin f) := of_cell rfl rfl (by decide) rfl
theorem fmax (f : CellF) : Statement (.fmax f) := of_cell rfl rfl (by decide) rfl
theorem famn (f : CellF) : Statement (.famn f) := of_cell rfl rfl (by decide) rfl
theorem fabs (f : CellF) : Statement (.fabs f) := of_cell rfl rfl (by decide) rfl
theorem fneg (f : CellF) : Statement (.fneg f) := of_cell rfl rfl (by decide) rfl
theorem frcp (f : CellF) : Statement (.frcp f) := of_cell rfl rfl (by decide) rfl
theorem frsq (f : CellF) : Statement (.frsq f) := of_cell rfl rfl (by decide) rfl
theorem fexp2 (f : CellF) : Statement (.fexp2 f) := of_cell rfl rfl (by decide) rfl
theorem flog2 (f : CellF) : Statement (.flog2 f) := of_cell rfl rfl (by decide) rfl
theorem frnd (f : CellF) : Statement (.frnd f) := of_cell rfl rfl (by decide) rfl
theorem fceq (f : CellF) : Statement (.fceq f) := of_cell rfl rfl (by decide) rfl
theorem fclt (f : CellF) : Statement (.fclt f) := of_cell rfl rfl (by decide) rfl
theorem fcle (f : CellF) : Statement (.fcle f) := of_cell rfl rfl (by decide) rfl
theorem fcun (f : CellF) : Statement (.fcun f) := of_cell rfl rfl (by decide) rfl
theorem fcvti (f : CellF) : Statement (.fcvti f) := of_cell rfl rfl (by decide) rfl
theorem icvtf (f : CellF) : Statement (.icvtf f) := of_cell rfl rfl (by decide) rfl
theorem ucvtf (f : CellF) : Statement (.ucvtf f) := of_cell rfl rfl (by decide) rfl
theorem lshl (f : CellF) : Statement (.lshl f) := of_cell rfl rfl (by decide) rfl
theorem lshr (f : CellF) : Statement (.lshr f) := of_cell rfl rfl (by decide) rfl
theorem lbc (f : CellF) : Statement (.lbc f) := of_cell rfl rfl (by decide) rfl
theorem lredAdd (f : CellF) : Statement (.lredAdd f) := of_cell rfl rfl (by decide) rfl
theorem lredMin (f : CellF) : Statement (.lredMin f) := of_cell rfl rfl (by decide) rfl
theorem lredMax (f : CellF) : Statement (.lredMax f) := of_cell rfl rfl (by decide) rfl
theorem lredFadd (f : CellF) : Statement (.lredFadd f) := of_cell rfl rfl (by decide) rfl
theorem lredFmin (f : CellF) : Statement (.lredFmin f) := of_cell rfl rfl (by decide) rfl
theorem lredFmax (f : CellF) : Statement (.lredFmax f) := of_cell rfl rfl (by decide) rfl
theorem scanAdd (f : CellF) : Statement (.scanAdd f) := of_cell rfl rfl (by decide) rfl
theorem scanMax (f : CellF) : Statement (.scanMax f) := of_cell rfl rfl (by decide) rfl
theorem scanFadd (f : CellF) : Statement (.scanFadd f) := of_cell rfl rfl (by decide) rfl
theorem scanFmax (f : CellF) : Statement (.scanFmax f) := of_cell rfl rfl (by decide) rfl
theorem qapp (f : CellF) : Statement (.qapp f) := of_cell rfl rfl (by decide) rfl
theorem mov (f : CellF) : Statement (.mov f) := of_cell rfl rfl (by decide) rfl
theorem lit (f : CellF) : Statement (.lit f) := of_cell rfl rfl (by decide) rfl
theorem steer (f : CellF) : Statement (.steer f) := by
  intro wf
  have hv := wf
  simp only [WellFormed, wfInstr, Bool.and_eq_true, cellVariantOk, decide_eq_true_eq] at hv
  refine of_cell rfl rfl (by decide) ?_ wf
  exact congrArg some (if_neg hv.1.1.2)

theorem steerCtl (f : CellF) : Statement (.steerCtl f) := by
  intro wf
  have hv := wf
  simp only [WellFormed, wfInstr, Bool.and_eq_true, cellVariantOk, decide_eq_true_eq] at hv
  refine of_cell rfl rfl (by decide) ?_ wf
  exact congrArg some (if_pos hv.1.1.2)

theorem merge (f : CellF) : Statement (.merge f) := of_cell rfl rfl (by decide) rfl
theorem ctok (f : CellF) : Statement (.ctok f) := of_cell rfl rfl (by decide) rfl
theorem crec (f : CellF) : Statement (.crec f) := of_cell rfl rfl (by decide) rfl
theorem drop (f : CellF) : Statement (.drop f) := of_cell rfl rfl (by decide) rfl
theorem tag (f : CellF) : Statement (.tag f) := of_cell rfl rfl (by decide) rfl
theorem done (f : CellF) : Statement (.done f) := of_cell rfl rfl (by decide) rfl
theorem ldsI (f : CellF) : Statement (.ldsI f) := of_cell rfl rfl (by decide) rfl
theorem ldsF (f : CellF) : Statement (.ldsF f) := of_cell rfl rfl (by decide) rfl
theorem stsI (f : CellF) : Statement (.stsI f) := of_cell rfl rfl (by decide) rfl
theorem stsF (f : CellF) : Statement (.stsF f) := of_cell rfl rfl (by decide) rfl
theorem updAdd (f : CellF) : Statement (.updAdd f) := of_cell rfl rfl (by decide) rfl
theorem updFadd (f : CellF) : Statement (.updFadd f) := of_cell rfl rfl (by decide) rfl
theorem updMin (f : CellF) : Statement (.updMin f) := of_cell rfl rfl (by decide) rfl
theorem updMax (f : CellF) : Statement (.updMax f) := of_cell rfl rfl (by decide) rfl
theorem updOr (f : CellF) : Statement (.updOr f) := of_cell rfl rfl (by decide) rfl
theorem updTas (f : CellF) : Statement (.updTas f) := of_cell rfl rfl (by decide) rfl
theorem own (f : CellF) : Statement (.own f) := of_cell rfl rfl (by decide) rfl
theorem ordt (f : CellF) : Statement (.ordt f) := of_cell rfl rfl (by decide) rfl
theorem sysm (f : CellF) : Statement (.sysm f) := by
  intro wf
  have hv := wf
  simp only [WellFormed, wfInstr, Bool.and_eq_true, cellVariantOk, decide_eq_true_eq] at hv
  refine of_cell rfl rfl (by decide) ?_ wf
  exact congrArg some (if_neg hv.1.1.2)

theorem sysmOff (f : CellF) : Statement (.sysmOff f) := by
  intro wf
  have hv := wf
  simp only [WellFormed, wfInstr, Bool.and_eq_true, cellVariantOk, decide_eq_true_eq] at hv
  refine of_cell rfl rfl (by decide) ?_ wf
  exact congrArg some (if_pos hv.1.1.2)

theorem ldsw (f : CellF) : Statement (.ldsw f) := of_cell rfl rfl (by decide) rfl
theorem pswp (f : CellF) : Statement (.pswp f) := of_cell rfl rfl (by decide) rfl
theorem scl (f : CellF) : Statement (.scl f) := of_cell rfl rfl (by decide) rfl
theorem tmrg (f : CellF) : Statement (.tmrg f) := of_cell rfl rfl (by decide) rfl
theorem ecmd (f : CellF) : Statement (.ecmd f) := of_cell rfl rfl (by decide) rfl
theorem csweep (f : CellF) : Statement (.csweep f) := of_cell rfl rfl (by decide) rfl
theorem cellTrap (f : CellF) : Statement (.cellTrap f) := of_cell rfl rfl (by decide) rfl
theorem cellHalt (f : CellF) : Statement (.cellHalt f) := of_cell rfl rfl (by decide) rfl
theorem flgr (f : CellF) : Statement (.flgr f) := of_cell rfl rfl (by decide) rfl
theorem flgc (f : CellF) : Statement (.flgc f) := of_cell rfl rfl (by decide) rfl
theorem register (e : Entry) : Statement (.register e) := of_none rfl
theorem place (e : Entry) : Statement (.place e) := of_none rfl
theorem inject (e : Entry) : Statement (.inject e) := of_none rfl
theorem wbuildCommand (e : Entry) : Statement (.wbuildCommand e) := of_none rfl
theorem wswitchCommand (e : Entry) : Statement (.wswitchCommand e) := of_none rfl
theorem copyCommand (e : Entry) : Statement (.copyCommand e) := of_none rfl
theorem timed (e : Entry) : Statement (.timed e) := of_none rfl
theorem queryTileStates (e : Entry) : Statement (.queryTileStates e) := of_none rfl
theorem queryPlacement (e : Entry) : Statement (.queryPlacement e) := of_none rfl
theorem queryRcbUsage (e : Entry) : Statement (.queryRcbUsage e) := of_none rfl
theorem queryTime (e : Entry) : Statement (.queryTime e) := of_none rfl
theorem unplace (e : Entry) : Statement (.unplace e) := of_none rfl
theorem sqDoorbell : Statement (.sqDoorbell) := of_none rfl
theorem cqDoorbell : Statement (.cqDoorbell) := of_none rfl
theorem queueDescriptorWrite : Statement (.queueDescriptorWrite) := of_none rfl
theorem invreqTranslation : Statement (.invreqTranslation) := of_none rfl
theorem invreqHandle : Statement (.invreqHandle) := of_none rfl
theorem invreqBoth : Statement (.invreqBoth) := of_none rfl
theorem vsrootWrite : Statement (.vsrootWrite) := of_none rfl
theorem hsrootWrite : Statement (.hsrootWrite) := of_none rfl
theorem windowDescriptorWrite : Statement (.windowDescriptorWrite) := of_none rfl
theorem victlWrite : Statement (.victlWrite) := of_none rfl
theorem domctlRelease : Statement (.domctlRelease) := of_none rfl
theorem domctlResume : Statement (.domctlResume) := of_none rfl
theorem domctlAbort : Statement (.domctlAbort) := of_none rfl
theorem tilecmdWithdraw : Statement (.tilecmdWithdraw) := of_none rfl
theorem tilecmdAdmit : Statement (.tilecmdAdmit) := of_none rfl
theorem tilecmdRestart : Statement (.tilecmdRestart) := of_none rfl
theorem tadjSlew : Statement (.tadjSlew) := of_none rfl
theorem tadjStep : Statement (.tadjStep) := of_none rfl
theorem attestation : Statement (.attestation) := of_none rfl
theorem lnkctlWrite : Statement (.lnkctlWrite) := of_none rfl
theorem fwctlStart : Statement (.fwctlStart) := of_none rfl
theorem fwctlCommit : Statement (.fwctlCommit) := of_none rfl
theorem fwctlRevert : Statement (.fwctlRevert) := of_none rfl
theorem registerWrite : Statement (.registerWrite) := of_none rfl
theorem codeTableApply (tile : Nat) (ag : Nat) : Statement (.codeTableApply tile ag) := of_none rfl
theorem taskLaunch (tile : Nat) (tag : Nat) : Statement (.taskLaunch tile tag) := of_none rfl
theorem tholdExpiry (tile : Nat) (idx : Nat) : Statement (.tholdExpiry tile idx) := of_none rfl
theorem syscReply (idx : Nat) : Statement (.syscReply idx) := of_none rfl
theorem hamperRecordArrival (idx : Nat) : Statement (.hamperRecordArrival idx) := of_none rfl
theorem hamperAdmit (pk : Nat) : Statement (.hamperAdmit pk) := of_none rfl
theorem hamperTimeout (pk : Nat) : Statement (.hamperTimeout pk) := of_none rfl
theorem draftGroupTimeout (pk : Nat) (seqSlot : Nat) : Statement (.draftGroupTimeout pk seqSlot) := of_none rfl
theorem hamperFire (pk : Nat) : Statement (.hamperFire pk) := of_none rfl
theorem rotationSlot (die : Nat) : Statement (.rotationSlot die) := of_none rfl
theorem routeTagDelivery (idx : Nat) : Statement (.routeTagDelivery idx) := of_none rfl
theorem hamperStarved (pk : Nat) (idx : Nat) : Statement (.hamperStarved pk idx) := of_none rfl
theorem schedulerEvaluation (anchor : Nat) : Statement (.schedulerEvaluation anchor) := of_none rfl
theorem preemption (anchor : Nat) : Statement (.preemption anchor) := of_none rfl
theorem scaleLatch (tile : Nat) (cell : Nat) (latch : Nat) : Statement (.scaleLatch tile cell latch) := of_none rfl
theorem systolicBeat (tile : Nat) (cell : Nat) : Statement (.systolicBeat tile cell) := of_none rfl
theorem ownerUpdateApply (tile : Nat) (cell : Nat) : Statement (.ownerUpdateApply tile cell) := of_none rfl
theorem orderingTokenEmit (tile : Nat) (cell : Nat) (idx : Nat) : Statement (.orderingTokenEmit tile cell idx) := of_none rfl
theorem spillRingRefill (tile : Nat) (cell : Nat) (dir : Nat) : Statement (.spillRingRefill tile cell dir) := of_none rfl
theorem cellSwitch (tile : Nat) (cell : Nat) : Statement (.cellSwitch tile cell) := of_none rfl
theorem lcuRelease (tile : Nat) (slot : Nat) (body : Nat) : Statement (.lcuRelease tile slot body) := of_none rfl
theorem drainStall (tile : Nat) (cell : Nat) : Statement (.drainStall tile cell) := of_none rfl
theorem regionStall (anchor : Nat) : Statement (.regionStall anchor) := of_none rfl
theorem streamStart (tile : Nat) (ag : Nat) : Statement (.streamStart tile ag) := of_none rfl
theorem streamTransfer (tile : Nat) (ag : Nat) : Statement (.streamTransfer tile ag) := of_none rfl
theorem streamCompletion (tile : Nat) (ag : Nat) : Statement (.streamCompletion tile ag) := of_none rfl
theorem commandStart (tile : Nat) (slot : Nat) (q : Nat) : Statement (.commandStart tile slot q) := of_none rfl
theorem commandCompletion (id : Nat) : Statement (.commandCompletion id) := of_none rfl
theorem pageTimeout (id : Nat) : Statement (.pageTimeout id) := of_none rfl
theorem collectiveResult (id : Nat) : Statement (.collectiveResult id) := of_none rfl
theorem collectiveTimeout (id : Nat) : Statement (.collectiveTimeout id) := of_none rfl
theorem wswitchDrained (id : Nat) : Statement (.wswitchDrained id) := of_none rfl
theorem switchWaiting (id : Nat) : Statement (.switchWaiting id) := of_none rfl
theorem engineFailed (stack : Nat) (channel : Nat) : Statement (.engineFailed stack channel) := of_none rfl
theorem bankTransitionComplete (tile : Nat) (bank : Nat) : Statement (.bankTransitionComplete tile bank) := of_none rfl
theorem cfglComplete (tile : Nat) : Statement (.cfglComplete tile) := of_none rfl
theorem timedLaunch (idx : Nat) : Statement (.timedLaunch idx) := of_none rfl
theorem commandService (vi : Nat) : Statement (.commandService vi) := of_none rfl
theorem msixMessage (vi : Nat) (vec : Nat) : Statement (.msixMessage vi vec) := of_none rfl
theorem invalidationComplete (vi : Nat) : Statement (.invalidationComplete vi) := of_none rfl
theorem bar2Access (r : BarAccess) : Statement (.bar2Access r) := of_none rfl
theorem completionFlagForward (port : Nat) (vi : Nat) : Statement (.completionFlagForward port vi) := of_none rfl
theorem ackLost (port : Nat) (vi : Nat) : Statement (.ackLost port vi) := of_none rfl
theorem hostReadTimeout (vi : Nat) (sq : Nat) : Statement (.hostReadTimeout vi sq) := of_none rfl
theorem hostPortDown (port : Nat) : Statement (.hostPortDown port) := of_none rfl
theorem linkTrained (port : Nat) : Statement (.linkTrained port) := of_none rfl
theorem linkTrainingLost (port : Nat) : Statement (.linkTrainingLost port) := of_none rfl
theorem flitDrop (port : Nat) (pkg : Nat) : Statement (.flitDrop port pkg) := of_none rfl
theorem remoteTimeout (port : Nat) (pkg : Nat) : Statement (.remoteTimeout port pkg) := of_none rfl
theorem atticLinkDown (link : Nat) : Statement (.atticLinkDown link) := of_none rfl
theorem ptpMessage (m : PtpMsg) : Statement (.ptpMessage m) := of_none rfl
theorem timeSourceLost : Statement (.timeSourceLost) := of_none rfl
theorem timeRelock (off : Int) : Statement (.timeRelock off) := of_none rfl
theorem throttle (watts : Nat) : Statement (.throttle watts) := of_none rfl
theorem powerStateChange (vi : Nat) (d3 : Bool) : Statement (.powerStateChange vi d3) := of_none rfl
theorem boot : Statement (.boot) := of_none rfl
theorem selfTest (failed : List Nat) : Statement (.selfTest failed) := of_none rfl
theorem canaryWindowEnd : Statement (.canaryWindowEnd) := of_none rfl
theorem heartbeatLost : Statement (.heartbeatLost) := of_none rfl
theorem canaryCommandHung : Statement (.canaryCommandHung) := of_none rfl
theorem standbyAssertion : Statement (.standbyAssertion) := of_none rfl
theorem complexTakeover : Statement (.complexTakeover) := of_none rfl
theorem standbyImageChecked : Statement (.standbyImageChecked) := of_none rfl
theorem powerBelowCap (watts : Nat) : Statement (.powerBelowCap watts) := of_none rfl
theorem rotationSliceDelivery (die : Nat) : Statement (.rotationSliceDelivery die) := of_none rfl
theorem collectiveContribution (id : Nat) (idx : Nat) : Statement (.collectiveContribution id idx) := of_none rfl

end Sys2Proof.Laws.RoundTrip
end

