-- ==== Sys2Proof/Safety.lean ====
section
/-! DEFINITION. What claims are stated in: when an instruction answers, what every step keeps, how one byte is read, and
the frames that say what an instruction leaves alone. -/

namespace Sys2Proof.Machine

/-- The instruction answers a next state: no fault and no refusal. -/
def Answers (o : Out) : Prop := ∃ s, o = .next s

/-- The byte that memory holds under a key: device-physical addresses, tile stores and host memories (Memory). -/
def State.byteAt (s : State) (k : Nat) : Byte := s.mem.get k

/-- What every step keeps: memory is in its one canonical form, so that equal memories are equal data. -/
def State.Inv (s : State) : Prop := s.mem.wf = true

/-- Tile core t, which stands in the focus, executes the block r. -/
def State.Runs (s : State) (t : Nat) (r : BlockRun) : Prop := s.sched.focus.tile = t ∧ (s.core t).run = some r

/-- A block may write g register d: the register is not masked, or not written yet (R236). -/
def BlockRun.mayWrite (r : BlockRun) (d : Nat) : Prop := (r.writeMask.getLsbD d && r.written.getLsbD d) = false

/-- A block may produce LSID l (R236). -/
def BlockRun.mayProduce (r : BlockRun) (l : Nat) : Prop := (r.storeMask.getLsbD l && r.produced.getLsbD l) = false

/-- The block after a word that writes v to g register d: the register, its mark, the next word, no prefix pending. -/
def BlockRun.wrote (r : BlockRun) (d : Nat) (v : Word) : BlockRun :=
  { r with g := r.g.set d v, written := r.written ||| BitVec.ofNat 32 (2 ^ d), pos := r.pos + 1, pfx := none }

/-- The block after a word that holds an effect until commit. -/
def BlockRun.held (r : BlockRun) (e : Effect) : BlockRun :=
  { r with effects := r.effects ++ [(r.pos, e)], pos := r.pos + 1, pfx := none }

/-- The block after a word that holds a store of LSID l until commit. -/
def BlockRun.stored (r : BlockRun) (l : Nat) (p : PStore) : BlockRun :=
  { r with stores := r.stores ++ [p], produced := r.produced ||| BitVec.ofNat 32 (2 ^ l), pos := r.pos + 1, pfx := none }

/-- What a tile's own accesses find under a key: a dirty byte of its cache before memory (R141). -/
def State.tileByte (s : State) (t k : Nat) : Byte :=
  match (s.tile t).cache.find? (fun c => c.line == k / 64 && c.dirty.getLsbD (k % 64)) with
  | some c => c.bytes.getD (k % 64) 0
  | none => s.byteAt k

/-- A tile's cache in good order: one line of 64 bytes for each address, and no dirty byte outside its valid sectors. -/
def Tile.cacheOk (x : Tile) : Prop :=
  (x.cache.map (·.line)).Nodup ∧
  ∀ c ∈ x.cache, c.bytes.length = 64 ∧ ∀ i, i < 64 → c.dirty.getLsbD i = true → c.valid.getLsbD (i / 32) = true

/-- Every masked LSID and g register of a block has been produced (R53). -/
def BlockRun.masksMet (r : BlockRun) : Prop :=
  ∀ k, k < 32 → (r.storeMask.getLsbD k = true → r.produced.getLsbD k = true) ∧
    (r.writeMask.getLsbD k = true → r.written.getLsbD k = true)

/-- The state in which tile core t has gone on to the block r, with nothing else changed. -/
def State.ranTo (s : State) (t : Nat) (r : BlockRun) : State := s.setRun t r

/-- The word answers the state in which tile core t has gone on past it with v in g register d, and nothing else has
changed. -/
def Writes (i : Instr) (s : State) (t : Nat) (r : BlockRun) (d : Nat) (v : Word) : Prop :=
  exec i s = .next (s.ranTo t (r.wrote d v))

/-- Only tile t differs between two states. -/
def OnlyTile (t : Nat) (s s' : State) : Prop :=
  { s' with tiles := s.tiles } = s ∧ ∀ u, u ≠ t → s'.tile u = s.tile u

/-- Only the block in progress of tile core t differs. -/
def OnlyRun (t : Nat) (s s' : State) : Prop :=
  OnlyTile t s s' ∧ s'.tile t = { s.tile t with core := { s.core t with run := (s'.core t).run } }

/-- Only cell c of tile t differs. -/
def OnlyCell (t c : Nat) (s s' : State) : Prop :=
  OnlyTile t s s' ∧ { s'.tile t with cells := (s.tile t).cells } = s.tile t ∧
  ∀ d, d ≠ c → s'.cellAt t d = s.cellAt t d

/-! ### What statements name -/

/-- A command has entered a queue in the order of R275: behind every command but those of its own cycle that come after its
issuer, which is 0 for the tile core and c + 1 for cell c; where it stands last it has the round of the queue (R436). -/
def QueuedInOrder (cycle rank round : Nat) (before after : List QCmd) (c : QCmd) : Prop :=
  ∃ pre post post' e, before = pre ++ post ∧ after = pre ++ { c with epoch := e } :: post' ∧
    post'.map (·.id) = post.map (·.id) ∧ (post = [] → e = round) ∧
    (∀ x ∈ post, x.cycle = cycle ∧ rank < x.by_.rank) ∧
    ∀ x, pre.getLast? = some x → ¬(x.cycle = cycle ∧ rank < x.by_.rank)

/-- The value of an n-bit field, or with a prefix of the n + 24 bits that the prefix makes of it, read as a two's
complement number (R165). -/
def extended (n : Nat) (p : Option Nat) (i : Nat) : Int :=
  match p with
  | none => if i < 2 ^ (n - 1) then i else (i : Int) - 2 ^ n
  | some h => if h < 2 ^ 23 then h * 2 ^ n + i else (h * 2 ^ n + i : Int) - 2 ^ (n + 24)

/-! ### Cells -/

/-- A firing that took effect with token k: heads popped, flags raised, the token at each destination, and what every
firing ends with. -/
def State.fired (s : State) (fr : Firing) (fl : Nat → BitVec 5) (k : Token) : State :=
  (((s.takeHeads fr).raiseFlags fr fl).emit fr k).endFiring fr

/-- A firing that took effect and sent no token by itself. -/
def State.firedWith (s : State) (fr : Firing) (act : State → State) : State :=
  (act ((s.takeHeads fr).raiseFlags fr (fun _ => 0))).endFiring fr

/-- A compare that took effect: its bit in each executing lane of a predicate, its reduction to a control output (R182). -/
def State.compared (s : State) (fr : Firing) (fl : Nat → BitVec 5) (bits : Nat → Bool) : State :=
  (fr.dsts.foldl (fun u d =>
    if 16 ≤ d ∧ d ≤ 19 then u.setPred fr (d - 16) bits
    else if d = 20 ∨ d = 21 then
      u.sendCtl fr.t fr.c (d - 20) (if fr.f.allLanes then fr.exec != 0 && fr.lanes.all bits else fr.lanes.any bits)
    else u) ((s.takeHeads fr).raiseFlags fr fl)).endFiring fr

/-- A slot of opcode op that is ready gives lane values v with flags fl: it takes effect where no raised flag has its trap
enabled, and otherwise does nothing but trap with the flags of R403. -/
def FiresLanes (i : Instr) (op : Nat) (f : CellF) (s : State) (v : Nat → Fw) (fl : Nat → BitVec 5) : Prop :=
  let fr := s.firing op f
  s.slotReady fr = true →
    ((∀ l ∈ fr.lanes, fl l &&& fr.x.ctx.trapEn = 0) →
      exec i s = .next (s.fired fr fl (mkToken v fr.exec fr.tag false))) ∧
    ((∃ l ∈ fr.lanes, fl l &&& fr.x.ctx.trapEn ≠ 0) → exec i s = .next (s.cellTrap fr 1 0 (fr.anyFlag fl) 0))

/-- The same for a compare, with bits for lane values. -/
def FiresBits (i : Instr) (op : Nat) (f : CellF) (s : State) (bits : Nat → Bool) (fl : Nat → BitVec 5) : Prop :=
  let fr := s.firing op f
  s.slotReady fr = true →
    ((∀ l ∈ fr.lanes, fl l &&& fr.x.ctx.trapEn = 0) → exec i s = .next (s.compared fr fl bits)) ∧
    ((∃ l ∈ fr.lanes, fl l &&& fr.x.ctx.trapEn ≠ 0) → exec i s = .next (s.cellTrap fr 1 0 (fr.anyFlag fl) 0))

/-- A firing whose results stand in the lanes of a mask: it takes effect where none of their flags has its trap enabled,
and otherwise traps. -/
def FiresMask (i : Instr) (fr : Firing) (s : State) (m : BitVec 8) (v : Nat → Fw × BitVec 5) : Prop :=
  let fl (l : Nat) : BitVec 5 := if m.getLsbD l then (v l).2 else 0
  ((∀ l ∈ fr.lanes, fl l &&& fr.x.ctx.trapEn = 0) →
    exec i s = .next (s.fired fr fl (mkToken (fun l => (v l).1) m fr.tag false))) ∧
  ((∃ l ∈ fr.lanes, fl l &&& fr.x.ctx.trapEn ≠ 0) → exec i s = .next (s.cellTrap fr 1 0 (fr.anyFlag fl) 0))

/-- Lane i of a source of the focused slot as an unsigned and as a signed 32-bit number (R181). -/
def State.laneNat (s : State) (v i : Nat) : Nat :=
  (lane (s.source s.sched.focus.tile s.sched.focus.cell v) i).toNat % 2 ^ 32
def State.laneInt (s : State) (v i : Nat) : Int :=
  if s.laneNat v i < 2 ^ 31 then s.laneNat v i else (s.laneNat v i : Int) - 2 ^ 32
/-- Lane i of a source of the focused slot. -/
def State.laneFw (s : State) (v i : Nat) : Fw := lane (s.source s.sched.focus.tile s.sched.focus.cell v) i

/-- An integer result: modulo 2^32, with bits [39:32] zero (R181). -/
def laneOfInt (x : Int) : Fw := BitVec.ofInt 40 (x % 2 ^ 32)

/-! ### Rounded values -/

/-- Whether an FW40 pattern is finite, and the value of one that is (R81): an exponent of 0 is a zero. -/
def fwFinite (x : Fw) : Prop := x.toNat / 2 ^ 28 % 2 ^ 11 ≠ 2047
def fwValue (x : Fw) : ℚ :=
  let e : Nat := x.toNat / 2 ^ 28 % 2 ^ 11
  let v : ℚ := if e = 0 then 0 else ((2 ^ 27 + x.toNat % 2 ^ 27 : Nat) : ℚ) * (2 : ℚ) ^ ((e : Int) - 1050)
  if x.getLsbD 39 = true then -v else v

/-- Whether an FW40 pattern is an infinity (R81). -/
def fwInfinite (x : Fw) : Prop := x.toNat / 2 ^ 28 % 2 ^ 11 = 2047 ∧ x.toNat % 2 ^ 27 = 0

/-- A number that p significant bits hold, whatever its exponent. -/
def HasBits (p : Nat) (y : ℝ) : Prop := ∃ k e : Int, |k| ≤ 2 ^ p ∧ y = (k : ℝ) * (2 : ℝ) ^ e

/-- y is x rounded to 28 significant bits in a mode (R82): the nearest number, of two the one with an even significand; the
nearest toward zero; the greatest not above x; the least not below it. -/
def RoundsTo (mode : Rnd) (x y : ℝ) : Prop :=
  HasBits 28 y ∧
  match mode with
  | .rne => (∀ z, HasBits 28 z → |x - y| ≤ |x - z|) ∧
      ∀ z, HasBits 28 z → z ≠ y → |x - y| = |x - z| → HasBits 27 y
  | .rtz => 0 ≤ x * y ∧ |y| ≤ |x| ∧ ∀ z, HasBits 28 z → |z| ≤ |x| → |z| ≤ |y|
  | .rdn => y ≤ x ∧ ∀ z, HasBits 28 z → z ≤ x → z ≤ y
  | .rup => x ≤ y ∧ ∀ z, HasBits 28 z → x ≤ z → y ≤ z

/-- k is x rounded to an integer in a mode (R82). -/
def RoundsInt (mode : Rnd) (x : ℝ) (k : Int) : Prop :=
  match mode with
  | .rne => |x - k| ≤ 1 / 2 ∧ (|x - k| = 1 / 2 → k % 2 = 0)
  | .rtz => 0 ≤ x * k ∧ |(k : ℝ)| ≤ |x| ∧ |x| < |(k : ℝ)| + 1
  | .rdn => (k : ℝ) ≤ x ∧ x < k + 1
  | .rup => x ≤ (k : ℝ) ∧ (k : ℝ) < x + 1

/-- What a mode gives for a result too large (R82). -/
def overflowPattern (mode : Rnd) (neg : Bool) : Fw :=
  match mode, neg with
  | .rne, false => 0x7FF8000000
  | .rne, true => 0xFFF8000000
  | .rtz, false => 0x7FEFFFFFFF
  | .rtz, true => 0xFFEFFFFFFF
  | .rdn, false => 0x7FEFFFFFFF
  | .rdn, true => 0xFFF8000000
  | .rup, false => 0x7FF8000000
  | .rup, true => 0xFFEFFFFFFF

/-- r is the pattern and the flags of RoundFW40 (R82) of a number x other than 0: x rounded to 28 bits, where the range holds
it; overflow and inexact above it; a zero with underflow and inexact below it. -/
def RoundsFw (mode : Rnd) (x : ℝ) (r : Fw × BitVec 5) : Prop :=
  ∃ y, RoundsTo mode x y ∧
    ((2 : ℝ) ^ 1024 ≤ |y| → (0 < x → r = (overflowPattern mode false, 5)) ∧ (x < 0 → r = (overflowPattern mode true, 5))) ∧
    (|y| < (2 : ℝ) ^ (-1022 : Int) → (0 < x → r = (0, 3)) ∧ (x < 0 → r = (0x8000000000, 3))) ∧
    ((2 : ℝ) ^ (-1022 : Int) ≤ |y| → |y| < (2 : ℝ) ^ 1024 →
      fwFinite r.1 ∧ r.1.getLsbD 27 = true ∧ ((fwValue r.1 : ℚ) : ℝ) = y ∧ (y = x → r.2 = 0) ∧ (y ≠ x → r.2 = 1))

/-- r is the rounded sum x of terms (R82, R189): where x is 0, a zero whose sign is neg if all terms are zeros, and the one of
the mode if they cancel. -/
def SumsTo (mode : Rnd) (x : ℝ) (zeros : Prop) (neg : Bool) (r : Fw × BitVec 5) : Prop :=
  (x ≠ 0 → RoundsFw mode x r) ∧ (x = 0 → zeros → r = (if neg = true then 0x8000000000 else 0, 0)) ∧
  (x = 0 → ¬zeros → r = (if mode = .rdn then 0x8000000000 else 0, 0))

/-- The join of PairTree (R94) over values with the flags raised so far: an absent side gives the other. -/
def joinLane (comb : Fw → Fw → Fw × BitVec 5) (x y : Option (Fw × BitVec 5)) : Option (Fw × BitVec 5) :=
  match x, y with
  | some a, some b => some ((comb a.1 b.1).1, a.2 ||| b.2 ||| (comb a.1 b.1).2)
  | none, z => z
  | z, none => z

/-- PairTree over the eight lanes of a cell (R94, R201). -/
def laneTree (comb : Fw → Fw → Fw × BitVec 5) (x : Nat → Option Fw) : Option (Fw × BitVec 5) :=
  let l (i : Nat) : Option (Fw × BitVec 5) := (x i).map (fun v => (v, 0))
  let j := joinLane comb
  j (j (j (l 0) (l 1)) (j (l 2) (l 3))) (j (j (l 4) (l 5)) (j (l 6) (l 7)))

end Sys2Proof.Machine

namespace Sys2Proof

/-- The g register that a word of the register class writes: the R and I formats, TNOW and CSRR. -/
def Instr.regDest : Instr → Option Nat
  | .add d _ _ => some d
  | .sub d _ _ => some d
  | .mul d _ _ => some d
  | .mulh d _ _ => some d
  | .mulhu d _ _ => some d
  | .div d _ _ => some d
  | .divu d _ _ => some d
  | .rem d _ _ => some d
  | .remu d _ _ => some d
  | .and d _ _ => some d
  | .or d _ _ => some d
  | .xor d _ _ => some d
  | .andn d _ _ => some d
  | .shl d _ _ => some d
  | .shr d _ _ => some d
  | .sar d _ _ => some d
  | .rot d _ _ => some d
  | .clz d _ => some d
  | .popc d _ => some d
  | .cseq d _ _ => some d
  | .csne d _ _ => some d
  | .cslt d _ _ => some d
  | .csle d _ _ => some d
  | .csltu d _ _ => some d
  | .csleu d _ _ => some d
  | .adds d _ _ _ => some d
  | .min d _ _ => some d
  | .max d _ _ => some d
  | .addi d _ _ => some d
  | .andi d _ _ => some d
  | .ori d _ _ => some d
  | .xori d _ _ => some d
  | .shli d _ _ => some d
  | .shri d _ _ => some d
  | .sari d _ _ => some d
  | .cslti d _ _ => some d
  | .cseqi d _ _ => some d
  | .li d _ => some d
  | .tnow d => some d
  | .csrr d _ => some d
  | _ => none

end Sys2Proof
end

