-- ==== Sys2Proof/Certificates/Slice0/Obligations.lean ====
section
/-! DEFINITION. The statements for the provers, from the rules of the spec. -/

set_option linter.unusedVariables false

open Sys2Proof Sys2Proof.Machine

/-! ### The tile core: arithmetic -/

/-- R237: the words of the R format: sums, products and the bitwise words; quotients and remainders with their edge
cases; shifts, the rotation and the bit counts; compares, and the signed minimum and maximum. -/
def Obligations.WordOperations : Prop :=
  ∀ (s : State) (t : Nat) (r : BlockRun) (d a b : Nat), s.Runs t r → r.mayWrite d →
    let x := r.reg a
    let y := r.reg b
    let n := y.toNat
    Writes (.add d a b) s t r d (wd (x.toNat + y.toNat)) ∧
    Writes (.sub d a b) s t r d (BitVec.ofInt 64 (x.toInt - y.toInt)) ∧
    Writes (.mul d a b) s t r d (wd (x.toNat * y.toNat)) ∧
    Writes (.mulh d a b) s t r d (BitVec.ofInt 64 ((x.toInt * y.toInt).fdiv (2 ^ 64))) ∧
    Writes (.mulhu d a b) s t r d (wd (x.toNat * y.toNat / 2 ^ 64)) ∧
    Writes (.and d a b) s t r d (wd (x.toNat &&& y.toNat)) ∧
    Writes (.or d a b) s t r d (wd (x.toNat ||| y.toNat)) ∧
    Writes (.xor d a b) s t r d (wd (x.toNat ^^^ y.toNat)) ∧
    Writes (.andn d a b) s t r d (wd (x.toNat &&& (2 ^ 64 - 1 - y.toNat))) ∧
    (∀ n, n < 4 → Writes (.adds d a b n) s t r d (wd (x.toNat + y.toNat * 2 ^ n))) ∧
    Writes (.cseq d a b) s t r d (if x.toNat = y.toNat then 1 else 0) ∧
    Writes (.csne d a b) s t r d (if x.toNat = y.toNat then 0 else 1) ∧
    Writes (.cslt d a b) s t r d (if x.toInt < y.toInt then 1 else 0) ∧
    Writes (.csle d a b) s t r d (if x.toInt ≤ y.toInt then 1 else 0) ∧
    Writes (.csltu d a b) s t r d (if x.toNat < y.toNat then 1 else 0) ∧
    Writes (.csleu d a b) s t r d (if x.toNat ≤ y.toNat then 1 else 0) ∧
    (∃ v : Word, Writes (.min d a b) s t r d v ∧ v.toInt = Min.min x.toInt y.toInt) ∧
    (∃ v : Word, Writes (.max d a b) s t r d v ∧ v.toInt = Max.max x.toInt y.toInt) ∧
    (∃ v : Word, Writes (.shl d a b) s t r d v ∧ ∀ k, k < 64 → v.getLsbD k = (decide (n ≤ k) && x.getLsbD (k - n))) ∧
    (∃ v : Word, Writes (.shr d a b) s t r d v ∧ ∀ k, k < 64 → v.getLsbD k = x.getLsbD (k + n)) ∧
    (∃ v : Word, Writes (.sar d a b) s t r d v ∧ v.toInt = x.toInt.fdiv (2 ^ min n 63)) ∧
    (∃ v : Word, Writes (.rot d a b) s t r d v ∧ ∀ k, k < 64 → v.getLsbD ((k + n) % 64) = x.getLsbD k) ∧
    (∃ c, c ≤ 64 ∧ Writes (.clz d a) s t r d (wd c) ∧ (∀ k, 64 - c ≤ k → x.getLsbD k = false) ∧
      (c < 64 → x.getLsbD (63 - c) = true)) ∧
    Writes (.popc d a) s t r d (wd ((Finset.range 64).filter (fun k => x.getLsbD k = true)).card) ∧
    (y = 0 →
      Writes (.div d a b) s t r d 0xFFFFFFFFFFFFFFFF#64 ∧ Writes (.divu d a b) s t r d 0xFFFFFFFFFFFFFFFF#64 ∧
      Writes (.rem d a b) s t r d x ∧ Writes (.remu d a b) s t r d x) ∧
    (y.toInt = -1 → x.toInt = -2 ^ 63 → Writes (.div d a b) s t r d x ∧ Writes (.rem d a b) s t r d 0) ∧
    (y ≠ 0 → ¬(y.toInt = -1 ∧ x.toInt = -2 ^ 63) →
      ∃ q m : Word, Writes (.div d a b) s t r d q ∧ Writes (.rem d a b) s t r d m ∧
        q.toInt = x.toInt.tdiv y.toInt ∧ m.toInt = x.toInt.tmod y.toInt ∧ x.toInt = q.toInt * y.toInt + m.toInt) ∧
    (y ≠ 0 →
      ∃ q m : Word, Writes (.divu d a b) s t r d q ∧ Writes (.remu d a b) s t r d m ∧
        x.toNat = q.toNat * y.toNat + m.toNat ∧ m.toNat < y.toNat)

/-- R165, R238: the immediate words, alone and after PFX. -/
def Obligations.ImmediateWords : Prop :=
  ∀ (s : State) (t : Nat) (r : BlockRun) (d a i : Nat), s.Runs t r → r.mayWrite d → i < 2 ^ 14 →
    (∀ h, r.pfx = some h → h < 2 ^ 24) →
    let x := r.reg a
    let m := extended 14 r.pfx i
    Writes (.addi d a i) s t r d (BitVec.ofInt 64 (x.toInt + m)) ∧
    Writes (.andi d a i) s t r d (x &&& BitVec.ofInt 64 m) ∧
    Writes (.ori d a i) s t r d (x ||| BitVec.ofInt 64 m) ∧
    Writes (.xori d a i) s t r d (x ^^^ BitVec.ofInt 64 m) ∧
    Writes (.cslti d a i) s t r d (if x.toInt < m then 1 else 0) ∧
    Writes (.cseqi d a i) s t r d (if x.toInt = m then 1 else 0) ∧
    Writes (.li d i) s t r d (BitVec.ofInt 64 m) ∧
    (i < 64 →
      (∃ v : Word, Writes (.shli d a i) s t r d v ∧ v.toNat = x.toNat * 2 ^ i % 2 ^ 64) ∧
      (∃ v : Word, Writes (.shri d a i) s t r d v ∧ v.toNat = x.toNat / 2 ^ i) ∧
      (∃ v : Word, Writes (.sari d a i) s t r d v ∧ v.toInt = x.toInt.fdiv (2 ^ i)))

/-- The frame of the words that write one register: the destination, its mark and the position in the block change, and
nothing else of the machine. -/
def Obligations.RegisterWordFrame : Prop :=
  ∀ (s s' : State) (t : Nat) (r : BlockRun) (i : Instr) (d : Nat), s.Runs t r → i.regDest = some d → r.mayWrite d →
    exec i s = .next s' →
    OnlyRun t s s' ∧ (∀ k, s'.byteAt k = s.byteAt k) ∧
    ∃ r', (s'.core t).run = some r' ∧ (∀ k, k ≠ d → r'.reg k = r.reg k) ∧
      { r' with g := r.g, written := r.written, pos := r.pos, pfx := r.pfx } = r ∧ r'.pos = r.pos + 1 ∧
      r'.pfx = none ∧ (d < 32 → ∀ k, r'.written.getLsbD k = (r.written.getLsbD k || decide (k = d)))

/-! ### The tile core: uniform registers, block control, memory -/

/-- R233, R239: uniform registers as the block sees them. A KST is seen by later words of its block, and an instance
with no set traps with code 7; one that the block has not written reads as the set holds it. R165, R242, R244: PFX waits
for the next word; SNUL and GNUL count as productions and change no value; a release fence waits for commit, and an acquire
fence acts at once, on the tile cache from die scope on, and is held as well, for the atomics before it (log 119). -/
def Obligations.UniformAndNullWords : Prop :=
  (∀ (s : State) (t : Nat) (r : BlockRun), s.Runs t r →
    (s.noSet t r = false →
      (∀ d k, r.mayWrite d → Writes (.kld d k) s t r d (s.uniform t r k)) ∧
      (∀ g k, exec (.kst g k) s = .next (s.ranTo t (r.held (.kst k (r.reg g)))) ∧
        ∀ j, (s.ranTo t (r.held (.kst k (r.reg g)))).uniform t (r.held (.kst k (r.reg g))) j =
          if j = k then r.reg g else s.uniform t r j) ∧
      (∀ k, (∀ e ∈ r.effects, ∀ v, e.2 ≠ .kst k v) →
        s.uniform t r k = ((s.core t).k.getD (s.instOf t r).set {}).getD k 0) ∧
      (∀ a b, exec (.kmov a b) s = .next (s.ranTo t (r.held (.kst a (s.uniform t r b)))))) ∧
    (s.noSet t r = true → ∀ a b,
      exec (.kld a b) s = .next (s.blockTrap t r 7 0 0x3F r.word 0) ∧
      exec (.kst a b) s = .next (s.blockTrap t r 7 0 0x3F r.word 0) ∧
      exec (.kmov a b) s = .next (s.blockTrap t r 7 0 0x3F r.word 0))) ∧
  (∀ (s : State) (t : Nat) (r : BlockRun), s.Runs t r →
    (∀ h, exec (.pfx h) s = .next (s.ranTo t { r with pos := r.pos + 1, pfx := some h })) ∧
    (∀ l, r.mayProduce l →
      exec (.snul l) s = .next (s.ranTo t
        { r with produced := r.produced ||| BitVec.ofNat 32 (2 ^ l), pos := r.pos + 1, pfx := none })) ∧
    (∀ d, r.mayWrite d →
      exec (.gnul d) s = .next (s.ranTo t
        { r with written := r.written ||| BitVec.ofNat 32 (2 ^ d), pos := r.pos + 1, pfx := none })) ∧
    (∀ l c, exec (.fenRel l c) s = .next (s.ranTo t
      { r with stores := r.stores ++ [.fenRel l r.pos c], pos := r.pos + 1, pfx := none })) ∧
    (∀ l c, exec (.fenAcq l c) s = .next ((if c = 0 then s else s.cacheFlush t).ranTo t
      { r with stores := r.stores ++ [.fenAcq l r.pos c], pos := r.pos + 1, pfx := none })) ∧
    (∀ x ∈ ((s.cacheFlush t).tile t).cache, x.stuck = true) ∧
    ∀ k, (s.cacheFlush t).byteAt k = s.byteAt k ∨ ∃ x ∈ (s.tile t).cache, x.line = k / 64 ∧ x.dirty.getLsbD (k % 64) = true)

/-- R169, R240, R241: SKIP, EXIT and END under the conditions of format B. -/
def Obligations.BlockControl : Prop :=
  ∀ (s : State) (t : Nat) (r : BlockRun) (c g n : Nat), s.Runs t r → c ≤ 6 → n < 2 ^ 15 →
    let v := (r.reg g).toInt
    let holds := c = 0 ∨ (c = 1 ∧ v = 0) ∨ (c = 2 ∧ v ≠ 0) ∨ (c = 3 ∧ v < 0) ∨ (c = 4 ∧ 0 ≤ v) ∨ (c = 5 ∧ 0 < v) ∨
      (c = 6 ∧ v ≤ 0)
    let target := if n < 2 ^ 14 then r.word + n else r.word + n - 2 ^ 15
    (holds → exec (.skip c g n) s = .next (s.ranTo t { r with pos := r.pos + 1 + n, pfx := none }) ∧
      exec (.exit c g n) s = .next (s.commit t r (some target))) ∧
    (¬holds → exec (.skip c g n) s = .next (s.ranTo t { r with pos := r.pos + 1, pfx := none }) ∧
      exec (.exit c g n) s = .next (s.ranTo t { r with pos := r.pos + 1, pfx := none })) ∧
    exec .endI s = .next (s.commit t r none)

/-- R53, R235, R236, R240, R241, R247, R249: a block may commit only where every masked LSID and register has been produced;
otherwise the exit traps it with code 2 and nothing of it is performed. One whose SPAWN or RFWD fails a check at commit traps
with code 8, or with 0x1D where it would read an array that holds an uncorrectable error (R419), at the first such word; one whose
store cannot be performed traps with that store's code, 0x0D where its remote package does not answer (R445). That a row with a
reserved payload format fails this check too is the model's choice (log 106). EXIT gives the instance the block's registers
and its next block; END removes it, and in an instance with no set nothing else changes. Effects are performed in body
order, after the registers are the instance's, and after the tile's dirty bytes are written back where an effect tells
another agent. -/
def Obligations.BlockCommit : Prop :=
  (∀ (s : State) (t : Nat) (r : BlockRun) (target : Option Nat), s.Runs t r →
    (∃ k, k < 32 ∧ ((r.storeMask.getLsbD k = true ∧ r.produced.getLsbD k = false) ∨
      (r.writeMask.getLsbD k = true ∧ r.written.getLsbD k = false))) →
    s.commit t r target = s.blockTrap t r 2 0 0x3F r.word 0) ∧
  (∀ (s : State) (t : Nat) (r : BlockRun) (target : Option Nat) (w : Nat) (rest : List Nat), s.Runs t r → r.masksMet →
    r.stores = [] → s.justEjected t r = false → s.rfwdLost t r = w :: rest → (∀ x ∈ rest, w ≤ x) →
    (∀ f ∈ s.sendFailures t r, w ≤ f.pos) → s.commit t r target = s.blockTrap t r 8 0 0x3F (r.base + 3 + w) 0) ∧
  (∀ (s : State) (t : Nat) (r : BlockRun) (target : Option Nat) (f : CommitFail) (rest : List CommitFail), s.Runs t r →
    r.masksMet → r.stores = [] → s.rfwdLost t r = [] → s.sendFailures t r = f :: rest → (∀ x ∈ rest, f.pos ≤ x.pos) →
    (f.code = 8 → s.commit t r target = s.blockTrap t r 8 0 0x3F (r.base + 3 + f.pos) 0) ∧
    (f.code ≠ 8 → f.code = 0x1D ∧ s.commit t r target = s.memoryTrap t r 0x3F (r.base + 3 + f.pos) ⟨0x1D, f.ea, 0⟩)) ∧
  (∀ (s : State) (t : Nat) (r : BlockRun) (target : Option Nat) (p : PStore), s.Runs t r → r.masksMet → r.stores = [p] →
    r.effects = [] → s.storeCode t p ≠ 0 → s.commit t r target = s.memoryTrap t r p.lsid (r.base + 3 + p.pos)
      ⟨s.storeCode t p, p.ea, if s.storeCode t p = 0x0D then s.physDetail 0x0D (p.keys.headD 0) 0 else 0⟩) ∧
  (∀ (s : State) (t l p a w : Nat) (v ea : Word) (rel : Option Nat), 0 < w → 2 ^ 51 ≤ a → a + w ≤ 2 ^ 52 →
    s.pkgReachable (a / 2 ^ 43 % 2 ^ 8) = false →
    s.storeCode t (.store l p a w v rel ea) = 0x0D) ∧
  (∀ (s : State) (pos row t : Nat) (g : RowGroup) (p : Placement),
    let at_ := g.base + 128 * row
    let r := recOfBytes (s.mem.getN (tileKey g.home at_) 128)
    s.badRead (keysFrom (tileKey g.home at_) 128) = false → s.places.find? g.pk = some p →
    (10 ≤ r.h1.toNat / 2 ^ 48 % 16 → (s.rfwdFail t pos row g p).map (·.code) = some 8) ∧
    (r.h1.toNat / 2 ^ 48 % 16 < 10 → s.badRead (keysFrom (tileKey g.home (g.pay + 64 * (s.parOf p).payload * row))
      (64 * min (s.parOf p).payload r.lines)) = false → s.rfwdFail t pos row g p = none)) ∧
  (∀ (s : State) (t : Nat) (r : BlockRun), s.Runs t r → r.masksMet → r.stores = [] → r.effects = [] →
    (∀ target, s.commit t r (some target) = s.updCore t (fun c =>
      { c with run := none, insts := c.insts.set r.inst { s.instOf t r with g := r.g, block := target } })) ∧
    ((s.commit t r none).core t).run = none ∧ ((s.commit t r none).core t).insts.find? r.inst = none ∧
    (∀ k, (s.commit t r none).byteAt k = s.byteAt k) ∧
    (s.noSet t r = true →
      OnlyTile t s (s.commit t r none) ∧ ∀ n, n ≠ r.inst →
        ((s.commit t r none).core t).insts.find? n = (s.core t).insts.find? n)) ∧
  (∀ (s : State) (t : Nat) (r : BlockRun) (target : Nat), s.Runs t r → r.masksMet → r.stores = [] →
    s.rfwdLost t r = [] → s.sendFailures t r = [] →
    let i := s.instOf t r
    let s1 := s.updCore t (fun c =>
      { c with run := none, insts := c.insts.set r.inst { i with g := r.g, block := target } })
    let s2 := if r.effects.any (fun e => e.2.tells) = true then s1.cacheRelease t else s1
    s.commit t r (some target) = r.effects.foldl (fun s e => s.applyEffect t r.inst i e.2) s2)

/-- R165, R243, R244: a load whose access passes its checks returns its bytes, low byte first, sign- or zero-extended;
bytes of earlier-LSID stores of its own block come before memory's. A byte comes from the latest own store of lower LSID
that covers it. That such a store is one that has executed before the load in the body, and that the bytes of an AMO of the block
come from memory, because it is performed at commit, are the model's reading (log 30). -/
def Obligations.LoadWords : Prop :=
  (∀ (s s1 s2 : State) (t : Nat) (r : BlockRun) (d a l i n : Nat) (ea : Word) (ks : List Nat) (b : List Byte),
    s.Runs t r → r.mayWrite d → i < 2 ^ 9 → (∀ h, r.pfx = some h → h < 2 ^ 24) →
    s.coreAccess t r ea n true false = (.ok ks, s1) → s1.tileRead t ks = (some b, s2) →
    let v := leNat ((ks.zip b).map (fun p => forward r.stores l p.1 p.2))
    let signedWord (m : Nat) : Word := BitVec.ofInt 64 (if v < 2 ^ (m - 1) then v else (v : Int) - 2 ^ m)
    (ea = r.reg a + BitVec.ofInt 64 (extended 9 r.pfx i) →
      (n = 1 → exec (.ldB d a l i) s = .next (s2.ranTo t (r.wrote d (signedWord 8))) ∧
        exec (.ldBu d a l i) s = .next (s2.ranTo t (r.wrote d (wd v)))) ∧
      (n = 2 → exec (.ldH d a l i) s = .next (s2.ranTo t (r.wrote d (signedWord 16))) ∧
        exec (.ldHu d a l i) s = .next (s2.ranTo t (r.wrote d (wd v)))) ∧
      (n = 4 → exec (.ldW d a l i) s = .next (s2.ranTo t (r.wrote d (signedWord 32))) ∧
        exec (.ldWu d a l i) s = .next (s2.ranTo t (r.wrote d (wd v)))) ∧
      (n = 8 → exec (.ld d a l i) s = .next (s2.ranTo t (r.wrote d (wd v))))) ∧
    (∀ j c : Nat, j < 2 ^ 6 → n = 8 → ea = r.reg a + BitVec.ofInt 64 (8 * if j < 32 then (j : Int) else j - 64) →
      exec (.ldAcq d a l c j) s =
        .next ((if c = 0 then s2 else s2.cacheFlush t).ranTo t (r.wrote d (wd v))))) ∧
  (∀ (stores : List PStore) (l k : Nat) (b : Byte),
    ((∀ ls p a w v rel ea, PStore.store ls p a w v rel ea ∈ stores → ¬(ls < l ∧ a ≤ k ∧ k < a + w)) →
      forward stores l k b = b) ∧
    (∀ ls p a w v rel ea, PStore.store ls p a w v rel ea ∈ stores → ls < l → a ≤ k → k < a + w →
      (∀ ls' p' a' w' v' rel' ea', PStore.store ls' p' a' w' v' rel' ea' ∈ stores →
        PStore.store ls' p' a' w' v' rel' ea' ≠ .store ls p a w v rel ea → ls' < l → a' ≤ k → k < a' + w' → ls' < ls) →
      forward stores l k b = BitVec.ofNat 8 (v.toNat / 2 ^ (8 * (k - a)))))

/-- The frame of a load: the destination register, its mark and the position in the block; of memory only dirty bytes of
the tile's own cache may have been written back, which makes their sectors dirty in a die cache; of the tile only its
core's block and its cache, and elsewhere only the VIs' translations and the model's own counters. -/
def Obligations.LoadFrame : Prop :=
  ∀ (s s1 s2 : State) (t : Nat) (r : BlockRun) (d n : Nat) (ea v : Word) (ks : List Nat) (b : List Byte),
    s.Runs t r → s.coreAccess t r ea n true false = (.ok ks, s1) → s1.tileRead t ks = (some b, s2) →
    let s' := s2.ranTo t (r.wrote d v)
    (s'.core t).run = some (r.wrote d v) ∧ (∀ k, k ≠ d → (r.wrote d v).reg k = r.reg k) ∧
    { s'.core t with run := some r } = s.core t ∧
    { s'.tile t with core := s.core t, cache := (s.tile t).cache } = s.tile t ∧ (∀ u, u ≠ t → s'.tile u = s.tile u) ∧
    { s' with vis := s.vis, sched := s.sched, mem := s.mem, bad := s.bad, die := s.die, tiles := s.tiles } = s ∧
    ∀ k, s'.byteAt k = s.byteAt k ∨ ∃ c ∈ (s.tile t).cache, c.line = k / 64 ∧ c.dirty.getLsbD (k % 64) = true

/-- R243, R244: a store whose access passes its checks is held with its address, width and value, its LSID produced;
memory, and what other agents see, does not change before commit. -/
def Obligations.StoresAreHeld : Prop :=
  ∀ (s s1 : State) (t : Nat) (r : BlockRun) (v a l i n : Nat) (ea : Word) (ks : List Nat),
    s.Runs t r → r.mayProduce l → i < 2 ^ 9 → (∀ h, r.pfx = some h → h < 2 ^ 24) →
    s.coreAccess t r ea n false true = (.ok ks, s1) →
    let held (rel : Option Nat) : Out :=
      .next (s1.ranTo t (r.stored l (.store l r.pos (ks.headD 0) n (r.reg v) rel ea)))
    (∀ k, s1.byteAt k = s.byteAt k) ∧
    (ea = r.reg a + BitVec.ofInt 64 (extended 9 r.pfx i) →
      (n = 1 → exec (.stB v a l i) s = held none) ∧ (n = 2 → exec (.stH v a l i) s = held none) ∧
      (n = 4 → exec (.stW v a l i) s = held none) ∧ (n = 8 → exec (.st v a l i) s = held none)) ∧
    (∀ j c : Nat, j < 2 ^ 6 → n = 8 → ea = r.reg a + BitVec.ofInt 64 (8 * if j < 32 then (j : Int) else j - 64) →
      exec (.stRel v a l c j) s = held (some c))

/-- R236, R243, R244, R404, R413: an access that fails a check traps the block with the check's code, its LSID and address.
Whether its record has the word's offset or the detail of R413 is free, which is the model's choice (log 29); the record of a
link that failed it comes before (log 100). -/
def Obligations.FailedAccessTraps : Prop :=
  (∀ (s : State) (t : Nat) (r : BlockRun) (l w : Nat) (e : Fail), ∃ (u : State) (d : Nat),
    s.memoryTrap t r l w e = u.blockTrapAs t r e.code 0 l w e.loc d ∧ (d = w % 2 ^ 24 ∨ d = e.detail) ∧ u.tiles = s.tiles ∧
    u.places = s.places ∧ u.net = s.net) ∧
  ∀ (s s1 : State) (t : Nat) (r : BlockRun) (x a l i n : Nat) (e : Fail), s.Runs t r →
    (s.coreAccess t r (eaM a i r) n true false = (.error e, s1) →
      let trap : Out := .next (s1.memoryTrap t r l r.word e)
      (n = 1 → exec (.ldB x a l i) s = trap ∧ exec (.ldBu x a l i) s = trap) ∧
      (n = 2 → exec (.ldH x a l i) s = trap ∧ exec (.ldHu x a l i) s = trap) ∧
      (n = 4 → exec (.ldW x a l i) s = trap ∧ exec (.ldWu x a l i) s = trap) ∧
      (n = 8 → exec (.ld x a l i) s = trap)) ∧
    (∀ ks s2, s.coreAccess t r (eaM a i r) n true false = (.ok ks, s2) → s2.tileRead t ks = (none, s1) →
      e = ⟨0x1D, eaM a i r, 0⟩ →
      let trap : Out := .next (s1.memoryTrap t r l r.word e)
      (n = 1 → exec (.ldB x a l i) s = trap ∧ exec (.ldBu x a l i) s = trap) ∧
      (n = 2 → exec (.ldH x a l i) s = trap ∧ exec (.ldHu x a l i) s = trap) ∧
      (n = 4 → exec (.ldW x a l i) s = trap ∧ exec (.ldWu x a l i) s = trap) ∧
      (n = 8 → exec (.ld x a l i) s = trap)) ∧
    (s.coreAccess t r (eaM a i r) n false true = (.error e, s1) →
      let trap : Out := .next (s1.memoryTrap t r l r.word e)
      (n = 1 → exec (.stB x a l i) s = trap) ∧ (n = 2 → exec (.stH x a l i) s = trap) ∧
      (n = 4 → exec (.stW x a l i) s = trap) ∧ (n = 8 → exec (.st x a l i) s = trap)) ∧
    (∀ q c b w, s.coreAccess t r (r.reg a) (if w = 0 then 4 else 8) true true = (.error e, s1) →
      let trap : Out := .next (s1.memoryTrap t r l r.word e)
      exec (.amoAdd q x a l b c w) s = trap ∧ exec (.amoMin q x a l b c w) s = trap ∧
      exec (.amoMax q x a l b c w) s = trap ∧ exec (.amoAnd q x a l b c w) s = trap ∧
      exec (.amoOr q x a l b c w) s = trap ∧ exec (.amoXor q x a l b c w) s = trap ∧
      exec (.amoXchg q x a l b c w) s = trap ∧ exec (.amoCas q x a l b c w) s = trap) ∧
    (∀ j c : Nat, j < 2 ^ 6 →
      let ea := r.reg a + BitVec.ofInt 64 (8 * if j < 32 then (j : Int) else j - 64)
      let trap : Out := .next (s1.memoryTrap t r l r.word e)
      (s.coreAccess t r ea 8 true false = (.error e, s1) → exec (.ldAcq x a l c j) s = trap) ∧
      (s.coreAccess t r ea 8 false true = (.error e, s1) → exec (.stRel x a l c j) s = trap))

/-- R134, R141, R235, R243, R244: the commit of a block whose one store goes past the tile cache changes exactly the store's
bytes, low byte first, at the address the store was held with. Where it goes through the tile cache, a later load of the tile
reads it, and memory changes only where dirty bytes of the cache are written back, or where the line finds no way. From die
scope on ST.REL and FEN.REL write every dirty byte back; that ST.REL's own bytes go through to the home die then is the
model's reading (log 119). A release in a cache of sectors that cannot be written back (R420) is left out of it. -/
def Obligations.StoreCommits : Prop :=
  (∀ (s : State) (t : Nat) (r : BlockRun) (l p a w : Nat) (v ea : Word) (rel : Option Nat) (target : Nat),
    s.Inv → s.Runs t r → r.masksMet → r.stores = [.store l p a w v rel ea] → r.effects = [] → rel = none ∨ rel = some 0 →
    s.storeCode t (.store l p a w v rel ea) = 0 → s.viaCache t a = false →
    ∃ s', s.commit t r (some target) = s' ∧ (s'.core t).run = none ∧
      (s'.core t).insts.find? r.inst = some { s.instOf t r with g := r.g, block := target } ∧
      ∀ k, s'.byteAt k = if a ≤ k ∧ k < a + w then BitVec.ofNat 8 (v.toNat / 2 ^ (8 * (k - a))) else s.byteAt k) ∧
  (∀ (s : State) (t : Nat) (r : BlockRun) (l p a w : Nat) (v ea : Word) (rel : Option Nat) (target : Nat),
    s.Inv → s.Runs t r → r.masksMet → r.stores = [.store l p a w v rel ea] → r.effects = [] → rel = none ∨ rel = some 0 →
    s.storeCode t (.store l p a w v rel ea) = 0 → s.viaCache t a = true → a + w ≤ 2 ^ 40 →
    let s' := s.commit t r (some target)
    (∀ k, s'.byteAt k = s.byteAt k ∨ (∃ c ∈ (s.tile t).cache, c.line = k / 64 ∧ c.dirty.getLsbD (k % 64) = true) ∨
      a ≤ k ∧ k < a + w ∧ (s'.tile t).lineOf k = none) ∧
    ((s.tile t).cacheOk → 0 < w → w ≤ 8 → a / 64 = (a + w - 1) / 64 →
      (s'.tileRead t (keysFrom a w)).1 = some ((List.range w).map (fun i => BitVec.ofNat 8 (v.toNat / 2 ^ (8 * i)))))) ∧
  (∀ (s : State) (t : Nat) (r : BlockRun) (l p a w scope : Nat) (v ea : Word) (target : Nat),
    s.Inv → s.Runs t r → r.masksMet → r.stores = [.store l p a w v (some scope) ea] → r.effects = [] → 1 ≤ scope →
    s.storeCode t (.store l p a w v (some scope) ea) = 0 → (s.tile t).cacheOk → s.stuckSectors t = [] →
    0 < w → w ≤ 8 → a / 64 = (a + w - 1) / 64 →
    let s' := s.commit t r (some target)
    (∀ x ∈ (s'.tile t).cache, x.dirty = 0) ∧
    ∀ k, s'.byteAt k = if a ≤ k ∧ k < a + w then BitVec.ofNat 8 (v.toNat / 2 ^ (8 * (k - a))) else s.tileByte t k) ∧
  (∀ (s : State) (t : Nat) (r : BlockRun) (l p scope : Nat) (target : Nat),
    s.Inv → s.Runs t r → r.masksMet → r.effects = [] →
    (r.stores = [.fenRel l p 0] ∨ r.stores = [.fenAcq l p 0] → ∀ k, (s.commit t r (some target)).byteAt k = s.byteAt k) ∧
    (1 ≤ scope → (s.tile t).cacheOk → s.stuckSectors t = [] →
      let s' := s.commit t r (some target)
      (r.stores = [.fenRel l p scope] → (∀ x ∈ (s'.tile t).cache, x.dirty = 0) ∧ ∀ k, s'.byteAt k = s.tileByte t k) ∧
      (r.stores = [.fenAcq l p scope] → (s'.tile t).cache = [] ∧ ∀ k, s'.byteAt k = s.tileByte t k)))

/-- R139, R141, R245: an AMO whose access passes its checks is held with its operation, address, width and operand, its LSID
and its register marked; a later word of the block still reads the register's value before the block. At commit the location
gets the new value of its operation on the bytes that the tile's own cache has there, or memory where it has none, but for a
failed CAS, which writes nothing; the old value, sign-extended, reaches rd; no other byte changes, but that the cache's dirty
bytes may be written back, all of them by a release from die scope on, after an acquire of which the cache is empty. A cache
with sectors that cannot be written back (R420) is left out of it. -/
def Obligations.AtomicsHeldThenPerformed : Prop :=
  (∀ (s s1 : State) (t : Nat) (r : BlockRun) (q d a l b c w : Nat) (ks : List Nat),
    s.Runs t r → r.mayProduce l → r.mayWrite d →
    s.coreAccess t r (r.reg a) (if w = 0 then 4 else 8) true true = (.ok ks, s1) →
    s1.amoPlace ks = true → s1.badRead ks = false → s1.cachedBad t (ks.headD 0) = false →
    let held (op : AmoOp) : Out :=
      .next (s1.ranTo t { r with
        stores := r.stores ++ [.amo l r.pos (ks.headD 0) (if w = 0 then 4 else 8) op q c d (r.reg b) (r.reg d) (r.reg a)],
        produced := r.produced ||| BitVec.ofNat 32 (2 ^ l), written := r.written ||| BitVec.ofNat 32 (2 ^ d),
        pos := r.pos + 1, pfx := none })
    exec (.amoAdd q d a l b c w) s = held .add ∧ exec (.amoMin q d a l b c w) s = held .min ∧
    exec (.amoMax q d a l b c w) s = held .max ∧ exec (.amoAnd q d a l b c w) s = held .and ∧
    exec (.amoOr q d a l b c w) s = held .or ∧ exec (.amoXor q d a l b c w) s = held .xor ∧
    exec (.amoXchg q d a l b c w) s = held .xchg ∧ exec (.amoCas q d a l b c w) s = held .cas) ∧
  (∀ (s : State) (t n l p a bytes ord scope rd : Nat) (op : AmoOp) (rb old ea : Word),
    s.Inv → bytes = 4 ∨ bytes = 8 → a % bytes = 0 → ord < 4 → (s.tile t).cacheOk → s.stuckSectors t = [] →
    let m := 2 ^ (8 * bytes)
    let x := leNat ((List.range bytes).map (fun i => s.tileByte t (a + i)))
    let y := rb.toNat % m
    let int (u : Nat) : Int := if u < m / 2 then u else (u : Int) - m
    let new := match op with
      | .add => (x + y) % m
      | .min => if int y < int x then y else x
      | .max => if int x < int y then y else x
      | .and => x &&& y
      | .or => x ||| y
      | .xor => x ^^^ y
      | .xchg => y
      | .cas => if x = old.toNat % m then y else x
    let s' := s.performStore t n (.amo l p a bytes op ord scope rd rb old ea)
    s'.readWord (keysFrom a bytes) = new ∧ (s'.tile t).lineOf a = none ∧
    (∀ k, k < a ∨ a + bytes ≤ k → (s'.byteAt k = s.byteAt k ∨ s'.byteAt k = s.tileByte t k) ∧
      (1 ≤ scope → ord ≠ 0 → s'.byteAt k = s.tileByte t k)) ∧
    (1 ≤ scope → 2 ≤ ord → ∀ c ∈ (s'.tile t).cache, c.dirty = 0) ∧
    (1 ≤ scope → ord % 2 = 1 → (s'.tile t).cache = []) ∧
    ∀ i, (s.core t).insts.find? n = some i →
      (s'.core t).insts.find? n = some { i with g := i.g.set rd (BitVec.ofInt 64 (int x)) })

/-! ### The tile core: effects held until commit -/

/-- R235, R246 to R249, R264, R266 to R269: the words whose effect waits for commit, each held with the values its
registers have now. SEND, SEND.BO, SPAWN and RFWD are held where their operands pass the checks of R246, R247 and R249;
a SEND whose target is no tile of the placement or binds no such tag, a SPAWN whose record does not lie where R247 asks, and an
RFWD of a row that is not in k2, has left its group or was forwarded by an earlier word trap with code 8, a ninth THOLD with
code 9, and an instance with no set with code 7. What a SPAWN's record says, and its payload, are checked at commit. That the
selector a word holds is its register modulo 2^11, with the bits above ignored, is the model's reading (log 31), as is that a THOLD
counts toward the limit of 8 when it executes (log 135). -/
def Obligations.EffectWords : Prop :=
  (∀ (s : State) (t : Nat) (r : BlockRun), s.Runs t r →
    let holds (i : Instr) (e : Effect) : Prop := exec i s = .next (s.ranTo t (r.held e))
    (∀ g, holds (.blkt g) (.blkt g) ∧ holds (.ublkt g) (.ublkt g)) ∧
    (∀ a g b, holds (.boset a g b) (.boset b g ((r.reg a).toNat % 2 ^ 16) false) ∧
      holds (.bosetClr a g b) (.boset b g ((r.reg a).toNat % 2 ^ 16) true)) ∧
    (∀ b, holds (.boarm b) (.boarm b)) ∧
    (∀ a n, holds (.eqw a n) (.eqw n (r.reg a)) ∧ holds (.eqwPort a n) (.eqwPort n (r.reg a))) ∧
    (∀ a c, holds (.csrw a c) (.csrw c (r.reg a))) ∧
    (∀ a b, holds (.lcugoWrite a b) (.lcugo b (r.reg a))) ∧
    (∀ a, holds (.csweeptWrite a) (.csweept (r.reg a))) ∧
    (∀ a g c, holds (.sysc a g c) (.sysc c g (r.reg a))) ∧
    (∀ a, holds (.eret a) (.eret ((r.reg a).toNat % 32) false) ∧
      holds (.eretAbort a) (.eret ((r.reg a).toNat % 32) true)) ∧
    (∀ g, s.noSet t r = false → holds (.join g) (.join g)) ∧
    (∀ a g, (s.core t).tholds.length + (r.effects.filter (fun e => match e.2 with
        | .thold .. => true
        | _ => false)).length < 8 → holds (.thold a g) (.thold g (r.reg a))) ∧
    (∀ a g, 8 ≤ (s.core t).tholds.length + (r.effects.filter (fun e => match e.2 with
        | .thold .. => true
        | _ => false)).length → exec (.thold a g) s = .next (s.blockTrap t r 9 0 0x3F r.word 0))) ∧
  (∀ (s : State) (t : Nat) (r : BlockRun), s.Runs t r →
    let holds (i : Instr) (e : Effect) : Prop := exec i s = .next (s.ranTo t (r.held e))
    let traps (i : Instr) (code : Nat) : Prop := exec i s = .next (s.blockTrap t r code 0 0x3F r.word 0)
    let i := s.instOf t r
    (∀ d a g tt, s.tileSel t i.pk ((r.reg d).toNat % 2 ^ 11) = some tt →
      (s.binds i.pk tt g = true → holds (.send d a g) (.send tt g (r.reg a))) ∧
      (s.binds i.pk tt g = false → traps (.send d a g) 8) ∧
      (∀ b, holds (.sendBo d a b) (.sendBo tt b ((r.reg a).toNat % 2 ^ 16)))) ∧
    (∀ d a g, s.tileSel t i.pk ((r.reg d).toNat % 2 ^ 11) = none → traps (.send d a g) 8 ∧ traps (.sendBo d a g) 8) ∧
    (s.noSet t r = false → ∀ p g n,
      (s.ownArray t i.pk (r.reg g) 128 = none → traps (.spawn p g n) 8) ∧
      (∀ ro, s.ownArray t i.pk (r.reg g) 128 = some ro → holds (.spawn p g n) (.spawn n ro (r.reg p)))) ∧
    (s.noSet t r = false → ∀ a row, (r.reg a).toNat = row →
      (64 ≤ row ∨ (s.uniform t r 2).getLsbD row = false ∨ s.setGroup i.set = none ∨
        (∃ id g, s.setGroup i.set = some (id, g) ∧ (g.rows.getLsbD row = false ∨ g.gone.getLsbD row = true)) ∨
        ∃ e ∈ r.effects, ∃ b, e.2 = .rfwd row b) → traps (.rfwd a) 8 ∧ traps (.rfwdRet a) 8) ∧
    (s.noSet t r = false → ∀ a row id g, (r.reg a).toNat = row → row < 64 → (s.uniform t r 2).getLsbD row = true →
      s.setGroup i.set = some (id, g) → g.rows.getLsbD row = true → g.gone.getLsbD row = false →
      (∀ e ∈ r.effects, ∀ b, e.2 ≠ .rfwd row b) →
      holds (.rfwd a) (.rfwd row false) ∧ holds (.rfwdRet a) (.rfwd row true)) ∧
    (s.noSet t r = true → ∀ a b c, traps (.join a) 7 ∧ traps (.spawn a b c) 7 ∧ traps (.rfwd a) 7 ∧ traps (.rfwdRet a) 7))

/-- R52, R56, R57, R232, R234, R239, R246, R264, R266, R268, R269: what each effect does to the machine as the block commits.
A barrier object adds what it is sent, saturates at 0xFFFF, and raises its arrival where it is armed and reaches its target;
the increments of one cycle count together. That the source tile of an arrival of a barrier or of a THOLD is its own tile
(log 40), that a barrier object whose earlier arrival waits outside a full arrival store keeps its count and stays armed (log 79),
and that an ERET reaches only instances of its own VI (log 120) are the model's readings. -/
def Obligations.EffectsAtCommit : Prop :=
  ∀ (s : State) (t n : Nat) (i : Inst),
    let slot := keySlot i.pk
    let does (e : Effect) (p : State → Prop) : Prop := p (s.applyEffect t n i e)
    let opr (u : State) : OpRegs := (u.tile t).oprAt slot
    (∀ k v, does (.kst k v) (fun u => OnlyTile t s u ∧ ∀ j,
      (((u.core t).k.getD i.set {}).getD j 0) = if j = k then v else ((s.core t).k.getD i.set {}).getD j 0)) ∧
    (∀ g, g < 64 → does (.blkt g) (fun u => OnlyTile t s u ∧ ∀ j, j < 64 →
        (u.core t).blocked.getLsbD j = ((s.core t).blocked.getLsbD j || decide (j = g))) ∧
      does (.ublkt g) (fun u => OnlyTile t s u ∧ ∀ j, j < 64 →
        (u.core t).blocked.getLsbD j = ((s.core t).blocked.getLsbD j && decide (j ≠ g)))) ∧
    (∀ tt g m, does (.send tt g m) (fun u => OnlyTile tt s u ∧ (u.core tt).arrivals = (s.core tt).arrivals ++
      [{ tag := g, kind := 2, msg := m, src := t, detail := n, set := i.set, cycle := s.clk.cycle }])) ∧
    (∀ b tag target clr, does (.boset b tag target clr) (fun u => OnlyTile t s u ∧
      let o := (opr u).bo.getD b {}
      o.target = target ∧ o.tag = tag ∧ o.armed = false ∧
      o.count = if clr = true then 0 else ((opr s).bo.getD b {}).count)) ∧
    (∀ b, let o := (opr s).bo.getD b {}
      does (.boarm b) (fun u => OnlyTile t s u ∧
        (o.count < o.target → (opr u).bo.getD b {} = { o with armed := true, set := i.set } ∧ u.core t = s.core t) ∧
        (o.target ≤ o.count → s.sendsHeld t (fun a => a.kind == 5 && a.tag == o.tag && a.detail == b) = true →
          (opr u).bo.getD b {} = { o with armed := true, set := i.set } ∧ u.core t = s.core t) ∧
        (o.target ≤ o.count → s.sendsHeld t (fun a => a.kind == 5 && a.tag == o.tag && a.detail == b) = false →
          ((opr u).bo.getD b {}).count = o.count - o.target ∧
          ((opr u).bo.getD b {}).armed = false ∧
          (u.core t).arrivals = (s.core t).arrivals ++
            [{ tag := o.tag, kind := 5, msg := wd b, src := t, detail := b, set := i.set, cycle := s.clk.cycle }]))) ∧
    (∀ tt b m, let o := ((s.tile tt).oprAt slot).bo.getD b {}
      let now : Bool := o.at_ == s.clk.cycle
      let sum := min 0xFFFF ((if now = true then o.raw else o.count) + m) - if now = true then o.took else 0
      let held := s.sendsHeld tt (fun a => a.kind == 5 && a.tag == o.tag && a.detail == b)
      does (.sendBo tt b m) (fun u => OnlyTile tt s u ∧
        let x := ((u.tile tt).oprAt slot).bo.getD b {}
        x.target = o.target ∧ x.tag = o.tag ∧ x.set = o.set ∧
        (o.armed = false ∨ sum < o.target ∨ held = true → x.count = sum ∧ x.armed = o.armed ∧ u.core tt = s.core tt) ∧
        (o.armed = true → o.target ≤ sum → held = false → x.count = sum - o.target ∧ x.armed = false ∧
          (u.core tt).arrivals = (s.core tt).arrivals ++
            [{ tag := o.tag, kind := 5, msg := wd b, src := tt, detail := b, set := o.set, cycle := s.clk.cycle }]))) ∧
    (∀ (o : Barrier) (c m n : Nat), ((o.plus c m).plus c n).count = (o.plus c (m + n)).count) ∧
    (∀ q v, does (.eqw q v) (fun u => OnlyTile t s u ∧ (opr u).eq.getD q 0 = v)) ∧
    (∀ q m, does (.eqwPort q m) (fun u => OnlyTile t s u ∧ ∀ c, c < 64 →
      (opr u).ports.find? c = if m.getLsbD c = true then some q else (opr s).ports.find? c)) ∧
    (∀ v, does (.csrw 0x10 v) (fun u => OnlyTile t s u ∧ (opr u).traptag = v &&& 0x7F)) ∧
    (∀ k v, k < 8 → does (.csrw (0x80 + k) v) (fun u => OnlyTile t s u ∧
        (opr u).agstat.getD k 0 = (opr s).agstat.getD k 0 &&& ~~~ v) ∧
      does (.csrw (0x90 + k) v) (fun u => OnlyTile t s u ∧ (opr u).hf.getD k 0 = Min.min 16 v.toNat) ∧
      (∀ w, w < 8 → does (.csrw (0x200 + 8 * k + w) v) (fun u => OnlyTile t s u ∧ ∀ j, j < 512 →
        ((opr u).m.getD k 0).getLsbD j =
          if j / 64 = w then v.getLsbD (j % 64) else ((opr s).m.getD k 0).getLsbD j))) ∧
    (∀ b v, does (.lcugo b v) (fun u => OnlyTile t s u ∧
      let o := (opr s).lcu.getD b {}
      if o.running = true ∨ v.toNat % 2 ^ 32 = 0 then u = s
      else (opr u).lcu.getD b {} =
        { o with running := true, count := v.toNat % 2 ^ 32, released := 0, done := {}, set := i.set })) ∧
    (∀ v, does (.csweept v) (fun u =>
      if keyAnchor i.pk = t then { u with regions := s.regions } = s ∧
        (u.region t).sweeps = (s.region t).sweeps ++
          [{ ctx := v.toNat % 4, carry := v.getLsbD 2, start := s.clk.cycle }]
      else u = s)) ∧
    (∀ g time, does (.thold g time) (fun u => OnlyTile t s u ∧
      (time.toNat ≤ s.clk.time.toNat → (u.core t).arrivals = (s.core t).arrivals ++
        [{ tag := g, kind := 8, msg := s.clk.time, src := t, detail := 0, set := i.set, cycle := s.clk.cycle }]) ∧
      (s.clk.time.toNat < time.toNat → (u.core t).tholds = (s.core t).tholds ++
        [{ time := time, tag := g, set := i.set, pk := i.pk }]))) ∧
    (∀ code g v, does (.sysc code g v) (fun u => u = { s with syscs := s.syscs ++
      [{ tile := t, pk := i.pk, set := i.set, tag := g, code := code, val := v }] })) ∧
    (∀ k x, (s.core t).insts.find? k = some x →
      (x.status = .trapped → s.placeVi x.pk = s.placeVi i.pk → does (.eret k false) (fun u => OnlyTile t s u ∧
        (u.core t).insts.find? k = some { x with status := .ready }) ∧
        does (.eret k true) (fun u => (u.core t).insts.find? k = none)) ∧
      (x.status = .ready ∨ s.placeVi x.pk ≠ s.placeVi i.pk →
        does (.eret k false) (fun u => u = s) ∧ does (.eret k true) (fun u => u = s)))

/-- R36, R44, R59, R247 to R249: what SPAWN, JOIN and RFWD do as the block commits, for the row group of the issuing set. A
SPAWN's record and payload are taken as the block's stores leave them, where they lie as R247 asks. A record that enters a
stage takes its current weight generation; a row that goes on within its stage keeps its own; a flagged one goes to its
exception route; RFWD.RET retires the row, which counts its parent's join down. That a row belongs to its operator's VI
whatever its array holds (log 120), that a SPAWN with a reserved payload format traps (log 106), and that the source tile of a
join's arrival is the tile of the join, also where the row of another tile retires (log 40), are the model's choices. -/
def Obligations.RecordEffectsAtCommit : Prop :=
  (∀ (s : State) (t pk ro : Nat) (gp : Word),
    let h := s.mem.getN (tileKey t (ro + 8)) 8
    let lines := leNat h / 2 ^ 52
    (s.spawnOk t pk ro gp = true ↔ (∃ ks, s.windowRange t ro 128 (ownTileAddr ro) = .ok ks) ∧
      fmtAssigned (leNat h / 2 ^ 48 % 16) = true ∧ (lines = 0 ∨ (s.ownArray t pk gp (64 * lines)).isSome = true))) ∧
  ∀ (s : State) (t n id : Nat) (i : Inst) (g : RowGroup) (p : Placement), s.setGroup i.set = some (id, g) →
    s.places.find? i.pk = some p →
    (∀ idx ro gp d,
      let r := spawnRecord p t (setIdx i.set) (recOfBytes (s.mem.getN (tileKey t ro) 128))
      let rc := s.enterStage { r := r, pay := s.mem.getN (tileKey t (gp.toNat % 2 ^ 21)) (64 * r.lines) }
      rc.r.vi = p.vi % 64 ∧ rc.r.job = p.job % 4096 ∧ rc.r.stage = r.stage ∧
      rc.r.wgen = (s.stage (jobKey r.vi r.job * 256 + r.stage)).gen % 16 ∧
      (s.routeTo rc.r.vi rc.r.job idx = some d →
        let u := s.applyEffect t n i (.spawn idx ro gp)
        u.net = s.net ++ [{ body := { rc with at_ := 0, grp := none, idx := 0 }, dest := d, src := t }] ∧
        (u.rgs.find? id).map (·.join) = some (g.join + 1) ∧ (∀ k, u.byteAt k = s.byteAt k))) ∧
    (∀ tag, let u := s.applyEffect t n i (.join tag)
      (0 < g.join → (u.rgs.find? id).map (·.joinTag) = some (some (t, tag)) ∧ u.tiles = s.tiles) ∧
      (g.join = 0 → (u.rgs.find? id).map (·.joinTag) = some none ∧
        (u.core t).arrivals = (s.core t).arrivals ++
          [{ tag := tag, kind := 7, msg := 0, src := t, detail := 0, set := setRef id g.set, cycle := s.clk.cycle }])) ∧
    (∀ row, row < 64 → g.rows.getLsbD row = true → g.gone.getLsbD row = false → ∀ d,
      let rc := s.rowRecord g row
      s.places.find? g.pk = some p → rwEjected rc.r.rw = false → rwNoAdmissible rc.r.rw = false →
      rwIncomplete rc.r.rw = false →
      let h := nextHop rc.r (s.parOf p).successor
      let on : Rec := { rc with r := carried (s.carryOf g) h.2 }
      let sent : Rec := if g.stages.find? row = some rc.r.stage then on else s.enterStage on
      s.routeTo sent.r.vi sent.r.job h.1 = some d →
      let u := s.applyEffect t n i (.rfwd row false)
      u.net = s.net ++ [{ body := { sent with at_ := 0, grp := none, idx := 0 }, dest := d, src := t }] ∧
      (∀ k, u.byteAt k = s.byteAt k) ∧
      ∀ g', u.rgs.find? id = some g' → g'.gone.getLsbD row = true) ∧
    (∀ row, row < 64 → ∀ d,
      let rc := s.rowRecord g row
      s.places.find? g.pk = some p → rwEjected rc.r.rw = true ∨ rwNoAdmissible rc.r.rw = true ∨ rwIncomplete rc.r.rw = true →
      s.routeTo rc.r.vi rc.r.job (if rc.r.excRoute = 0xFF then 0xFE else rc.r.excRoute) = some d →
      let u := s.applyEffect t n i (.rfwd row false)
      u.net = s.net ++ [{ body := { rc with r := carried (s.carryOf g) rc.r, out := true, at_ := 0, grp := none, idx := 0 },
                          dest := d, src := t }] ∧
      (∀ k, u.byteAt k = s.byteAt k) ∧
      ∀ g', u.rgs.find? id = some g' → g'.gone.getLsbD row = true) ∧
    (∀ row, row < 64 →
      let r := (s.rowRecord g row).r
      let u := s.applyEffect t n i (.rfwd row true)
      u.net = s.net ∧ (∀ k, u.byteAt k = s.byteAt k) ∧ (∀ g', u.rgs.find? id = some g' → g'.gone.getLsbD row = true) ∧
      (r.h1.toNat / 2 ^ 36 % 2 ^ 12 = 0xFFF → ∀ k, k ≠ id → u.rgs.find? k = s.rgs.find? k) ∧
      ∀ pid pg pp, (s.core (r.h1.toNat / 2 ^ 36 % 2 ^ 12)).sets.find? (r.h1.toNat / 2 ^ 32 % 2 ^ 4) = some pid →
        r.h1.toNat / 2 ^ 36 % 2 ^ 12 ≠ 0xFFF → pid ≠ id → s.rgs.find? pid = some pg → s.places.find? pg.pk = some pp →
        pp.vi = r.vi → (∀ g', u.rgs.find? pid = some g' → g'.join = pg.join - 1) ∧
          ∀ jt tag, pg.join = 1 → pg.joinTag = some (jt, tag) → (u.core jt).arrivals = (s.core jt).arrivals ++
            [{ tag := tag, kind := 7, msg := 0, src := jt, detail := 0, set := setRef pid pg.set, cycle := s.clk.cycle }])

/-! ### The tile core: streams, configuration, engines, system words, traps -/

/-- R128, R145, R251, R252, R259: STRM queues a stream whose specification passes R252, with the code-table copy active
as it is accepted, once the operations that nothing holds any more are applied; it traps with code 5 on one that does not,
and a full queue holds the core at the word. -/
def Obligations.StreamWords : Prop :=
  ∀ (s : State) (t : Nat) (r : BlockRun) (a g n : Nat), s.Runs t r →
    let i := s.instOf t r
    let spec (w0 w1 w2 w3 : Word) : Stream :=
      { id := 0, w0 := w0, w1 := w1, w2 := w2, w3 := w3, pk := i.pk, tag := g, set := i.set, tab := 0, entry := none }
    let o := (s.tile t).oprAt (keySlot i.pk)
    let runs (i : Instr) (x : Stream) : Prop :=
      (specOk x = true → ((s.tile t).ag n).queue.length < 16 → ∃ s', exec i s = .next s' ∧
        (s'.core t).run = some { r with pos := r.pos + 1, pfx := none } ∧
        { s'.core t with run := some r } = s.core t ∧
        (∃ e, ((s'.tile t).ag n).queue = ((s.tile t).ag n).queue ++ [.stream { x with
          id := s.sched.ids
          tab := (((s.tile t).ag n).applyHeld s.sched.ids ((s.tile t).ag n).held.length).act
          entry := e }]) ∧
        ((s'.tile t).ag n).run = ((s.tile t).ag n).run ∧
        (∀ k, k ≠ n → (s'.tile t).ag k = (s.tile t).ag k) ∧ (∀ k, s'.byteAt k = s.byteAt k)) ∧
      (specOk x = true → 16 ≤ ((s.tile t).ag n).queue.length → exec i s = .next s) ∧
      (specOk x = false → exec i s = .next (s.blockTrap t r 5 0 0x3F r.word 0))
    runs (.strm a g n) (spec (r.reg a) (r.reg (a + 1)) (r.reg (a + 2)) (r.reg (a + 3))) ∧
    (∀ p, runs (.strmTemplate a g p n) (spec (o.agt0.getD p 0) (r.reg a) (r.reg (a + 1)) (o.agt3.getD p 0)))

/-- R128, R129, R263, R423: a code-table write reaches the standby copy and CTSW swaps the copies, at once where no
older stream and no held operation stands ahead; otherwise they are held in order, up to 32, and then hold the core.
R260: SBAR puts one marker in the queue of each address generator it names. A marker that nothing stands ahead of anywhere
is resolved at once. That a full queue takes the marker too is the model's choice (log 104). -/
def Obligations.StreamTablesAndBarriers : Prop :=
  (∀ (s : State) (t : Nat) (r : BlockRun) (a n e : Nat), s.Runs t r →
    let x := (s.tile t).ag n
    let on (i : Instr) (o : CteOp) (now : Ag) : Prop :=
      let after (y : Ag) : Out := .next ((s.updAg t n (fun _ => y)).ranTo t { r with pos := r.pos + 1, pfx := none })
      (x.held = [] → x.olderStreams = false → exec i s = after now) ∧
      (x.held ≠ [] ∨ x.olderStreams = true →
        (x.held.length < 32 → exec i s = after { x with held := x.held ++ [o] }) ∧
        (32 ≤ x.held.length → exec i s = .next s))
    on (.ctsw n) .swap { x with act := 1 - x.act, swapId := s.sched.ids } ∧
    on (.cteWrite a n e) (.write e ((r.reg a).setWidth 16))
      (if x.act = 0 then { x with tab1 := x.tab1.set e ((r.reg a).setWidth 16) }
       else { x with tab0 := x.tab0.set e ((r.reg a).setWidth 16) })) ∧
  (∀ (s : State) (t : Nat) (r : BlockRun) (w g m : Nat), s.Runs t r →
    ∃ u : State, exec (.sbar w g m) s = .next ((u.resolveMarkers t).ranTo t { r with pos := r.pos + 1, pfx := none }) ∧
      u.core t = s.core t ∧ (∀ k, u.byteAt k = s.byteAt k) ∧
      ∀ n, n < 8 → ((u.tile t).ag n).queue = ((s.tile t).ag n).queue ++
        (if bitOf m n = true then
          [.marker s.sched.ids m (s.instOf t r).pk (if w = 1 then some g else none) (s.instOf t r).set]
         else []))

/-- R117, R261, R262: CFGL stops the tile's cells for a load that its own event ends; one issued while another is in
progress waits behind it (log 32). CFGBANK starts a bank's transition, with the bank's way of the tile cache written back,
or is refused with an arrival of kind 10. That a bank both in transition and outside the mask answers 1 is the model's choice
(log 122); that the refusal's arrival has its own tile for its source is its reading (log 40); and that a transition of a bank
takes just 4096 cycles, or 2048 where no write-back is due, is its reading of the bounds that R117 gives. -/
def Obligations.ConfigurationWords : Prop :=
  ∀ (s : State) (t : Nat) (r : BlockRun) (g b : Nat), s.Runs t r →
    let i := s.instOf t r
    let on : BlockRun := { r with pos := r.pos + 1, pfx := none }
    (∀ d c m,
      let load : CfglRun := { pk := i.pk, mask := m, active := c, data := d == 1, tag := g, set := i.set }
      exec (.cfgl g d c m) s = .next ((s.updTile t (fun x =>
        match x.cfgl with
        | none => { x with cfgl := some load }
        | some _ => { x with cfglWait := x.cfglWait ++ [load] })).ranTo t on) ∧
      ∀ u, exec (.cfgl g d c m) s = .next u → ∀ k, u.cellLive t k (u.cellsPaused t) = false) ∧
    (∀ m p, s.places.find? i.pk = some p → m < 3 →
      let bk := (s.tile t).bank b
      let mode : BankMode := if m = 0 then .cache else if m = 1 then .scratch else .fifo
      (bk.trans.isSome = true → exec (.cfgbank g m b) s = .next ((s.arrive t g 10 1 t 1 i.set).ranTo t on)) ∧
      (bk.trans = none → p.banks.getLsbD b = false →
        exec (.cfgbank g m b) s = .next ((s.arrive t g 10 2 t 1 i.set).ranTo t on)) ∧
      (bk.trans = none → p.banks.getLsbD b = true →
        let wait := if mode = bk.mode then 1 else if bk.mode = .cache then 4096 else 2048
        let s1 := if bk.mode = .cache ∧ mode ≠ .cache then s.cacheFlushWay t b else s
        exec (.cfgbank g m b) s = .next ((s1.updBank t b (fun x =>
          { x with trans := some { target := mode, ready := s.clk.cycle + wait, pk := i.pk, tag := g, set := i.set } })).ranTo
          t on)))

/-- R271 to R275, R135: the engine commands. One that is not refused enters its queue after the tile's dirty bytes are
written back: behind every command there but those that cells issued in this very cycle. A full queue holds the core; a
refused one traps the block with code 6. -/
def Obligations.EngineCommandWords : Prop :=
  ∀ (s : State) (t : Nat) (r : BlockRun) (a g n : Nat) (p : Placement), s.Runs t r →
    let i := s.instOf t r
    s.places.find? i.pk = some p →
    let slot := keySlot i.pk
    let c : QCmd :=
      { id := 0, w0 := r.reg a, w1 := r.reg (a + 1), w2 := r.reg (a + 2), w3 := r.reg (a + 3), w4 := r.reg (a + 4),
        by_ := .core i.set g, epoch := 0 }
    let refused (code : Nat) : Prop :=
      (r.reg a).toNat / 2 ^ 56 ≠ code ∨ ((r.reg a).toNat / 2 ^ 38 % 4 = 2 ∧ g = 0) ∨
      s.cmdRefusal c (((s.tile t).oprAt slot).eq.getD n 0) p.vi p.job ≠ 0
    let q := s.queueAt t slot n
    let runs (i : Instr) (code : Nat) : Prop :=
      (¬refused code → q.items.length < 16 → ∃ u, exec i s = .next u ∧
        (u.core t).run = some { r with pos := r.pos + 1, pfx := none } ∧
        (∃ id, QueuedInOrder s.clk.cycle 0 q.epoch q.items (u.queueAt t slot n).items
          { c with id := id, cycle := s.clk.cycle }) ∧
        (u.queueAt t slot n).epoch = (if code = 0x9A then q.epoch + 1 else q.epoch) ∧
        (∀ x ∈ (u.tile t).cache, x.dirty = 0 ∨ x.stuck = true)) ∧
      (¬refused code → 16 ≤ q.items.length → exec i s = .next s) ∧
      (refused code → exec i s = .next (s.blockTrap t r 6 0 0x3F r.word 0))
    runs (.copy a g n) 0x99 ∧ runs (.publ a g n) 0x9A ∧ runs (.mv a g n) 0xA0 ∧ runs (.scout a g n) 0xA1 ∧
    runs (.attn a g n) 0xA2 ∧ runs (.iredGatherSum a g n) 0xA3 ∧ runs (.iredGatherMax a g n) 0xA3 ∧
    runs (.iredAtomic a g n) 0xA3 ∧ runs (.collTri a g n) 0xA4 ∧ runs (.collSum a g n) 0xA5 ∧
    runs (.collMax a g n) 0xA6 ∧ runs (.collGath a g n) 0xA7 ∧ runs (.collSmp a g n) 0xA8 ∧
    runs (.sample a g n) 0xA9 ∧ runs (.wbuild a g n) 0xAA ∧ runs (.wswitch a g n) 0xAB ∧ runs (.promo a g n) 0xAC ∧
    runs (.promoDemote a g n) 0xAC

/-- R234, R266, R267, R270: device time, the system registers as CSRR reads them, and HALT. What JOINCNT reads without a set is
free (log 121). -/
def Obligations.SystemWords : Prop :=
  ∀ (s : State) (t : Nat) (r : BlockRun) (d : Nat), s.Runs t r → r.mayWrite d →
    let i := s.instOf t r
    let o := (s.tile t).oprAt (keySlot i.pk)
    let reads (c : Nat) (v : Word) : Prop := Writes (.csrr d c) s t r d v
    Writes (.tnow d) s t r d s.clk.time ∧
    (∀ p vt, s.places.find? i.pk = some p → p.vtOf t = some vt → t < 2 ^ 11 →
      reads 0 (wd (t + vt * 2 ^ 11 + t / 144 * 2 ^ 19))) ∧
    reads 1 (wd r.inst) ∧
    (∃ v, reads 2 v ∧ ∀ k, k < 64 → v.getLsbD k = (s.core t).sets.keys.contains k) ∧
    (∀ id g, s.setGroup i.set = some (id, g) → reads 3 (wd g.join)) ∧
    (s.setGroup i.set = none → reads 3 Config.joinless) ∧ reads 0x10 o.traptag ∧
    (∃ v, reads 0x40 v ∧ ∀ c, c < 64 → v.getLsbD c = (s.cellAt t c).halted) ∧
    (∃ v, reads 0x41 v ∧ ∀ c, c < 64 → v.getLsbD c = (s.cellAt t c).trapped) ∧
    (∀ k, k < 8 → reads (0x80 + k) (o.agstat.getD k 0) ∧ reads (0x90 + k) (wd (o.hf.getD k 0)) ∧
      ∀ w, w < 8 → ∃ v, reads (0x200 + 8 * k + w) v ∧
        ∀ j, j < 64 → v.getLsbD j = (o.m.getD k 0).getLsbD (64 * w + j)) ∧
    (∀ c, 0xA0 ≤ c → c ≤ 0xA8 → reads c 0) ∧ (∀ c, 0x100 ≤ c → c ≤ 0x17F → reads c 0) ∧
    exec .halt s = .next ((s.updCore t (fun c => { c with halted := true })).ranTo t
      { r with pos := r.pos + 1, pfx := none })

/-- R236, R269, R404: TRAP ends the block with cause 4 and its software code. A block trap discards the block, leaves the
instance at the block's start waiting, and writes one record that names the instance, LSID, address and word, of severity 1
with TRAPTAG enabled, and 2, which holds the fault domain, with it disabled. Enabled, it raises one arrival of kind 12 whose
message tells the cause, and holds nothing but what a sector does that its release cannot write back (R420). A word of the
register class that writes a masked register again and an SNUL that produces a masked LSID again trap with code 1, and a block
that runs past its last word with code 3. -/
def Obligations.BlockTraps : Prop :=
  (∀ (s : State) (t : Nat) (r : BlockRun), s.Runs t r →
    (∀ c, exec (.trap c) s = .next (s.blockTrap t r 4 c 0x3F r.word 0)) ∧
    ∀ code sw lsid word loc p, s.places.find? (s.instOf t r).pk = some p →
      let i := s.instOf t r
      let tag := ((s.tile t).oprAt (keySlot i.pk)).traptag
      let u := s.blockTrap t r code sw lsid word loc
      let noted := (s.updCore t (fun c =>
        { c with run := none, insts := c.insts.upd r.inst default (fun x => { x with status := .trapped }) })).report
          { vi := p.vi, severity := if tag.getLsbD 6 = true then 1 else 2, unit := 1, code := code, domain := p.domain, tile := t,
            vtile := (p.vtOf t).getD 0xFF, inst := r.inst, lsid := lsid, loc := loc, detail := sw * 2 ^ 24 + word % 2 ^ 24,
            place0 := placeWord0 p, place1 := placeWord1 p }
      u = (if tag.getLsbD 6 = true then
          noted.arrive t (tag.toNat % 64) 12 (trapCause code sw lsid word) t r.inst i.set
        else noted) ∧
      (u.core t).run = none ∧ (u.core t).insts.find? r.inst = some { i with status := .trapped } ∧
      (∀ n, n ≠ r.inst → (u.core t).insts.find? n = (s.core t).insts.find? n) ∧ u.places = s.places ∧ u.net = s.net ∧
      (tag.getLsbD 6 = true →
        (u.core t).arrivals = (s.core t).arrivals ++
          [{ tag := tag.toNat % 64, kind := 12, msg := trapCause code sw lsid word, src := t, detail := r.inst,
             set := i.set, cycle := s.clk.cycle }] ∧
        (s.stuckSectors t = [] → (u.vi p.vi).held = (s.vi p.vi).held)) ∧
      (tag.getLsbD 6 = false → (u.core t).arrivals = (s.core t).arrivals ∧ p.domain ∈ (u.vi p.vi).held)) ∧
  (∀ (s : State) (t : Nat) (r : BlockRun) (i : Instr) (d : Nat), s.Runs t r → i.regDest = some d →
    r.writeMask.getLsbD d = true → r.written.getLsbD d = true →
    exec i s = .next (s.blockTrap t r 1 0 0x3F r.word 0)) ∧
  (∀ (s : State) (t : Nat) (r : BlockRun) (l : Nat), s.Runs t r → r.storeMask.getLsbD l = true →
    r.produced.getLsbD l = true → exec (.snul l) s = .next (s.blockTrap t r 1 0 l r.word 0)) ∧
  (∀ (s : State) (t : Nat) (r : BlockRun) (rest : List Move), s.sched.agenda = .core t :: rest →
    (s.core t).run = some r → r.len ≤ r.pos →
    step s = .next (s.took.blockTrap t r 3 0 0x3F (r.base + 2 + r.len) 0))

/-! ### Cells: arithmetic -/

/-- R181, R185: the integer instructions of cells, lane by lane. -/
def Obligations.CellInteger : Prop :=
  ∀ (s : State) (f : CellF),
    let a (i : Nat) : Nat := s.laneNat f.srcA i
    let b (i : Nat) : Nat := s.laneNat f.srcB i
    let x (i : Nat) : Int := s.laneInt f.srcA i
    let y (i : Nat) : Int := s.laneInt f.srcB i
    let gives (i : Instr) (op : Nat) (v : Nat → Int) : Prop := FiresLanes i op f s (fun k => laneOfInt (v k)) (fun _ => 0)
    gives (.cellAdd f) 0x01 (fun k => a k + b k) ∧
    gives (.cellSub f) 0x02 (fun k => (a k : Int) - b k) ∧
    gives (.cellMul f) 0x03 (fun k => a k * b k) ∧
    gives (.cellMulh f) 0x04 (fun k => (x k * y k).fdiv (2 ^ 32)) ∧
    gives (.cellAnd f) 0x05 (fun k => (a k &&& b k : Nat)) ∧
    gives (.cellOr f) 0x06 (fun k => (a k ||| b k : Nat)) ∧
    gives (.cellXor f) 0x07 (fun k => (a k ^^^ b k : Nat)) ∧
    gives (.cellAndn f) 0x08 (fun k => (a k &&& (2 ^ 32 - 1 - b k) : Nat)) ∧
    gives (.cellShl f) 0x09 (fun k => if b k < 32 then a k * 2 ^ b k else 0) ∧
    gives (.cellShr f) 0x0A (fun k => if b k < 32 then (a k / 2 ^ b k : Nat) else 0) ∧
    gives (.cellSar f) 0x0B (fun k => (x k).fdiv (2 ^ Min.min (b k) 31)) ∧
    gives (.cellRot f) 0x0C (fun k => a k * 2 ^ (b k % 32) + (a k / 2 ^ (32 - b k % 32) : Nat)) ∧
    gives (.cellMin f) 0x0D (fun k => Min.min (x k) (y k)) ∧
    gives (.cellMax f) 0x0E (fun k => Max.max (x k) (y k)) ∧
    gives (.minu f) 0x0F (fun k => (Min.min (a k) (b k) : Nat)) ∧
    gives (.maxu f) 0x10 (fun k => (Max.max (a k) (b k) : Nat)) ∧
    gives (.cellClz f) 0x11 (fun k => 32 - (Nat.size (a k) : Int)) ∧
    gives (.cellPopc f) 0x12 (fun k => ((Finset.range 32).filter (fun j => (a k).testBit j = true)).card) ∧
    gives (.pack f) 0x14 (fun k => (b k % 2 ^ 16 * 2 ^ 16 + a k % 2 ^ 16 : Nat))

/-- R186, R188: SEL moves 40 bits of one source by a predicate as it stood before the firing; BPERM permutes the bytes
or reads an element of src_a by the mode and index of its selector, and raises invalid on a reserved mode. R182, R187, R197:
the compares: a predicate bit in each executing lane, or a control token of their reduction. -/
def Obligations.CellSelectAndCompare : Prop :=
  ∀ (s : State) (f : CellF),
    (∀ n, n < 4 → FiresLanes (.sel n f) (0x18 + n) f s
      (fun k => if ((s.firing (0x18 + n) f).x.q.getD n 0).getLsbD k = true then s.laneFw f.srcA k else s.laneFw f.srcB k)
      (fun _ => 0)) ∧
    (let bytes (j : Nat) : Nat := s.laneNat f.srcA (j / 4) / 2 ^ (8 * (j % 4)) % 256
     let nibble (j : Nat) : Nat := bytes (j / 2) / 2 ^ (4 * (j % 2)) % 16
     let w (k : Nat) : Nat := (s.laneFw f.srcB k).toNat
     let mode (k : Nat) : Nat := w k / 2 ^ 32
     FiresLanes (.bperm f) 0x13 f s
      (fun k =>
        if mode k = 0 then
          let part (j : Nat) : Nat :=
            if w k / 2 ^ (8 * j + 7) % 2 = 1 then 0 else bytes (w k / 2 ^ (8 * j) % 32)
          laneOfInt (part 0 + part 1 * 2 ^ 8 + part 2 * 2 ^ 16 + part 3 * 2 ^ 24 : Nat)
        else if mode k = 1 then
          let n := nibble (w k % 64)
          laneOfInt (if n < 8 then n else (n : Int) - 16)
        else if mode k = 2 then laneOfInt (nibble (w k % 64))
        else if mode k = 3 then
          let n := bytes (w k % 32)
          laneOfInt (if n < 128 then n else (n : Int) - 256)
        else if mode k = 4 then laneOfInt (bytes (w k % 32))
        else 0)
      (fun k => if mode k ≤ 4 then 0 else 0x10)) ∧
    let a (i : Nat) : Nat := s.laneNat f.srcA i
    let b (i : Nat) : Nat := s.laneNat f.srcB i
    let x (i : Nat) : Int := s.laneInt f.srcA i
    let y (i : Nat) : Int := s.laneInt f.srcB i
    let bits (i : Instr) (op : Nat) (p : Nat → Bool) : Prop := FiresBits i op f s p (fun _ => 0)
    let nan (i : Nat) : Bool := isNaN (s.laneFw f.srcA i) || isNaN (s.laneFw f.srcB i)
    let snan (i : Nat) : Bool := isSNaN (s.laneFw f.srcA i) || isSNaN (s.laneFw f.srcB i)
    let lt (i : Nat) : Bool := (Ex.ofFw (s.laneFw f.srcA i)).lt (Ex.ofFw (s.laneFw f.srcB i))
    let gt (i : Nat) : Bool := (Ex.ofFw (s.laneFw f.srcB i)).lt (Ex.ofFw (s.laneFw f.srcA i))
    bits (.ceq f) 0x20 (fun i => decide (a i = b i)) ∧ bits (.cne f) 0x21 (fun i => decide (a i ≠ b i)) ∧
    bits (.clt f) 0x22 (fun i => decide (x i < y i)) ∧ bits (.cle f) 0x23 (fun i => decide (x i ≤ y i)) ∧
    bits (.cltu f) 0x24 (fun i => decide (a i < b i)) ∧ bits (.cleu f) 0x25 (fun i => decide (a i ≤ b i)) ∧
    FiresBits (.fceq f) 0x40 f s (fun i => !nan i && !lt i && !gt i) (fun i => if snan i then 0x10 else 0) ∧
    FiresBits (.fclt f) 0x41 f s (fun i => !nan i && lt i) (fun i => if nan i then 0x10 else 0) ∧
    FiresBits (.fcle f) 0x42 f s (fun i => !nan i && !gt i) (fun i => if nan i then 0x10 else 0) ∧
    FiresBits (.fcun f) 0x43 f s nan (fun i => if snan i then 0x10 else 0)

/-- R183, R184, R189 to R198: the FW40 instructions give, lane by lane, the value and flags of their operation in the
context's rounding mode (the values stand in FloatValues); FMUL, FMA and FMS take the latched scale of a bound multiplicand
as an exact factor. R85, R183,
R189, R190, R192: a NaN operand of the FW40 arithmetic gives the default NaN, with invalid where one is signalling; FMIN
and FMAX prefer the operand that is a number; FABS and FNEG set the sign and raise nothing. -/
def Obligations.CellFloatWords : Prop :=
  (∀ (s : State) (f : CellF),
    let a (i : Nat) : Fw := s.laneFw f.srcA i
    let b (i : Nat) : Fw := s.laneFw f.srcB i
    let c (i : Nat) : Fw := s.laneFw f.dstB i
    let m : Rnd := (s.firing 0x30 f).x.ctx.rnd
    let sa (i : Nat) : Fw := (s.firing 0x30 f).scaleOf f.srcA i
    let sb (i : Nat) : Fw := (s.firing 0x30 f).scaleOf f.srcB i
    let gives (i : Instr) (op : Nat) (r : Nat → Fw × BitVec 5) : Prop :=
      FiresLanes i op f s (fun k => (r k).1) (fun k => (r k).2)
    gives (.fadd f) 0x30 (fun k => fadd m (a k) (b k)) ∧ gives (.fsub f) 0x31 (fun k => fsub m (a k) (b k)) ∧
    gives (.fmul f) 0x32 (fun k => fmul m (a k) (sa k) (b k) (sb k)) ∧
    gives (.fma f) 0x33 (fun k => fma m false (a k) (sa k) (b k) (sb k) (c k)) ∧
    gives (.fms f) 0x34 (fun k => fma m true (a k) (sa k) (b k) (sb k) (c k)) ∧
    gives (.fmin f) 0x35 (fun k => fminmax false (a k) (b k)) ∧ gives (.fmax f) 0x36 (fun k => fminmax true (a k) (b k)) ∧
    gives (.famn f) 0x37 (fun k => famn m (a k) (b k) (c k)) ∧ gives (.fabs f) 0x38 (fun k => (fabs (a k), 0)) ∧
    gives (.fneg f) 0x39 (fun k => (fneg (a k), 0)) ∧ gives (.frcp f) 0x3A (fun k => frcp m (a k)) ∧
    gives (.frsq f) 0x3B (fun k => frsq m (a k)) ∧ gives (.fexp2 f) 0x3C (fun k => fexp2 (a k)) ∧
    gives (.flog2 f) 0x3D (fun k => flog2 m (a k)) ∧ gives (.frnd f) 0x3E (fun k => frnd m (a k)) ∧
    gives (.fcvti f) 0x48 (fun k => fcvti m (a k)) ∧ gives (.icvtf f) 0x49 (fun k => icvtf m (a k)) ∧
    gives (.ucvtf f) 0x4A (fun k => ucvtf m (a k))) ∧
  (∀ (m : Rnd) (a b c : Fw),
    (isNaN a = true ∨ isNaN b = true →
      let fl : BitVec 5 := if isSNaN a = true ∨ isSNaN b = true then 0x10 else 0
      fadd m a b = (0x7FFC000000#40, fl) ∧ fsub m a b = (0x7FFC000000#40, fl) ∧
      fmul m a fwOne b fwOne = (0x7FFC000000#40, fl)) ∧
    (isNaN a = true ∨ isNaN b = true ∨ isNaN c = true →
      let fl : BitVec 5 := if isSNaN a = true ∨ isSNaN b = true ∨ isSNaN c = true then 0x10 else 0
      fma m false a fwOne b fwOne c = (0x7FFC000000#40, fl) ∧ fma m true a fwOne b fwOne c = (0x7FFC000000#40, fl)) ∧
    (isNaN a = true → isNaN b = false → (fminmax false a b).1 = canonFw b ∧ (fminmax true b a).1 = canonFw b) ∧
    (isNaN a = true → frcp m a = (0x7FFC000000#40, if isSNaN a = true then 0x10 else 0) ∧
      fabs a = 0x7FFC000000#40 ∧ fneg a = 0x7FFC000000#40) ∧
    (isNaN a = false → (fabs a).getLsbD 39 = false ∧ (fneg a).getLsbD 39 = !a.getLsbD 39 ∧
      ∀ k, k < 39 → (fabs a).getLsbD k = (canonFw a).getLsbD k ∧ (fneg a).getLsbD k = (canonFw a).getLsbD k))

/-- R81, R82, R183, R184, R189 to R196, R198: what the operations of CellFloatWords give. Of finite operands: the exact sum,
product, product and sum, bound, reciprocal or reciprocal root, rounded once, with the zero signs of R82 and R189; FMIN and FMAX
choose, with -0 below +0; FEXP2 is CEXP2 of the Q8.24 rounding by the table of R97, the same for all operands; FRND and FCVTI
round to an integer, ICVTF and UCVTF from one. FLOG2 is exact on a power of two and elsewhere lies between the powers around its
operand. Then zeros, infinities and NaNs by their tables. -/
def Obligations.FloatValues : Prop :=
  let neg (x : Fw) : Bool := x.getLsbD 39
  let val (x : Fw) : ℝ := ((fwValue x : ℚ) : ℝ)
  let zero (n : Bool) : Fw := if n = true then 0x8000000000 else 0
  let inf (n : Bool) : Fw := if n = true then 0xFFF8000000 else 0x7FF8000000
  let bad : Fw × BitVec 5 := (0x7FFC000000, 0x10)
  let quiet (x : Fw) : Fw × BitVec 5 := (0x7FFC000000, if isSNaN x = true then 0x10 else 0)
  let inexact (p : Prop) (fl : BitVec 5) : Prop := (p → fl = 1) ∧ (¬p → fl = 0)
  let badIf (p : Prop) (other r : Fw × BitVec 5) : Prop := (p → r = bad) ∧ (¬p → r = other)
  (∀ x, (fwFinite x → fwFinite (canonFw x) ∧ fwValue (canonFw x) = fwValue x ∧ neg (canonFw x) = neg x ∧
      (fwValue x = 0 → canonFw x = zero (neg x)) ∧ (fwValue x ≠ 0 → (canonFw x).getLsbD 27 = true)) ∧
    (fwInfinite x → canonFw x = inf (neg x)) ∧ (isNaN x = true → canonFw x = 0x7FFC000000) ∧
    (isNaN x = true ↔ ¬fwFinite x ∧ ¬fwInfinite x)) ∧
  (∀ (m : Rnd) (a b : Fw), fwFinite a → fwFinite b →
    SumsTo m (val a + val b) (val a = 0 ∧ val b = 0) (neg a && neg b) (fadd m a b) ∧
    SumsTo m (val a - val b) (val a = 0 ∧ val b = 0) (neg a && !neg b) (fsub m a b) ∧
    (∀ big, (fminmax big a b).2 = 0 ∧ ((fminmax big a b).1 = canonFw a ∨ (fminmax big a b).1 = canonFw b) ∧
      fwValue (fminmax big a b).1 = (if big = true then Max.max (fwValue a) (fwValue b) else Min.min (fwValue a) (fwValue b)) ∧
      (val a = 0 → val b = 0 → neg (fminmax big a b).1 = if big = true then neg a && neg b else neg a || neg b))) ∧
  (∀ (m : Rnd) (a sa b sb c : Fw),
    let l := [a, sa, b, sb]
    let p : ℝ := val a * val sa * (val b * val sb)
    let n : Bool := xor (xor (neg a) (neg sa)) (xor (neg b) (neg sb))
    ((∀ x ∈ l, fwFinite x) →
      (p ≠ 0 → RoundsFw m p (fmul m a sa b sb)) ∧ (p = 0 → fmul m a sa b sb = (zero n, 0)) ∧
      (fwFinite c → SumsTo m (p + val c) (p = 0 ∧ val c = 0) (n && neg c) (fma m false a sa b sb c) ∧
        SumsTo m (p - val c) (p = 0 ∧ val c = 0) (n && !neg c) (fma m true a sa b sb c)) ∧
      (fwInfinite c → fma m false a sa b sb c = (inf (neg c), 0) ∧ fma m true a sa b sb c = (inf (!neg c), 0))) ∧
    ((∀ x ∈ l, isNaN x = false) → isNaN c = false → (∃ x ∈ l, fwInfinite x) →
      ((∃ x ∈ l, fwFinite x ∧ fwValue x = 0) →
        fmul m a sa b sb = bad ∧ fma m false a sa b sb c = bad ∧ fma m true a sa b sb c = bad) ∧
      ((∀ x ∈ l, fwFinite x → fwValue x ≠ 0) →
        fmul m a sa b sb = (inf n, 0) ∧
        badIf (fwInfinite c ∧ neg c ≠ n) (inf n, 0) (fma m false a sa b sb c) ∧
        badIf (fwInfinite c ∧ neg c = n) (inf n, 0) (fma m true a sa b sb c)))) ∧
  (∀ (m : Rnd) (a b : Fw), fwInfinite a → isNaN b = false →
    (∀ r, r = fadd m a b ∨ r = fadd m b a → badIf (fwInfinite b ∧ neg b ≠ neg a) (inf (neg a), 0) r) ∧
    badIf (fwInfinite b ∧ neg b = neg a) (inf (neg a), 0) (fsub m a b) ∧
    (fwFinite b → fsub m b a = (inf (!neg a), 0)) ∧
    ∀ big r, r = fminmax big a b ∨ r = fminmax big b a → r = (if neg a = big then canonFw b else inf (neg a), 0)) ∧
  (∀ (m : Rnd) (a b c : Fw), fwFinite a → fwFinite b →
    let s : ℝ := val a + val b
    let both : Prop := val a = 0 ∧ val b = 0
    let minus : Prop := (both → (neg a && neg b) = true) ∧ (¬both → m = .rdn)
    let sum (r : Fw × BitVec 5) : Prop := SumsTo m s both (neg a && neg b) r
    (fwFinite c → (s < val c → sum (famn m a b c)) ∧ (val c < s ∨ (s = val c ∧ s ≠ 0) → famn m a b c = (canonFw c, 0)) ∧
      (s = 0 → val c = 0 → (minus → famn m a b c = (zero true, 0)) ∧ (¬minus → famn m a b c = (canonFw c, 0)))) ∧
    (fwInfinite c → (neg c = false → sum (famn m a b c)) ∧ (neg c = true → famn m a b c = (inf true, 0))) ∧
    (isNaN c = true → ∃ r, sum r ∧ famn m a b c = (r.1, r.2 ||| (quiet c).2))) ∧
  (∀ (m : Rnd) (a b c : Fw), (isNaN a = true ∨ isNaN b = true →
      famn m a b c = (canonFw c, (quiet a).2 ||| (quiet b).2 ||| (quiet c).2)) ∧
    (fwInfinite a → fwInfinite b → neg a ≠ neg b → famn m a b c = (canonFw c, 0x10)) ∧
    ∀ r, r = famn m a b c ∨ r = famn m b a c → fwInfinite a → (fwFinite b ∨ (fwInfinite b ∧ neg b = neg a)) →
      (isNaN c = true → r = (inf (neg a), (quiet c).2)) ∧
      (isNaN c = false → r = (if neg a = true then inf true else canonFw c, 0))) ∧
  (∀ (m : Rnd) (a : Fw), fwFinite a →
    (val a = 0 → frcp m a = (inf (neg a), 8) ∧ frsq m a = (inf (neg a), 8) ∧ flog2 m a = (inf true, 8) ∧
      frnd m a = (zero (neg a), 0) ∧ fcvti m a = (0, 0)) ∧
    (val a < 0 → frsq m a = bad ∧ flog2 m a = bad) ∧
    (val a ≠ 0 → RoundsFw m (1 / val a) (frcp m a)) ∧
    (0 < val a → RoundsFw m (1 / Real.sqrt (val a)) (frsq m a)) ∧
    (∀ k : Int, val a = (2 : ℝ) ^ k → (k = 0 → flog2 m a = (0, 0)) ∧ (k ≠ 0 → RoundsFw m k (flog2 m a))) ∧
    (∀ k : Int, (2 : ℝ) ^ k < val a → val a < (2 : ℝ) ^ (k + 1) →
      fwFinite (flog2 m a).1 ∧ (k : ℚ) ≤ fwValue (flog2 m a).1 ∧ fwValue (flog2 m a).1 ≤ k + 1) ∧
    ∃ k : Int, RoundsInt m (val a) k ∧
      (k = 0 → (frnd m a).1 = zero (neg a)) ∧
      (k ≠ 0 → fwFinite (frnd m a).1 ∧ (frnd m a).1.getLsbD 27 = true ∧ fwValue (frnd m a).1 = k) ∧
      inexact ((k : ℝ) ≠ val a) (frnd m a).2 ∧
      (k < -2 ^ 31 → fcvti m a = (0x80000000, 0x10)) ∧ (2 ^ 31 - 1 < k → fcvti m a = (0x7FFFFFFF, 0x10)) ∧
      (-2 ^ 31 ≤ k → k ≤ 2 ^ 31 - 1 → (fcvti m a).1 = laneOfInt k ∧ inexact ((k : ℝ) ≠ val a) (fcvti m a).2)) ∧
  (∃ T : Nat → Nat, (∀ i ≤ 256, |(T i : ℝ) - 2 ^ 30 * (2 : ℝ) ^ ((i : ℝ) / 256)| ≤ 1 / 2) ∧
    ∀ a : Fw, fwFinite a → ∃ k : Int, RoundsInt .rne (val a * 2 ^ 24) k ∧
      (k ≤ -2 ^ 31 → fexp2 a = (0, 0)) ∧
      (-2 ^ 31 < k →
        let d : Int := Min.min k (2 ^ 31 - 1)
        let i : Nat := (d % 2 ^ 24 / 2 ^ 16).toNat
        RoundsFw .rne (((T i * 2 ^ 16 : ℝ) + ((T (i + 1) : ℝ) - T i) * (d % 2 ^ 16 : Int)) * (2 : ℝ) ^ (d.fdiv (2 ^ 24) - 46))
          (fexp2 a))) ∧
  (∀ (m : Rnd) (a : Fw), fwInfinite a →
    frcp m a = (zero (neg a), 0) ∧ frsq m a = (if neg a = true then bad else (0, 0)) ∧
    flog2 m a = (if neg a = true then bad else (inf false, 0)) ∧ frnd m a = (inf (neg a), 0) ∧
    fcvti m a = (if neg a = true then 0x80000000 else 0x7FFFFFFF, 0x10) ∧
    fexp2 a = if neg a = true then (0, 0) else fexp2 0x4068000000) ∧
  (∀ (m : Rnd) (a : Fw), isNaN a = true →
    frcp m a = quiet a ∧ frsq m a = quiet a ∧ flog2 m a = quiet a ∧ frnd m a = quiet a ∧ fcvti m a = (0, 0x10) ∧
    fexp2 a = (0, 0x10)) ∧
  (∀ (m : Rnd) (a : Fw),
    let u : Nat := a.toNat % 2 ^ 32
    let i : Int := if u < 2 ^ 31 then u else (u : Int) - 2 ^ 32
    (u = 0 → icvtf m a = (0, 0) ∧ ucvtf m a = (0, 0)) ∧ (u ≠ 0 → RoundsFw m i (icvtf m a) ∧ RoundsFw m u (ucvtf m a)))

/-- R94, R199 to R202: the lane operations. LSHL and LSHR read every lane; LBC and the LRED forms give one value to all eight
lanes and nothing where no lane executes, the float forms by the tree of R94 whose joins round as FADD does or choose as FMIN
and FMAX do (FloatValues); the SCAN forms give each executing lane the prefix of the executing lanes up to it, step by step. -/
def Obligations.CellLaneOperations : Prop :=
  ∀ (s : State) (f : CellF),
    let a (i : Nat) : Fw := s.laneFw f.srcA i
    let b (i : Nat) : Fw := s.laneFw f.srcB i
    let m : Rnd := (s.firing 0x60 f).x.ctx.rnd
    let alone (x : Fw) : Fw × BitVec 5 := (canonFw x, if isSNaN x = true then 0x10 else 0)
    FiresLanes (.lshl f) 0x60 f s (fun k => if k = 7 then b 0 else a (k + 1)) (fun _ => 0) ∧
    FiresLanes (.lshr f) 0x61 f s (fun k => if k = 0 then b 7 else a (k - 1)) (fun _ => 0) ∧
    (let wide (i : Instr) (op : Nat) (r : Fw × BitVec 5) : Prop :=
      let fr := s.firing op f
      s.slotReady fr = true →
        (fr.exec = 0 → exec i s = .next (s.fired fr (fun _ => 0) (mkToken (fun _ => 0) 0 fr.tag false))) ∧
        (fr.exec ≠ 0 → r.2 &&& fr.x.ctx.trapEn = 0 →
          exec i s = .next (s.fired fr (fun _ => r.2) (mkToken (fun _ => r.1) 0xFF fr.tag false))) ∧
        (fr.exec ≠ 0 → r.2 &&& fr.x.ctx.trapEn ≠ 0 →
          exec i s = .next (s.cellTrap fr 1 0 (fr.anyFlag (fun _ => r.2)) 0))
     wide (.lbc f) 0x62 (a ((s.firing 0x62 f).lanes.headD 0), 0) ∧
     wide (.lredAdd f) 0x64 (laneOfInt (((s.firing 0x64 f).lanes.map (s.laneNat f.srcA)).sum : Nat), 0) ∧
     wide (.lredMin f) 0x65
      (laneOfInt (((s.firing 0x65 f).lanes.map (s.laneInt f.srcA)).foldl Min.min (2 ^ 31 - 1)), 0) ∧
     wide (.lredMax f) 0x66 (laneOfInt (((s.firing 0x66 f).lanes.map (s.laneInt f.srcA)).foldl Max.max (-2 ^ 31)), 0) ∧
     let tree (op : Nat) (comb : Fw → Fw → Fw × BitVec 5) : Fw × BitVec 5 :=
       match (s.firing op f).lanes with
       | [i] => alone (a i)
       | _ => (laneTree comb (fun i => if (s.firing op f).exec.getLsbD i = true then some (a i) else none)).getD (0, 0)
     wide (.lredFadd f) 0x67 (tree 0x67 (fadd m)) ∧ wide (.lredFmin f) 0x68 (tree 0x68 (fminmax false)) ∧
     wide (.lredFmax f) 0x69 (tree 0x69 (fminmax true))) ∧
    FiresLanes (.scanAdd f) 0x6C f s
      (fun k => laneOfInt (((s.firing 0x6C f).lanes.filter (· ≤ k)).map (s.laneNat f.srcA)).sum) (fun _ => 0) ∧
    FiresLanes (.scanMax f) 0x6D f s
      (fun k => laneOfInt ((((s.firing 0x6D f).lanes.filter (· ≤ k)).map (s.laneInt f.srcA)).foldl Max.max (-2 ^ 31)))
      (fun _ => 0) ∧
    (let pre (op : Nat) (comb : Fw → Fw → Fw × BitVec 5) (k : Nat) : Fw × BitVec 5 :=
      match (s.firing op f).lanes.filter (· ≤ k) with
      | [] => (0, 0)
      | i :: rest => rest.foldl (fun acc j => comb acc.1 (a j)) (alone (a i))
     FiresLanes (.scanFadd f) 0x6E f s (fun k => (pre 0x6E (fadd m) k).1) (fun k => (pre 0x6E (fadd m) k).2) ∧
     FiresLanes (.scanFmax f) 0x6F f s (fun k => (pre 0x6F (fminmax true) k).1) (fun k => (pre 0x6F (fminmax true) k).2))

/-! ### Cells: tokens, memory, owners, matrix, system -/

/-- R20, R151, R152, R180: where a token of a firing goes: the valid lanes of a register, the end of a local queue, or the
channel an output feeds while it has room, its ring holds nothing and no paused cell holds it (R282); nothing else of the
machine changes. -/
def Obligations.TokenDelivery : Prop :=
  ∀ (s : State) (t c : Nat) (k : Token),
    (∀ d, d < 8 → OnlyCell t c s (s.deliver t c d k) ∧
      { (s.deliver t c d k).cellAt t c with v := (s.cellAt t c).v } = s.cellAt t c ∧
      ∀ e i, i < 8 → lane (((s.deliver t c d k).cellAt t c).v.getD e zeroLanes) i =
        if e = d ∧ k.valid.getLsbD i = true then lane k.lanes i else lane ((s.cellAt t c).v.getD e zeroLanes) i) ∧
    (∀ q, q < 2 → let u := s.deliver t c (12 + q) k
      OnlyCell t c s u ∧ { u.cellAt t c with lq := (s.cellAt t c).lq } = s.cellAt t c ∧
      ∀ p, (u.cellAt t c).lq.getD p [] = (s.cellAt t c).lq.getD p [] ++ if p = q then [.tok k] else []) ∧
    (∀ d, d < 4 → (s.cellAt t c).ring.getD d [] = [] → s.heldOut t c d = false → (s.outQueue t c d).length < 4 →
      let u := s.deliver t c (8 + d) k
      (∀ v m, s.link t c d = .cell v m → OnlyCell v m s u ∧ { u.cellAt v m with xin := (s.cellAt v m).xin } = s.cellAt v m ∧
        ∀ p, (u.cellAt v m).xin.getD p [] = (s.cellAt v m).xin.getD p [] ++ if p = (d + 2) % 4 then [k] else []) ∧
      (∀ a, s.link t c d = .ag a → OnlyCell t c s u ∧ { u.cellAt t c with agOut := (s.cellAt t c).agOut } = s.cellAt t c ∧
        ∀ p, (u.cellAt t c).agOut.getD p [] = (s.cellAt t c).agOut.getD p [] ++ if p = d then [k] else []))

/-- R61: a slot that is not ready fires nothing: its cell stays as it is but for the mark of a ring noted (R409, R422), and so
do the tile cores and the placements. R402, R403: a cell trap marks the cell, writes one record that names the firing, its
lanes, code and flags, for a memory cause in that detail or with the zero detail of R413, which is free (log 29), and does nothing
else to the fabric: no head is popped, no register, queue or channel changes, and a
record of severity 1 holds no fault domain, but where its release meets sectors that cannot be written back (R420). A trapped
cell fires no slot. -/
def Obligations.SlotsThatDoNotFire : Prop :=
  (∀ (s s' : State) (i : Instr) (op : Nat) (f : CellF), cellParts i = some (op, f) →
    s.slotReady (s.firing op f) = false → exec i s = .next s' →
    let c := s.cellAt s.sched.focus.tile s.sched.focus.cell
    let c' := s'.cellAt s.sched.focus.tile s.sched.focus.cell
    { c' with ringNoted := c.ringNoted } = c ∧ (∀ u, s'.core u = s.core u) ∧ s'.places = s.places ∧ s'.regions = s.regions) ∧
  (∀ (s : State) (fr : Firing) (code sw : Nat) (fl : BitVec 5) (loc : Word),
    let u := s.cellTrap fr code sw fl loc
    (∀ pk p, s.loadedOn fr.t = some pk → s.places.find? pk = some p →
      let full := fr.exec.toNat * 2 ^ 24 + sw * 2 ^ 16 + fl.toNat
      let noted (v : State) (detail : Nat) : State := (v.report
        { vi := p.vi, severity := 1, unit := 0, code := code, domain := p.domain, tile := fr.t, vtile := (p.vtOf fr.t).getD 0xFF,
          cell := fr.c, slot := fr.slot, ctx := (s.cellAt fr.t fr.c).active, loc := loc,
          detail := detail, place0 := placeWord0 p, place1 := placeWord1 p }).updCell fr.t fr.c (fun x => { x with trapped := true })
      (code < 0x10 → u = noted s full) ∧
      (0x10 ≤ code → ∃ (v : State) (d : Nat), { v with sched := s.sched } = s ∧ (d = full ∨ d = 0) ∧ u = noted v d)) ∧
    u.cellAt fr.t fr.c = { s.cellAt fr.t fr.c with trapped := true } ∧
    (∀ c, c ≠ fr.c → u.cellAt fr.t c = s.cellAt fr.t c) ∧ (∀ t, t ≠ fr.t → u.tile t = s.tile t) ∧
    (s.stuckSectors fr.t = [] → ∀ v, (u.vi v).held = (s.vi v).held) ∧
    ((∀ x ∈ (s.tile fr.t).cache, x.line < 2 ^ 34) → ∀ k, 2 ^ 60 ≤ k → k < 2 ^ 64 → u.byteAt k = s.byteAt k) ∧
    ∀ p, u.cellLive fr.t fr.c p = false)

/-- R208 to R212: the moves of tokens and control tokens. -/
def Obligations.CellFlow : Prop :=
  ∀ (s : State) (f : CellF),
    let fr (op : Nat) : Firing := s.firing op f
    let ready (op : Nat) : Prop := s.slotReady (fr op) = true
    let quiet : Nat → BitVec 5 := fun _ => 0
    let a (i : Nat) : Fw := s.laneFw f.srcA i
    (ready 0x80 → exec (.mov f) s =
      .next (s.fired (fr 0x80) quiet (mkToken a (fr 0x80).exec (fr 0x80).tag (fr 0x80).scaleBit))) ∧
    (ready 0x81 → f.srcA < 32 → f.srcB < 32 →
      let n : Int := f.srcA * 32 + f.srcB
      exec (.lit f) s = .next (s.fired (fr 0x81) quiet (mkToken
        (fun i => laneOfInt ((if n < 512 then n else n - 1024) + if f.dstB = 0 then (i : Int) else 0))
        (fr 0x81).exec (fr 0x81).tag false))) ∧
    (ready 0x87 →
      let tag := if (fr 0x87).exec = 0 then (fr 0x87).tag
        else BitVec.ofNat 2 (s.laneFw f.srcB ((fr 0x87).lanes.headD 0)).toNat
      exec (.tag f) s = .next (s.fired (fr 0x87) quiet (mkToken a (fr 0x87).exec tag (fr 0x87).scaleBit))) ∧
    (ready 0x82 →
      let q := (fr 0x82).x.q.getD f.srcB 0
      let part (m : BitVec 8) : Token := mkToken a m (fr 0x82).tag (fr 0x82).scaleBit
      let put (m : BitVec 8) (d : Nat) (u : State) : State := if m = 0 then u else u.deliver (fr 0x82).t (fr 0x82).c d (part m)
      exec (.steer f) s = .next (s.firedWith (fr 0x82) (fun u =>
        put ((fr 0x82).exec &&& ~~~ q) f.dstB (put ((fr 0x82).exec &&& q) f.dstA u))) ∧
      exec (.steerCtl f) s = .next (s.firedWith (fr 0x82) (fun u => (u.popCi (fr 0x82).t (fr 0x82).c 0).deliver (fr 0x82).t
        (fr 0x82).c (if (fr 0x82).x.ciHead 0 = some true then f.dstA else f.dstB) (s.wholeToken (fr 0x82) f.srcA)))) ∧
    (ready 0x83 → ∀ v, (v = if (fr 0x83).x.ciHead 0 = some true then f.srcA else f.srcB) →
      exec (.merge f) s = .next (s.firedWith (fr 0x83) (fun u =>
        let u := u.popCi (fr 0x83).t (fr 0x83).c 0
        (if 8 ≤ v ∧ v ≤ 13 then u.popHead (fr 0x83).t (fr 0x83).c v else u).deliver (fr 0x83).t (fr 0x83).c f.dstA
          (s.wholeToken (fr 0x83) v)))) ∧
    (ready 0x84 → exec (.ctok f) s = .next (s.firedWith (fr 0x84) (fun u => (fr 0x84).dsts.foldl (fun u d =>
      if d = 20 ∨ d = 21 then u.sendCtl (fr 0x84).t (fr 0x84).c (d - 20) (decide (f.srcA = 1)) else u) u))) ∧
    (ready 0x85 → ∀ b, (fr 0x85).x.ciHead f.srcA = some b →
      exec (.crec f) s = .next (s.firedWith (fr 0x85) (fun u => (fr 0x85).dsts.foldl (fun u d =>
        if 16 ≤ d ∧ d ≤ 19 then u.setPred (fr 0x85) (d - 16) (fun _ => b) else u)
          (u.popCi (fr 0x85).t (fr 0x85).c f.srcA)))) ∧
    (ready 0x86 → exec (.drop f) s = .next (s.firedWith (fr 0x86) (fun u => u))) ∧
    (ready 0x88 → exec (.done f) s = .next (s.firedWith (fr 0x88) (fun u =>
      u.doneToken (fr 0x88).t (fr 0x88).c (2 ^ f.srcA))))

/-- R213, R214: a cell load or store checks every executing lane before it performs any. LDS gives each executing lane
its bytes; STS leaves exactly the stored bytes changed, a later lane over an earlier one, and the firing sends nothing;
the first failing lane traps the cell with its code and address. -/
def Obligations.CellLoadsAndStores : Prop :=
  ∀ (s : State) (f : CellF),
    let off (i : Nat) : Nat := s.laneNat f.srcA i
    let load (i : Instr) (op n : Nat) (g : Nat → Int) (wide : Bool) : Prop :=
      let fr := s.firing op f
      s.slotReady fr = true →
        ((∀ l ∈ fr.lanes, s.elementFail fr.t (off l) n false = none) →
          let v (k : Nat) : Nat := s.readWord (keysFrom (tileKey fr.t (off k)) n)
          exec i s = .next (s.fired fr (fun _ => 0) (mkToken
            (fun k => if wide = true then BitVec.ofNat 40 (v k) else laneOfInt (g (v k))) fr.exec fr.tag false))) ∧
        (∀ e o, fr.lanes.findSome? (fun l => s.elementFail fr.t (off l) n false) = some (e, o) →
          exec i s = .next (s.cellTrap fr e 0 0 (ownTileAddr o)))
    let store (i : Instr) (op n : Nat) : Prop :=
      let fr := s.firing op f
      s.slotReady fr = true →
        ((∀ l ∈ fr.lanes, s.elementFail fr.t (off l) n true = none) →
          s.Inv → ∃ act : State → State, (∀ x, { act x with mem := x.mem, bad := x.bad, die := x.die } = x) ∧
            exec i s = .next (s.firedWith fr act) ∧ ∀ k, (s.firedWith fr act).byteAt k =
            match fr.lanes.reverse.find? (fun l => decide (tileKey fr.t (off l) ≤ k ∧ k < tileKey fr.t (off l) + n)) with
            | some l => BitVec.ofNat 8 ((s.laneFw f.srcB l).toNat / 2 ^ (8 * (k - tileKey fr.t (off l))))
            | none => s.byteAt k) ∧
        (∀ e o, fr.lanes.findSome? (fun l => s.elementFail fr.t (off l) n true) = some (e, o) →
          exec i s = .next (s.cellTrap fr e 0 0 (ownTileAddr o)))
    (f.srcB = 0 → load (.ldsI f) 0x90 1 (fun v => if v < 2 ^ 7 then v else (v : Int) - 2 ^ 8) false) ∧
    (f.srcB = 1 → load (.ldsI f) 0x90 1 (fun v => v) false) ∧
    (f.srcB = 2 → load (.ldsI f) 0x90 2 (fun v => if v < 2 ^ 15 then v else (v : Int) - 2 ^ 16) false) ∧
    (f.srcB = 3 → load (.ldsI f) 0x90 2 (fun v => v) false) ∧
    (f.srcB = 4 → load (.ldsI f) 0x90 4 (fun v => v) false) ∧ load (.ldsF f) 0x91 8 (fun v => v) true ∧
    (f.dstA = 0 → store (.stsI f) 0x92 1) ∧ (f.dstA = 1 → store (.stsI f) 0x92 2) ∧
    (f.dstA = 2 → store (.stsI f) 0x92 4) ∧ store (.stsF f) 0x93 8

/-- R203, R204: QAPP with a well-formed descriptor in SCRATCH: the tail grows by the executing lanes, their values stand
in consecutive entries in lane order, each lane gets its index, and no other byte changes; without an executing lane it
sends its empty token and touches no memory. A reserved descriptor traps with code 0x03, a misaligned header with 0x13,
and a header or an entry outside SCRATCH or in error with that check's code, with nothing written; which of several
causes is taken is the model's order (log 116), and that without an executing lane it completes whatever its descriptor holds is
the model's choice (log 127: R180 before R203). -/
def Obligations.CellQueueAppend : Prop :=
  ∀ (s : State) (f : CellF),
    let fr := s.firing 0x70 f
    let w := (s.laneFw f.srcB 0).toNat
    let cap := w / 2 ^ 21 % 2 ^ 14
    let hdr := w % 2 ^ 21
    let bytes := if w / 2 ^ 38 = 0 then 4 else 8
    let n := fr.lanes.length
    let old := s.readWord (keysFrom (tileKey fr.t hdr) 8)
    let entry (j : Nat) : Nat := hdr + 8 + bytes * ((old + j) % cap)
    let formed : Prop := w / 2 ^ 38 ≤ 1 ∧ w / 2 ^ 35 % 8 = 0 ∧ cap ≠ 0
    s.Inv → s.slotReady fr = true →
    (fr.exec = 0 → exec (.qapp f) s = .next (s.fired fr (fun _ => 0) (mkToken (fun _ => 0) 0 fr.tag false))) ∧
    (fr.exec ≠ 0 → formed → hdr % 8 = 0 →
      s.scratchRange fr.t hdr 8 = .ok (keysFrom (tileKey fr.t hdr) 8) →
      s.badRead (keysFrom (tileKey fr.t hdr) 8) = false →
      (∀ j, j < n → s.scratchFail fr.t (entry j) bytes = none) →
      ∃ u : State, exec (.qapp f) s = .next ((u.emit fr (mkToken
          (fun i => laneOfInt (old + (fr.lanes.filter (· < i)).length)) fr.exec fr.tag false)).endFiring fr) ∧
        u.readWord (keysFrom (tileKey fr.t hdr) 8) = (old + n) % 2 ^ 64 ∧
        (n ≤ cap → ∀ j l, fr.lanes[j]? = some l →
          u.readWord (keysFrom (tileKey fr.t (entry j)) bytes) = (s.laneFw f.srcA l).toNat % 2 ^ (8 * bytes)) ∧
        ∀ k, (k < tileKey fr.t hdr ∨ tileKey fr.t hdr + 8 ≤ k) →
          (∀ j, j < n → k < tileKey fr.t (entry j) ∨ tileKey fr.t (entry j) + bytes ≤ k) → u.byteAt k = s.byteAt k) ∧
    (fr.exec ≠ 0 → ¬formed → exec (.qapp f) s = .next (s.cellTrap fr 0x03 0 0 0)) ∧
    (fr.exec ≠ 0 → formed → hdr % 8 ≠ 0 →
      exec (.qapp f) s = .next (s.cellTrap fr 0x13 0 0 (ownTileAddr hdr))) ∧
    (fr.exec ≠ 0 → formed → hdr % 8 = 0 →
      (∀ e, s.scratchRange fr.t hdr 8 = .error e →
        exec (.qapp f) s = .next (s.cellTrap fr e 0 0 (ownTileAddr hdr))) ∧
      (s.scratchRange fr.t hdr 8 = .ok (keysFrom (tileKey fr.t hdr) 8) →
        (s.badRead (keysFrom (tileKey fr.t hdr) 8) = true →
          exec (.qapp f) s = .next (s.cellTrap fr 0x1D 0 0 (ownTileAddr hdr))) ∧
        (s.badRead (keysFrom (tileKey fr.t hdr) 8) = false → ∀ e off,
          (List.range n).findSome? (fun j => s.scratchFail fr.t (entry j) bytes) = some (e, off) →
          exec (.qapp f) s = .next (s.cellTrap fr e 0 0 (ownTileAddr off)))))

/-- R215 to R219: a UPD sends one update per executing lane and reserves an entry for its old values, or, without an
executing lane, sends its empty token; OWN claims and releases entries of the tile's directory; a UPD or OWN that fails a
check traps with the check's code; ORDT sends its token once no earlier memory firing of the cell is open. That an ORDT puts nothing in
its destination as it fires, and that its token waits behind earlier ordering tokens of the cell, are the model's reading (log 66). -/
def Obligations.CellOwners : Prop :=
  ∀ (s : State) (f : CellF),
    let upd (i : Instr) (code : Nat) (op : UpdOp) : Prop :=
      let fr := s.firing code f
      let us := fr.lanes.map (fun l =>
        ({ op := op, addr := s.laneNat f.srcA l, val := s.laneFw f.srcB l, src := fr.t * 64 + fr.c, firing := s.sched.ids,
           lane := l } : Update))
      let lq := if f.dstA = 31 then none else some (f.dstA - 12)
      s.slotReady fr = true → fr.exec ≠ 0 →
        (∀ l ∈ fr.lanes, s.laneNat f.srcA l < 0x180000 ∧ s.laneNat f.srcA l % (if op = .fadd then 8 else 4) = 0 ∧
          ∃ o, s.ownerOf fr.t (s.laneNat f.srcA l) (if op = .fadd then 8 else 4) = some o ∧ o.2.closing = false) →
        exec i s = .next (s.newId.2.firedWith fr (fun u => u.updCell fr.t fr.c (fun x => { x with
          updOut := x.updOut ++ us
          pendUpd := x.pendUpd ++
            [{ id := s.sched.ids, lq := lq, left := us.length, tok := mkToken (fun _ => 0) fr.exec fr.tag false }]
          lq := match lq with
            | none => x.lq
            | some q => x.lq.set q (x.lq.getD q [] ++ [.reserved s.sched.ids]) })))
    let stops (i : Instr) (code : Nat) (op : UpdOp) : Prop :=
      let fr := s.firing code f
      let n := if op = .fadd then 8 else 4
      s.slotReady fr = true →
        (fr.exec = 0 → exec i s = .next (s.fired fr (fun _ => 0) (mkToken (fun _ => 0) 0 fr.tag false))) ∧
        (∀ l, l ∈ fr.lanes → 0x180000 ≤ s.laneNat f.srcA l → (∀ j ∈ fr.lanes, j < l → s.laneNat f.srcA j < 0x180000) →
          exec i s = .next (s.cellTrap fr 0x11 0 0 (ownTileAddr (s.laneNat f.srcA l)))) ∧
        ((∀ j ∈ fr.lanes, s.laneNat f.srcA j < 0x180000) →
          (∀ l, l ∈ fr.lanes → s.laneNat f.srcA l % n ≠ 0 → (∀ j ∈ fr.lanes, j < l → s.laneNat f.srcA j % n = 0) →
            exec i s = .next (s.cellTrap fr 0x13 0 0 (ownTileAddr (s.laneNat f.srcA l)))) ∧
          ((∀ j ∈ fr.lanes, s.laneNat f.srcA j % n = 0) →
            (∃ l ∈ fr.lanes, ∀ o, s.ownerOf fr.t (s.laneNat f.srcA l) n = some o → o.2.closing = true) →
            exec i s = .next (s.cellTrap fr 0x07 0 0 0)))
    stops (.updAdd f) 0x94 .add ∧ stops (.updFadd f) 0x95 .fadd ∧ stops (.updMin f) 0x96 .min ∧
    stops (.updMax f) 0x97 .max ∧ stops (.updOr f) 0x98 .or ∧ stops (.updTas f) 0x99 .tas ∧
    upd (.updAdd f) 0x94 .add ∧ upd (.updFadd f) 0x95 .fadd ∧ upd (.updMin f) 0x96 .min ∧ upd (.updMax f) 0x97 .max ∧
    upd (.updOr f) 0x98 .or ∧ upd (.updTas f) 0x99 .tas ∧
    (let fr := s.firing 0x9A f
     let w := (s.laneFw f.srcA 0).toNat
     let e := w / 2 ^ 37 % 4
     s.slotReady fr = true →
       (w / 2 ^ 39 = 1 → s.claimFail fr.t w = 0 →
         exec (.own f) s = .next (s.firedWith fr (fun u => u.updTile fr.t (fun x => { x with
           owners := x.owners.set e
             { cell := fr.c, base := w % 2 ^ 21, words := w / 2 ^ 21 % 2 ^ 14, closing := false } })))) ∧
       (w / 2 ^ 39 = 1 → s.claimFail fr.t w ≠ 0 → exec (.own f) s = .next (s.cellTrap fr (s.claimFail fr.t w) 0 0
         (if s.claimFail fr.t w < 0x10 then 0 else ownTileAddr (w % 2 ^ 21)))) ∧
       (w / 2 ^ 39 = 0 → w / 2 ^ 35 % 4 ≠ 0 → exec (.own f) s = .next (s.cellTrap fr 0x03 0 0 0)) ∧
       (w / 2 ^ 39 = 0 → w / 2 ^ 35 % 4 = 0 → (s.tile fr.t).owners.find? e = none →
         exec (.own f) s = .next (s.cellTrap fr 0x07 0 0 0)) ∧
       (w / 2 ^ 39 = 0 → w / 2 ^ 35 % 4 = 0 → ∀ o, (s.tile fr.t).owners.find? e = some o →
         (o.cell = fr.c → exec (.own f) s = .next (s.firedWith fr (fun u => (u.updTile fr.t (fun x =>
           { x with owners := x.owners.set e { o with closing := true } })).freeClosing fr.t))) ∧
         (o.cell ≠ fr.c → exec (.own f) s = .next (s.cellTrap fr 0x07 0 0 0)))) ∧
    (let fr := s.firing 0x9B f
     s.slotReady fr = true →
       (fr.x.pendUpd = [] → fr.x.ecmds = [] → fr.x.pendOrdt = [] →
         exec (.ordt f) s = .next (s.fired fr (fun _ => 0) (mkToken (fun _ => 0) 0 fr.tag false))) ∧
       (fr.x.pendUpd ≠ [] ∨ fr.x.ecmds ≠ [] ∨ fr.x.pendOrdt ≠ [] →
         exec (.ordt f) s = .next (s.firedWith fr (fun u => u.updCell fr.t fr.c (fun x => { x with pendOrdt := x.pendOrdt ++
           [{ dsts := fr.dsts, tag := fr.tag, waits := fr.x.pendUpd.map PendUpd.id ++ fr.x.ecmds }] })))))

/-- R220, R223 to R226: the systolic, plane, scale and triple-merge instructions. -/
def Obligations.CellMatrix : Prop :=
  ∀ (s : State) (f : CellF),
    let fr (op : Nat) : Firing := s.firing op f
    let ready (op : Nat) : Prop := s.slotReady (fr op) = true
    let sets (op : Nat) (g : Cell → Cell) : Out :=
      .next (s.firedWith (fr op) (fun u => u.updCell (fr op).t (fr op).c g))
    (ready 0xA0 →
      let d := s.laneFw f.srcA 0
      (d.getLsbD 39 = true ∧ d.toNat / 2 ^ 37 % 4 ≠ 3 ∧ d.toNat / 2 ^ 32 % 8 = 0 ∧ d.toNat % 2 ^ 24 = 0 →
        exec (.sysm f) s = sets 0xA0 (fun x => { x with sys := some d })) ∧
      (¬(d.getLsbD 39 = true ∧ d.toNat / 2 ^ 37 % 4 ≠ 3 ∧ d.toNat / 2 ^ 32 % 8 = 0 ∧ d.toNat % 2 ^ 24 = 0) →
        exec (.sysm f) s = .next (s.cellTrap (fr 0xA0) 0x03 0 0 0)) ∧
      exec (.sysmOff f) s = sets 0xA0 (fun x => { x with sys := none })) ∧
    (ready 0xA1 →
      let k := s.wholeToken (fr 0xA1) f.srcA
      ((fr 0xA1).x.rowCtr < 32 → k.scale = false → exec (.ldsw f) s = sets 0xA1 (fun x => { x with
        planeS := { x.planeS with
          rows := x.planeS.rows.set x.rowCtr (mkLanes (fun i => if k.valid.getLsbD i = true then lane k.lanes i else 0)) }
        rowCtr := x.rowCtr + 1 })) ∧
      ((fr 0xA1).x.rowCtr < 32 → k.scale = true →
        exec (.ldsw f) s = sets 0xA1 (fun x => { x with planeS := { x.planeS with cs := k.lanes } })) ∧
      (32 ≤ (fr 0xA1).x.rowCtr → exec (.ldsw f) s =
        .next (s.firedWith (fr 0xA1) (fun u => u.deliver (fr 0xA1).t (fr 0xA1).c f.dstA k)))) ∧
    (ready 0xA2 → exec (.pswp f) s = sets 0xA2 (fun x => { x with
      planeA := x.planeS, planeS := { x.planeA with cs := oneLanes }, rowCtr := 0 })) ∧
    (ready 0xA3 →
      let bind (v : Nat) : Option Nat := if v = 15 then none else some v
      exec (.scl f) s = sets 0xA3 (fun x => { x with
        bindAt := s.clk.cycle + 1
        ctxs := x.ctxs.set x.active { x.ctxs.getD x.active {} with bindA := bind f.srcA, bindB := bind f.srcB }
        latA := if f.dstA = 0 then oneLanes else x.latA
        latB := if f.dstA = 0 then oneLanes else x.latB })) ∧
    (ready 0xA4 → ∀ x y, s.slotHead (fr 0xA4).t (fr 0xA4).c f.srcA = some x →
      s.slotHead (fr 0xA4).t (fr 0xA4).c f.srcB = some y →
      (x.tag ≠ y.tag ∨ 2 ≤ x.tag.toNat → exec (.tmrg f) s = .next (s.cellTrap (fr 0xA4) 0x04 0 0 0)) ∧
      (x.tag = 1 → y.tag = 1 → (x.valid &&& y.valid) &&& 3 ≠ 3 →
        exec (.tmrg f) s = .next (s.cellTrap (fr 0xA4) 0x04 0 0 0)) ∧
      (x.tag = 1 → y.tag = 1 → (x.valid &&& y.valid) &&& 3 = 3 →
        let h := mergeHead (lane x.lanes 0) (lane x.lanes 1) (lane y.lanes 0) (lane y.lanes 1)
        ((fr 0xA4).exec ≠ 0 → h.2 &&& (fr 0xA4).x.ctx.trapEn ≠ 0 →
          exec (.tmrg f) s = .next (s.cellTrap (fr 0xA4) 0x01 0 h.2 0)) ∧
        (h.2 &&& (fr 0xA4).x.ctx.trapEn = 0 → exec (.tmrg f) s = .next ((((((s.takeHeads (fr 0xA4)).raiseFlags (fr 0xA4)
          (fun _ => h.2)).updCell (fr 0xA4).t (fr 0xA4).c (fun z => { z with
            mrgA := h.1.2.1, mrgB := h.1.2.2.1
            mrgNan := isNaN (lane x.lanes 0) || isNaN (lane y.lanes 0) })).emit (fr 0xA4)
          (mkToken (fun i => if i = 0 then h.1.1 else h.1.2.2.2.1) 3 (fr 0xA4).tag false))).endFiring (fr 0xA4)))) ∧
      (x.tag = 0 → y.tag = 0 → FiresMask (.tmrg f) (fr 0xA4) s ((fr 0xA4).exec &&& x.valid &&& y.valid) (fun i =>
        if (fr 0xA4).x.mrgNan = true then (defaultNaN, 0)
        else fusedPair (fr 0xA4).x.mrgA (lane x.lanes i) (fr 0xA4).x.mrgB (lane y.lanes i))))

/-- R227, R229 to R231: engine commands, sweeps, traps, halts and flags of cells. -/
def Obligations.CellSystem : Prop :=
  ∀ (s : State) (f : CellF),
    let fr (op : Nat) : Firing := s.firing op f
    let ready (op : Nat) : Prop := s.slotReady (fr op) = true
    (ready 0xB0 → (fr 0xB0).exec = 0 → exec (.ecmd f) s = .next (s.firedWith (fr 0xB0) (fun u => u))) ∧
    (ready 0xB0 → (fr 0xB0).exec ≠ 0 →
      let t := (fr 0xB0).t
      let c := (fr 0xB0).c
      (s.portOf t c = none → exec (.ecmd f) s = .next (s.cellTrap (fr 0xB0) 0x06 0 0 0)) ∧
      (∀ q, s.portOf t c = some q → ∃ u, exec (.ecmd f) s = .next u ∧
        (∃ x : QCmd, QueuedInOrder s.clk.cycle (c + 1) (s.queueAt t (keySlot (s.cellOwner t)) q).epoch
            (s.queueAt t (keySlot (s.cellOwner t)) q).items (u.queueAt t (keySlot (s.cellOwner t)) q).items x ∧
          x.by_ = .cell c s.sched.ids ∧ x.cycle = s.clk.cycle ∧
          bytesOf [x.w0, x.w1, x.w2, x.w3, x.w4] = (List.range 8).flatMap (fun i =>
            leBytes 5 (if (fr 0xB0).exec.getLsbD i = true then (s.laneFw f.srcA i).toNat else 0))) ∧
        (u.cellAt t c).ecmds = (s.cellAt t c).ecmds ++ [s.sched.ids] ∧
        (f.pop = 0 → (fr 0xB0).names 14 = false →
          (u.cellAt t c).er = (s.cellAt t c).er ++ [.reserved s.sched.ids]))) ∧
    (ready 0xC0 →
      ((s.tile (fr 0xC0).t).anchor = some (fr 0xC0).t → (fr 0xC0).c = 0 → ∃ u, exec (.csweep f) s = .next u ∧
        (u.region (fr 0xC0).t).sweeps = (s.region (fr 0xC0).t).sweeps ++
          [{ ctx := f.srcA, carry := f.srcB == 1, start := s.clk.cycle }]) ∧
      (¬((s.tile (fr 0xC0).t).anchor = some (fr 0xC0).t ∧ (fr 0xC0).c = 0) →
        exec (.csweep f) s = .next (s.cellTrap (fr 0xC0) 0x05 0 0 0))) ∧
    (ready 0xC1 → exec (.cellTrap f) s = .next (s.cellTrap (fr 0xC1) 0x02 f.srcA 0 0)) ∧
    (ready 0xC2 → exec (.cellHalt f) s = .next (s.firedWith (fr 0xC2) (fun u =>
      u.updCell (fr 0xC2).t (fr 0xC2).c (fun x => { x with halted := true })))) ∧
    (ready 0xC3 → exec (.flgr f) s = .next (s.fired (fr 0xC3) (fun _ => 0) (mkToken
      (fun i => BitVec.ofNat 40 ((s.cellAt (fr 0xC3).t (fr 0xC3).c).flags.getD i 0).toNat)
      (fr 0xC3).exec (fr 0xC3).tag false))) ∧
    (ready 0xC4 → ∃ u, exec (.flgc f) s = .next u ∧ ∀ i,
      ((u.cellAt (fr 0xC4).t (fr 0xC4).c).flags.getD i 0) =
        if i < 8 ∧ (fr 0xC4).exec.getLsbD i = true then
          ((s.cellAt (fr 0xC4).t (fr 0xC4).c).flags.getD i 0) &&& ~~~ BitVec.ofNat 5 f.srcA
        else (s.cellAt (fr 0xC4).t (fr 0xC4).c).flags.getD i 0)

/-! ### Submission entries -/

/-- R305: a command that has ended leaves front-end execution, writes its completion entry where its completion queue
stands in host memory and is enabled, signals that queue's vector, and lets its submission queue go on. R371: where the queue is
full no entry is written; the command waits with its status and result, and nothing else changes. -/
def Obligations.CompletionEntries : Prop :=
  ∀ (s : State) (f : FeCmd) (status : Nat) (result : Word),
    let v := s.vi f.e.vi
    let c := (v.sq.getD f.e.sq {}).w1.toNat / 2 ^ 56 % 16
    let q := v.cq.getD c {}
    let u := s.feEnd f status result
    let others := s.fe.filter (fun x => !(x.e.vi == f.e.vi && x.e.sq == f.e.sq))
    (q.en = true → (q.head + q.size - q.tail - 1) % q.size = 0 →
      u = { s with fe := others ++ [{ f with wait := .ended status result }] }) ∧
    (q.en = false ∨ (q.head + q.size - q.tail - 1) % q.size ≠ 0 →
    (∀ x ∈ u.fe, ¬(x.e.vi = f.e.vi ∧ x.e.sq = f.e.sq)) ∧ ((u.vi f.e.vi).sq.getD f.e.sq {}).busy = false ∧
    (s.Inv → q.en = true → q.inDevice = false →
      u.mem.getN (hostKey f.e.vi (q.base + 16 * q.tail)) 16 =
        bytesOf [wd (f.e.w0.toNat % 2 ^ 32 * 2 ^ 32 + f.sqHead % 2 ^ 16 * 2 ^ 16 + f.e.sq % 16 * 2 ^ 12 +
          status % 128 * 2 + (if q.phase = true then 1 else 0)), result] ∧
      ((u.vi f.e.vi).cq.getD c {}).tail = (q.tail + 1) % q.size ∧
      ((u.vi f.e.vi).cq.getD c {}).phase = (if (q.tail + 1) % q.size = 0 then !q.phase else q.phase) ∧
      (u.vi f.e.vi).vecPend.find? q.vector = some (s.clk.cycle, q.port)))

/-- R306: REGISTER of an RCB that is accepted stores it with the next serial, and for an operator its image under the
identifier of R306, which is the command's result. That the first serial is 1, and that a tenant's identifier names job 0, is
the model's reading (log 85). R306, R307: for a job RCB with W4 not zero the groups of the table at W4 replace the job's, one header and
its locations after another, and with W4 zero they are kept; the route table is kept with either; a table whose count is above 256,
with a bad header or a group number twice is refused with status 1. -/
def Obligations.RegisterEntries : Prop :=
  ∀ (s s1 : State) (e : Entry) (b : List Byte), e.w3.toNat % 64 = 0 → s.feRead e.vi e.w3 64 = (.ok b, s1) →
    let w := wordsOf b
    let w0 := (w.getD 0 0).toNat
    let idx := w0 / 2 ^ 44 % 2 ^ 12
    let serial (v : Nat) : Nat := match s1.rcb v idx with
      | some o => o.serial + 1
      | none => 1
    let id (v job : Nat) : Word := wd (v * 2 ^ 42 + job * 2 ^ 30 + idx * 2 ^ 18 + serial v % 2 ^ 18)
    let stored (u : State) (v : Nat) : Prop := ∃ r, u.rcb v idx = some r ∧ r.w0 = w.getD 0 0 ∧ r.w1 = w.getD 1 0 ∧
      r.w2 = w.getD 2 0 ∧ r.w3 = w.getD 3 0 ∧ r.serial = serial v ∧ r.addr = e.w3.toNat
    (s1.rcbStatus e.vi w ≠ 0 → exec (.register e) s = .next (s1.feFail e (s1.rcbStatus e.vi w))) ∧
    (s1.rcbStatus e.vi w = 0 → w0 / 2 ^ 56 % 4 = 0 → e.w1 = 0 → e.w2 = 0 → e.w4 = 0 →
      ∃ u, exec (.register e) s = .next (u.feDone e (id (w0 / 2 ^ 58) 0)) ∧ stored u (w0 / 2 ^ 58)) ∧
    (s1.rcbStatus e.vi w = 0 → w0 / 2 ^ 56 % 4 = 1 → e.w1 = 0 → e.w2 = 0 → e.w4 = 0 →
      ∃ u, exec (.register e) s = .next (u.feDone e (id e.vi idx)) ∧ stored u e.vi ∧
        u.job (jobKey e.vi idx) = s1.job (jobKey e.vi idx)) ∧
    (s1.rcbStatus e.vi w = 0 → w0 / 2 ^ 56 % 4 = 1 → e.w1 = 0 → e.w2 = 0 → e.w4 ≠ 0 →
      (∀ f s2, s1.groupTable e.vi e.w4 = (.error f, s2) → exec (.register e) s = .next (s2.feMem e f)) ∧
      (∀ s2, s1.groupTable e.vi e.w4 = (.ok none, s2) → exec (.register e) s = .next (s2.feFail e 1)) ∧
      (∀ g s2, s1.groupTable e.vi e.w4 = (.ok (some g), s2) →
        ∃ u : State, exec (.register e) s = .next (u.feDone e (id e.vi idx)) ∧
          u.job (jobKey e.vi idx) = { s2.job (jobKey e.vi idx) with groups := g } ∧
          ∃ r, u.rcb e.vi idx = some r ∧ r.w0 = w.getD 0 0)) ∧
    (∀ (gs : List (Nat × List Nat)) (a : Word),
      let padded (l : List Nat) : List Byte := l.flatMap (leBytes 2) ++ List.replicate ((8 - 2 * l.length % 8) % 8) 0
      let table : List Byte := leBytes 8 gs.length ++
        gs.flatMap (fun g => leBytes 8 (g.1 * 2 ^ 48 + g.2.length * 2 ^ 32) ++ padded g.2)
      gs.length ≤ 256 → (∀ g ∈ gs, g.1 < 2 ^ 16 ∧ g.2.length ≤ 256 ∧ ∀ x ∈ g.2, x < 2 ^ 16) → a.toNat + table.length ≤ 2 ^ 64 →
      (∀ o n, o + n ≤ table.length → o % 8 = 0 → n % 8 = 0 → s.feRead e.vi (a + wd o) n = (.ok ((table.drop o).take n), s)) →
      let good : Prop := (gs.map Prod.fst).Nodup ∧ ∀ g ∈ gs, g.2 ≠ [] ∧ ∀ x ∈ g.2, x / 8 % 32 = 0
      (good → ∃ m, s.groupTable e.vi a = (.ok (some m), s) ∧
        ∀ k, m.find? k = (gs.find? (fun g => g.1 == k)).map Prod.snd) ∧
      (¬good → s.groupTable e.vi a = (.ok none, s))) ∧
    (∀ (a : Word) b s2, s.feRead e.vi a 8 = (.ok b, s2) → 256 < leNat b → s.groupTable e.vi a = (.ok none, s2)) ∧
    (s1.rcbStatus e.vi w = 0 → w0 / 2 ^ 56 % 4 = 2 → e.w1 ≠ 0 → e.w4 = 0 → ∀ bytes s2,
      s1.feRead e.vi e.w1 e.w2.toNat = (.ok bytes, s2) →
      (∀ im, parseImage bytes = .ok im → ∃ u, exec (.register e) s = .next (u.feDone e (id e.vi (w0 / 2 ^ 32 % 2 ^ 12))) ∧
        stored u e.vi ∧ u.ops.find? (id e.vi (w0 / 2 ^ 32 % 2 ^ 12)).toNat =
          some { vi := e.vi, job := w0 / 2 ^ 32 % 2 ^ 12, rcb := idx, image := im }) ∧
      (∀ r, parseImage bytes = .error r → exec (.register e) s = .next (s2.feEnd (s2.feOf e) 4 r)))

/-- R29, R310 to R312, R315, R455: PLACE of a registered operator installs it: its placement stands under its anchor and slot,
its tiles belong to the region, and the answer is anchor and slot. Without W3 and without over it takes the first free rectangle
of the search with the lowest banks of each tile, its hamper banks at the top of the anchor tile, and charges its RCB and every
ancestor. Status 3 says that no rectangle or no run of hamper banks fits, status 2 that the charge does not, 4 that a route
index is held, 6 that a join is refused. UNPLACE of an operator with no record waiting in its hamper and no live row group
removes it; otherwise it has status 7. A second PLACE of one operator (6) and a W3 that names none (5) are log 85, a fifth
operator of a region (6) log 129, and another VI's operator for UNPLACE (5) log 130. -/
def Obligations.PlaceEntries : Prop :=
  ∀ (s : State) (e : Entry),
    let status (n : Nat) : Prop := exec (.place e) s = .next (s.feFail e n)
    (s.ops.find? e.w1.toNat = none → status 5) ∧
    (∀ op, s.ops.find? e.w1.toNat = some op → s.freshId e.vi e.w1 op = false → status 5) ∧
    (∀ op, s.ops.find? e.w1.toNat = some op → s.freshId e.vi e.w1 op = true → placeOptsOk e.w2 = false → status 1) ∧
    (∀ op, s.ops.find? e.w1.toNat = some op → s.freshId e.vi e.w1 op = true → placeOptsOk e.w2 = true →
      let share := e.w2.getLsbD 46
      let w := op.image.w
      let h := op.image.h
      let nb := e.w2.toNat / 2 ^ 47 % 16
      (s.placeOf e.w1 ≠ none ∨ (share = true ∧ s.effective e.vi op.rcb 5 ≠ 0) → status 6) ∧
      (s.placeOf e.w1 = none → (share = true → s.effective e.vi op.rcb 5 = 0) →
        s.routeHeld e.vi op.job op.image.routes = true → status 4) ∧
      (s.placeOf e.w1 = none → (share = true → s.effective e.vi op.rcb 5 = 0) →
        s.routeHeld e.vi op.job op.image.routes = false →
        let q : PlaceReq := { id := e.w1, op := op, vi := e.vi, banks := nb, weights := e.w4 }
        let holds (u : State) (p : Placement) : Prop :=
          exec (.place e) s = .next (u.feDone e (wd (p.anchor + p.slot * 4096))) ∧
          (∃ x, u.places.find? p.key = some { p with hamper := x }) ∧ p.regId = e.w1 ∧ p.vi = e.vi ∧ p.job = op.job ∧
          p.rcb = op.rcb ∧ p.w = w ∧ p.h = h ∧ p.cls = s.effective e.vi op.rcb 5 ∧ p.placedAt = s.clk.time ∧
          ∀ t ∈ p.tiles, (u.tile t).anchor = some p.anchor
        (∀ p u, s.newId.2.placeWhere e q s.sched.ids = .ok (p, u) → holds u p) ∧
        (∀ n, s.newId.2.placeWhere e q s.sched.ids = .error n → status n) ∧
        (e.w3 = 0 → share = false →
          let free (c : Nat × Nat × Nat) : Prop := ∀ i < w, ∀ j < h,
            (s.tile (physTile c.1 (c.2.1 + i) (c.2.2 + j))).state = .enabled ∧
            (s.tile (physTile c.1 (c.2.1 + i) (c.2.2 + j))).anchor = none
          let first := (searchOrder (e.w2.toNat / 2 ^ 60) (e.w2.toNat / 2 ^ 56 % 16) (e.w2.toNat / 2 ^ 52 % 16) w h
            (e.w2.getLsbD 51)).find? (fun c => decide (free c))
          let slotSize := 64 * (128 + 64 * (operPar op.image.oper).payload)
          let full := (16 * slotSize + 131071) / 131072
          let run : Option Nat := if full ≤ 12 - nb then some full else if 2 * slotSize ≤ (12 - nb) * 131072 then some (12 - nb)
            else none
          (first = none ∨ run = none → status 3) ∧
          (∀ d x y n, first = some (d, x, y) → run = some n →
            let chain := chainIn (s.vi e.vi).rcbs 3 op.rcb
            let fits : Prop := ∀ i ∈ chain, ∀ r, s.rcb e.vi i = some r → r.tiles + w * h ≤ s.effective e.vi i 0 ∧
              r.banks + (nb * (w * h) + n) ≤ s.effective e.vi i 1 ∧ r.hampers + 1 ≤ s.effective e.vi i 3
            (¬fits → status 2) ∧
            (fits → ∃ u p, holds u p ∧ p.die = d ∧ p.x = x ∧ p.y = y ∧ p.slot = 0 ∧ p.save = 0 ∧
              (∀ j, j < 12 → p.banks.getLsbD j = decide (j < nb)) ∧
              (∀ j, j < 12 → p.hbanks.getLsbD j = decide (12 - n ≤ j)) ∧
              ∀ i, u.rcb e.vi i = (s.rcb e.vi i).map (fun r => { r with
                tiles := r.tiles + chain.count i * (w * h), banks := r.banks + chain.count i * (nb * (w * h) + n)
                hampers := r.hampers + chain.count i })))) ∧
        (e.w3 ≠ 0 → s.placeOf e.w3 = none → status 5) ∧
        (e.w3 ≠ 0 → ∀ k r, s.placeOf e.w3 = some (k, r) →
          let a := keyAnchor k
          (r.vi ≠ e.vi → e.vi ≠ 0 → status 6) ∧
          ((∀ o ∈ s.regionOps a, o.2.w ≠ w ∨ o.2.h ≠ h) → status 6) ∧
          (4 ≤ (s.regionOps a).length → status 6) ∧
          ((∃ o ∈ s.regionOps a, ∃ im, s.imageOf o.2 = some im ∧ ∃ vt ∈ virtTiles w h, ∃ g ∈ op.image.tags vt, g ∈ im.tags vt) →
            status 6) ∧
          (((Finset.range 12).filter (fun b => ∀ vt ∈ virtTiles w h, (s.usedBanks a (a + vt)).getLsbD b = false)).card < nb →
            status 6) ∧
          ∀ p u, s.newId.2.placeWhere e q s.sched.ids = .ok (p, u) → p.anchor = a ∧ p.slot < 4 ∧ s.places.find? p.key = none))) ∧
    (s.placeOf e.w1 = none → exec (.unplace e) s = .next (s.feFail e 5)) ∧
    (∀ pk p, s.placeOf e.w1 = some (pk, p) →
      (p.vi ≠ e.vi → exec (.unplace e) s = .next (s.feFail e 5)) ∧
      (p.vi = e.vi → p.hamper.records = [] → s.liveGroups pk = [] →
        exec (.unplace e) s = .next ((s.unplaceOp pk).feOk e) ∧ (s.unplaceOp pk).places.find? pk = none) ∧
      (p.vi = e.vi → p.hamper.records ≠ [] ∨ s.liveGroups pk ≠ [] → exec (.unplace e) s = .next (s.feFail e 7)))

/-- R296, R299, R300, R303, R308, R326: INJECT puts every record of its array into the network for its route; it completes at once
where the route is a route tag, and where it is a hamper once none of its records is on its way there, with the count as its result. WBUILD,
WSWITCH and COPY start an engine command whose done action is the completion entry; TIMED reads its command and waits
for its stamp. -/
def Obligations.CommandEntries : Prop :=
  ∀ (s : State) (e : Entry),
    let job := e.w0.toNat / 2 ^ 32 % 2 ^ 12
    (∀ r u d, s.rcb e.vi job = some r → r.level = 1 → e.w2 ≠ 0 → e.w2.toNat ≤ 4096 → e.w1.toNat % 128 = 0 →
      e.w4.toNat % 64 = 0 → s.routeTo e.vi job (e.w3.toNat % 256) = some d → e.vi < 64 →
      s.newId.2.injectFrom e s.sched.ids (s.effective e.vi job 5) e.w2.toNat e.w1.toNat e.w4.toNat = (none, u) →
      (∀ n ∈ s.net, n.cmd ≠ some s.sched.ids) →
      let f : FeCmd := { u.feOf e with wait := .arriving s.sched.ids }
      let v : State := { u with fe := u.fe.filter (fun x => !(x.e.vi == e.vi && x.e.sq == e.sq)) ++ [f] }
      (∀ pk, d = .hamper pk → exec (.inject e) s = .next v) ∧
      (∀ t g pk, d = .tag t g pk → exec (.inject e) s = .next (v.feEnd f 0 f.e.w2)) ∧
      u.net.length = s.net.length + e.w2.toNat ∧
      ∀ n ∈ u.net.drop s.net.length, n.src = 0xFFF ∧ n.dest = d ∧ n.cmd = some s.sched.ids ∧ n.body.r.vi = e.vi ∧
        n.body.r.job = job) ∧
    (∀ idx f id, s.fe[idx]? = some f → f.wait = .arriving id →
      let there : Prop := ∃ n ∈ s.net, n.cmd = some id ∧ ∃ pk, n.dest = .hamper pk
      (there → makeMove (.command idx) s = .next s) ∧ (¬there → makeMove (.command idx) s = .next (s.feEnd f 0 f.e.w2))) ∧
    (∀ r, s.rcb e.vi job = some r → r.level = 1 →
      let started (i : Instr) (code kind : Nat) : Prop :=
        let c : QCmd :=
          { id := s.sched.ids, w0 := wd (code * 2 ^ 56 + e.w5.toNat % 2 ^ 32), w1 := e.w1, w2 := e.w2, w3 := e.w3,
            w4 := e.w4, by_ := .front e.vi e.sq, epoch := 0 }
        let eq := wd (kind * 2 ^ 60 + 15 * 2 ^ 56)
        let rc : RunCmd :=
          { c := c, tile := 0xFFF, pk := 2 ^ 32, q := 0, vi := e.vi, job := job, domain := s.effective e.vi job 10,
            timeout := s.effective e.vi job 9, eq := eq, started := s.clk.cycle }
        s.newId.2.cmdRefusal c eq e.vi job = 0 →
          exec i s = .next ((State.launch { s.newId.2 with
            fe := s.fe.filter (fun x => !(x.e.vi == e.vi && x.e.sq == e.sq)) ++
              [{ s.feOf e with wait := .engine s.sched.ids }] } rc).tryFinish s.sched.ids)
      started (.wbuildCommand e) 0xAA 1 ∧ started (.wswitchCommand e) 0xAB 7 ∧ started (.copyCommand e) 0x99 1) ∧
    (∀ b u, e.w2.toNat % 64 = 0 → s.feRead e.vi e.w2 64 = (.ok b, u) →
      let x := entryOfBytes e.vi e.sq b
      (timedOk x = true → ∃ u', exec (.timed e) s = .next u' ∧
        u'.fe = u.fe.filter (fun x => !(x.e.vi == e.vi && x.e.sq == e.sq)) ++ [{ u.feOf e with wait := .timed e.w1 x }] ∧
        ∀ k, u'.byteAt k = s.byteAt k) ∧
      (timedOk x = false → exec (.timed e) s = .next (u.feFail e 1)))

/-- R309: QUERY writes its answer at W2 and completes: the tile states, a placement record, the usage words of an RCB,
or device time. An identifier or an RCB that nobody registered ends it with status 5. -/
def Obligations.QueryEntries : Prop :=
  ∀ (s u : State) (e : Entry), e.w2.toNat % 8 = 0 →
    let answers (i : Instr) (b : List Byte) : Prop :=
      s.feWrite e.vi e.w2 b = (none, u) → exec i s = .next (u.feOk e)
    answers (.queryTileStates e) ((List.range 1152).map (fun t => match (s.tile t).state with
      | .enabled => if (s.tile t).anchor = none then (0 : Byte) else 1
      | .spare => 2
      | .defective => 3
      | .withdrawn => 4)) ∧
    (∀ pk p, s.placeOf e.w3 = some (pk, p) → p.vi = e.vi ∨ e.vi = 0 →
      answers (.queryPlacement e) (bytesOf [placeWord0 p, placeWord1 p, p.placedAt, 0])) ∧
    (s.placeOf e.w3 = none → s.ops.find? e.w3.toNat = none → exec (.queryPlacement e) s = .next (s.feFail e 5)) ∧
    (∀ r, s.rcb e.vi (e.w3.toNat % 2 ^ 12) = some r →
      answers (.queryRcbUsage e) (bytesOf (s.usageWords e.vi (e.w3.toNat % 2 ^ 12)))) ∧
    (s.rcb e.vi (e.w3.toNat % 2 ^ 12) = none → exec (.queryRcbUsage e) s = .next (s.feFail e 5)) ∧
    answers (.queryTime e) (bytesOf [s.clk.time]) ∧
    ∀ ks, s.feKeys e.vi e.w2 8 true = (.ok ks, u) → u.badWrite ks = false →
      exec (.queryTime e) s = .next ((u.writeKeys ks (bytesOf [s.clk.time])).feOk e)

/-! ### Register writes -/

/-- R376, R440: a register write through a port that is down, or to a function that VICTL has not enabled, changes nothing.
R371, R373: queue descriptors and doorbells. Word 0 is taken while the queue is disabled; word 1 with its enable bit starts
the queue afresh; a tail below the entry count reaches its queue at once when nothing is ahead of it, and one at or above it
disables the queue; a completion head below the entry count is taken, and commands that have ended and waited for room complete. A
descriptor of a queue may give room too (log 148). What a function that
is not enabled ignores is log 98; that word 1 starts its queue afresh and that a head at or above the entry count is ignored,
log 89; that a doorbell is applied at once, log 90: the model's readings. -/
def Obligations.QueueRegisters : Prop :=
  (∀ (s : State), s.regServed s.sched.focus.wr = false →
    ∀ i ∈ ([.sqDoorbell, .cqDoorbell, .queueDescriptorWrite, .invreqTranslation, .invreqHandle, .invreqBoth, .vsrootWrite,
        .hsrootWrite, .windowDescriptorWrite, .victlWrite, .domctlRelease, .domctlResume, .domctlAbort, .tilecmdWithdraw,
        .tilecmdAdmit, .tilecmdRestart, .tadjSlew, .tadjStep, .attestation, .lnkctlWrite, .fwctlStart, .fwctlCommit,
        .fwctlRevert, .registerWrite] : List Instr),
      exec i s = .next s) ∧
  (∀ (s : State), let w := s.sched.focus.wr
    s.regServed w = true →
    (w.off < 0x310 → 0x100 ≤ w.off → ∃ u : State, exec .queueDescriptorWrite s = .next u.endWaiting ∧ u.fe = s.fe) ∧
    (∀ k, k < 16 → w.off = 0x100 + 16 * k → ((s.vi w.vi).sq.getD k {}).en = false →
      (∀ f ∈ s.fe, ∀ st x, f.wait ≠ .ended st x) → ∃ u,
      exec .queueDescriptorWrite s = .next u ∧
      (u.vi w.vi).sq.getD k {} = { (s.vi w.vi).sq.getD k {} with w0 := w.v }) ∧
    (∀ k, k < 16 → w.off = 0x108 + 16 * k → w.v.getLsbD 47 = true →
      descOk false ((s.vi w.vi).sq.getD k {}).w0 w.v = true → (∀ f ∈ s.fe, ∀ st x, f.wait ≠ .ended st x) →
      ∃ u, exec .queueDescriptorWrite s = .next u ∧
      (u.vi w.vi).sq.getD k {} =
        { w0 := ((s.vi w.vi).sq.getD k {}).w0
          w1 := w.v
          en := true
          port := w.port
          busy := ((s.vi w.vi).sq.getD k {}).busy
          canary := s.isCanary w.vi } ∧
      (w.vi ≠ 0 → u.dev.vfQueue = true)) ∧
    (∀ k, k < 16 → w.off = 0x1000 + 8 * k → (s.ordAt w.vi w.port).lost = false → (s.ordAt w.vi w.port).writes = [] →
      ((s.vi w.vi).sq.getD k {}).en = true →
      (w.v.toNat % 2 ^ 16 < ((s.vi w.vi).sq.getD k {}).size → exec .sqDoorbell s = .next (s.updVi w.vi (fun v =>
        { v with sq := v.sq.set k { (s.vi w.vi).sq.getD k {} with tail := w.v.toNat % 2 ^ 16 } }))) ∧
      (((s.vi w.vi).sq.getD k {}).size ≤ w.v.toNat % 2 ^ 16 → ((s.vi w.vi).sq.getD k {}).busy = false →
        exec .sqDoorbell s = .next ((s.updVi w.vi (fun v =>
          { v with sq := v.sq.set k { (s.vi w.vi).sq.getD k {} with en := false } })).malformed w.vi k
            (w.v.toNat % 2 ^ 16)))) ∧
    (∀ k, k < 16 → w.off = 0x1080 + 8 * k →
      let q := (s.vi w.vi).cq.getD k {}
      let u := s.updVi w.vi (fun v => { v with cq := v.cq.set k { q with head := w.v.toNat % 2 ^ 16 } })
      (q.size ≤ w.v.toNat % 2 ^ 16 → exec .cqDoorbell s = .next s) ∧
      (w.v.toNat % 2 ^ 16 < q.size → (∀ f ∈ s.fe, ∀ st x, f.wait ≠ .ended st x) → (w.vi = 0 → k = 0 → s.dev.owed = []) →
        exec .cqDoorbell s = .next u) ∧
      (w.v.toNat % 2 ^ 16 < q.size → ∀ f st x, f ∈ s.fe → f.wait = .ended st x → (∀ g ∈ s.fe, g ≠ f → ∀ n y, g.wait ≠ .ended n y) →
        s.fe.count f = 1 → u.entryRoom f.e.vi f.e.sq = true →
        exec .cqDoorbell s = .next (if w.vi = 0 ∧ k = 0 then (u.feClose f st x).payOwed else u.feClose f st x))))

/-- R110, R374 to R376: roots, windows, VICTL and invalidation requests. R394, R405: DOMCTL releases the hold of a fault
domain, resumes its trapped instances, or ends them; a release leaves the tiles as they are but for the cycle from which a held
firing waits for its start (R429, log 71). -/
def Obligations.ControlRegisters : Prop :=
  (∀ (s : State), let w := s.sched.focus.wr
    s.regServed w = true →
    let root : Word := w.v &&& 0x800FFFFFFFFFF000#64
    let n := (w.off - 0x10000) / 0x400
    let at_ := (w.off - 0x10000) % 0x400
    let posts (i : Instr) (kind : Nat) : Prop := exec i s = .next (s.updVi w.vi (fun v =>
      { v with
        inv := v.inv ++ [{ kind := kind, seq := w.v.toNat % 2 ^ 32, n := v.invCount, sysc := none }]
        invCount := v.invCount + 1 }))
    exec .vsrootWrite s = .next (s.updVi w.vi (fun v => { v with vsroot := root })) ∧
    exec .hsrootWrite s = .next (s.updVi n (fun v => { v with hsroot := root })) ∧
    posts .invreqTranslation 1 ∧ posts .invreqHandle 2 ∧ posts .invreqBoth 3 ∧
    (w.off / 8 % 2 = 0 → exec .windowDescriptorWrite s =
      .next (s.updVi n (fun v => { v with winw0 := v.winw0.set (at_ / 16) w.v }))) ∧
    (w.off / 8 % 2 = 1 →
      let d : WinDesc := { w0 := (s.vi n).winw0.getD (at_ / 16) 0, w1 := w.v }
      (windowOk (s.vi n).wind (at_ / 16) d = true → exec .windowDescriptorWrite s = .next (s.updVi n (fun v =>
        { v with wind := v.wind.set (at_ / 16) d, windOld := (v.invCount, v.wind) :: v.windOld }))) ∧
      (windowOk (s.vi n).wind (at_ / 16) d = false → ∃ u, exec .windowDescriptorWrite s = .next u ∧ ∀ k, u.vi k = s.vi k)) ∧
    (∃ u, exec .victlWrite s = .next u ∧ (u.vi n).enable = w.v.getLsbD 0 ∧ (u.vi n).halt = w.v.getLsbD 1)) ∧
  (∀ (s : State), let w := s.sched.focus.wr
    s.regServed w = true →
    let d := w.v.toNat % 2 ^ 16
    (w.v.getLsbD 16 = true → w.v.getLsbD 17 = false → w.v.getLsbD 18 = false →
      ∃ u, exec .domctlRelease s = .next u ∧ (u.vi w.vi).held = (s.vi w.vi).held.filter (· != d) ∧
        (∀ t, { u.tile t with core := { u.core t with arrivals := (s.core t).arrivals } } = s.tile t ∧
          (u.core t).arrivals.map (fun a => { a with heldTo := 0 }) = (s.core t).arrivals.map (fun a => { a with heldTo := 0 })) ∧
        u.net = s.net ∧ (∀ k, u.byteAt k = s.byteAt k) ∧ ∀ v, v ≠ w.vi → u.vi v = s.vi v) ∧
    (w.v.getLsbD 16 = false → w.v.getLsbD 17 = true → w.v.getLsbD 18 = false → ∃ u, exec .domctlResume s = .next u ∧
      ∀ t n i pk p, s.places.find? pk = some p → p.vi = w.vi → p.domain = d → t ∈ p.tiles →
        (s.core t).insts.find? n = some i → i.pk = pk → i.status = .trapped →
        (u.core t).insts.find? n = some { i with status := .ready }) ∧
    (w.v.getLsbD 16 = false → w.v.getLsbD 18 = true → ∃ u, exec .domctlAbort s = .next u ∧
      ∀ t n i pk p, s.places.find? pk = some p → p.vi = w.vi → p.domain = d → t ∈ p.tiles →
        (s.core t).insts.find? n = some i → i.pk = pk → i.status = .trapped → (u.core t).insts.find? n = none))

/-- R377, R379, R381, R383, R384, R393, R398, R439, R448, R449: VI 0's device registers, with the writes that they ignore, tile
commands with what they refuse, time adjustments, the attestation leaf with the status of an exhausted key, and the firmware
control register. The model's readings among them: the entry of an attestation waits while CQ0 has no room (log 93), a TADJ step
applies and a slew is taken under every time source (log 94), clearing a bit of LNKCTL clears that of LNKSTAT (log 95), a commit
and a revert act in the canary state alone (log 96), and a tile command does its work at once, with result 1 for a tile number of
1152 or more (log 97). -/
def Obligations.DeviceRegisters : Prop :=
  ∀ (s : State), let w := s.sched.focus.wr
    s.regServed w = true →
    let t := w.v.toNat % 2 ^ 11
    let amount : Int := if w.v.toNat % 2 ^ 62 < 2 ^ 61 then w.v.toNat % 2 ^ 62 else (w.v.toNat % 2 ^ 62 : Int) - 2 ^ 62
    (w.vi = 0 → w.off = 0x4000 → exec .registerWrite s = .next
      (if 800 ≤ w.v.toNat % 2 ^ 12 ∧ w.v.toNat % 2 ^ 12 ≤ 3200 then { s with dev := { s.dev with pcap := w.v.toNat % 2 ^ 12 } }
       else s)) ∧
    (w.vi = 0 → w.off = 0x4210 → exec .registerWrite s = .next
      (if w.v.toNat % 2 ^ 16 = 0 then s else { s with dev := { s.dev with cethr := w.v.toNat % 2 ^ 16 } })) ∧
    (w.vi = 0 → w.off = 0x4300 → exec .registerWrite s = .next
      (if s.dev.vfQueue = true then s else { s with dev := { s.dev with fepol := w.v.toNat % 4 } })) ∧
    (w.vi = 0 → w.off = 0x4008 → exec .registerWrite s = .next
      (if s.dev.lnkctl = 0 then { s with dev := { s.dev with pkgid := w.v.toNat % 2 ^ 8 } } else s)) ∧
    (w.vi = 0 → w.off = 0x4020 →
      (w.v.toNat % 4 = 3 → exec .registerWrite s = .next s) ∧
      (w.v.toNat % 4 ≠ 3 → ∃ u, exec .registerWrite s = .next u ∧ { u with dev := s.dev, clk := s.clk } = s ∧
        u.clk.time = s.clk.time ∧ u.clk.cycle = s.clk.cycle ∧ u.dev.timesrc.toNat % 4 = w.v.toNat % 4 ∧
        u.dev.timesrc.toNat / 2 ^ 4 = w.v.toNat / 2 ^ 4 % 2 ^ 4)) ∧
    (∀ k, k < 4 → w.vi = 0 → w.off = 0x4040 + 8 * k → ∃ u, exec .registerWrite s = .next u ∧ { u with dev := s.dev } = s ∧
      ∀ j, u.dev.nonce.getD j 0 =
        if j / 8 = k then BitVec.ofNat 8 (w.v.toNat / 2 ^ (8 * (j % 8))) else s.dev.nonce.getD j 0) ∧
    (∀ p, p < 256 → w.vi = 0 → w.off = 0x4800 + 2 * p → exec .registerWrite s = .next
      { s with dev := { s.dev with rtbl := s.dev.rtbl.set p (BitVec.ofNat 16 w.v.toNat) } }) ∧
    (w.off = 0x18 → exec .registerWrite s =
      .next (s.updVi w.vi (fun v => { v with apbase := w.v &&& 0x01FFFFC000000000#64 }))) ∧
    exec .lnkctlWrite s = .next { s with dev := { s.dev with
      lnkctl := BitVec.ofNat 16 w.v.toNat, lnkstat := s.dev.lnkstat &&& BitVec.ofNat 16 w.v.toNat } } ∧
    (s.dev.tileBusy = true → ∀ i ∈ ([.tilecmdAdmit, .tilecmdRestart, .tilecmdWithdraw] : List Instr), exec i s = .next s) ∧
    (s.dev.tileBusy = false →
      (t < 1152 → (s.tile t).state = .spare → ∃ u, exec .tilecmdAdmit s = .next u ∧
        (u.tile t).state = .enabled ∧ u.dev.tileResult = 0 ∧ u.dev.tileBusy = true) ∧
      (1152 ≤ t ∨ (s.tile t).state ≠ .spare → ∃ u, exec .tilecmdAdmit s = .next u ∧ u.dev.tileResult = 1 ∧
        ∀ k, u.tile k = s.tile k) ∧
      (t < 1152 → (s.core t).halted = true → ∃ u, exec .tilecmdRestart s = .next u ∧ (u.core t).halted = false ∧
        u.dev.tileResult = 0) ∧
      (1152 ≤ t ∨ (s.core t).halted = false → ∃ u, exec .tilecmdRestart s = .next u ∧ u.dev.tileResult = 1 ∧
        ∀ k, u.tile k = s.tile k) ∧
      (1152 ≤ t ∨ (s.tile t).state = .defective ∨ (s.tile t).state = .withdrawn → ∃ u, exec .tilecmdWithdraw s = .next u ∧
        u.dev.tileResult = 1 ∧ ∀ k, u.tile k = s.tile k) ∧
      (t < 1152 → (s.tile t).state = .enabled ∨ (s.tile t).state = .spare → ∃ u, exec .tilecmdWithdraw s = .next u ∧
        (u.tile t).state = .withdrawn ∧ u.dev.tileResult = 0 ∧ u.dev.service = true)) ∧
    exec .tadjSlew s = .next { s with clk := { s.clk with slew := amount * 470000 } } ∧
    (amount ≤ 0 → exec .tadjStep s = .next s) ∧
    (0 < amount → ∃ u, exec .tadjStep s = .next u ∧ u.clk.time = s.clk.time + BitVec.ofInt 64 amount ∧
      u.clk.cycle = s.clk.cycle) ∧
    (s.dev.leaf < 2 ^ 20 → (∀ o ∈ s.dev.owed, o.1 = false) → ∃ u, exec .attestation s = .next u ∧
      u.dev.leaf = s.dev.leaf + 1) ∧
    (2 ^ 20 ≤ s.dev.leaf → (∀ o ∈ s.dev.owed, o.1 = false) → ∃ u result, exec .attestation s = .next u ∧
      u = s.takeFree.2.cq0Entry true 9 result ∧ u.dev.leaf = s.dev.leaf) ∧
    (s.dev.fwstate = .idle → 1 ≤ w.v.toNat % 2 ^ 32 → w.v.toNat % 2 ^ 32 ≤ 60000 →
      exec .fwctlStart s = .next { s with dev := { s.dev with fwstate := .verifying, fwreason := 0, fwctl := w.v } }) ∧
    (s.dev.fwstate = .canary → exec .fwctlCommit s = .next { s with dev := { s.dev with fwstate := .committing } } ∧
      ∃ u, exec .fwctlRevert s = .next u ∧ u.dev.fwstate = .reverted ∧ u.dev.fwreason = 6) ∧
    (s.dev.fwstate ≠ .canary → exec .fwctlCommit s = .next s ∧ exec .fwctlRevert s = .next s)

/-- R301, R377, R393, R439: what reset leaves where the spec says it: the power cap, the corrected-error threshold, the
error policy and the active complex; nothing is registered, placed or pending. That no VI is enabled (log 6) and that
every byte of memory reads zero (log 4) are the model's choices. -/
def Obligations.ResetValues : Prop :=
  State.reset.dev.pcap = 3200 ∧ State.reset.dev.cethr = 1024 ∧ State.reset.dev.fepol = 0 ∧
  State.reset.dev.activeB = false ∧ State.reset.dev.ready = false ∧ State.reset.ops.items = [] ∧
  State.reset.places.items = [] ∧ State.reset.fe = [] ∧ State.reset.net = [] ∧ (∀ v, (State.reset.vi v).enable = false) ∧
  (∀ t, (State.reset.core t).run = none) ∧ ∀ k, State.reset.byteAt k = 0

/-! ### Steps, selection, encodings, invariants -/

/-- A step runs the decoded instruction: the current word of the block in progress, or the first of the next block (R53,
R54, R166); the slot that a cell selects (R61, R62); a command in front-end execution (R305); a register write (R369);
an event of an agent. The state it runs in is the old one with the move taken from the agenda and the focus set; that
only moves on the agenda are named is the model's choice (log 1). -/
def Obligations.StepRunsInstruction : Prop :=
  ∀ (s : State) (m : Move) (rest : List Move), s.sched.agenda = m :: rest →
    let s0 : State := { s with sched := { s.sched with agenda := rest, moves := s.sched.moves + 1 } }
    (∀ t r i, m = .core t → (s.core t).run = some r → r.pos < r.len →
      decodeCore (r.reg (fld (s.currentWord t r) 18 14)).toNat (s.currentWord t r) = .ok i →
      step s = exec i (s0.focusOn t 0 0)) ∧
    (∀ t n x i, m = .core t → (s.core t).run = none → (s.core t).halted = false → s.nextInst t = some (n, x) →
      let r := s.blockAt t n x
      let u := (s0.judgeFirst t n).setRun t r
      0 < r.len → u.currentInstr t r = .ok i → step s = exec i (u.focusOn t 0 0)) ∧
    (∀ t c n i, m = .cell t c → s0.cellLive t c (s0.cellsPaused t) = true → s0.selectSlot t c = some n →
      decodeSlot (s.slotWordAt t c n) = .ok i → step s = exec i (s0.focusOn t c n)) ∧
    (∀ k f, m = .command k → s.fe[k]? = some f → f.wait = .ready →
      (∀ i, decodeEntry f.e = .ok i → step s = exec i s0) ∧
      (∀ e, decodeEntry f.e = .error e → step s = .next (s0.feBad f))) ∧
    (∀ vi port off v, m = .regWrite vi port off v →
      step s = exec (decodeRegWrite vi off v) (s0.focusWrite { vi := vi, port := port, off := off, v := v })) ∧
    (∀ i, m = .ev i → step s = exec i s0)

/-- R62: the slot a cell fires is in use and ready, no ready slot has a lower prio value, and none of equal prio a lower
index; some slot fires where some used slot is ready. R54: the instance whose block a core starts next is one that may run, the
most urgent of them, and among those of equal task priority the one that started first. -/
def Obligations.SlotSelection : Prop :=
  (∀ (s : State) (t c : Nat),
    let used (n : Nat) : Prop := n < 32 ∧ bitOf (s.slotWordAt t c n) 31 = true
    let ready (n : Nat) : Prop := used n ∧ s.slotReady (s.firingAt t c n) = true
    let prio (n : Nat) : Nat := (s.firingAt t c n).f.prio
    (∀ n, s.selectSlot t c = some n ↔
      ready n ∧ (∀ k, ready k → prio n ≤ prio k) ∧ (∀ k, ready k → prio k = prio n → n ≤ k)) ∧
    (s.selectSlot t c = none ↔ ∀ n, ¬ready n)) ∧
  ∀ (s : State) (t : Nat),
    let runs (q : Nat × Inst) : Prop := q ∈ (s.core t).insts.items ∧ q.2.status = .ready ∧ s.loadedOn t = some q.2.pk
    (∀ q, s.nextInst t = some q → runs q ∧ ∀ p, runs p →
      q.2.prio ≤ p.2.prio ∧ (p.2.prio = q.2.prio → q.2.seq ≤ p.2.seq)) ∧
    (s.nextInst t = none ↔ ∀ q, ¬runs q)

/-- R389, R390, R392 to R394: an error record has its fields where the layout puts them; it is written after the release of
the tile whose unit it names, into the queue of its VI, VI 0's for severity 3 and the device log, and one of severity 2 holds
its fault domain. A queue that is disabled or full counts the record; otherwise it takes the 64 bytes at its tail, the
sequence number and the phase go on, and its vector is signalled. The log goes over its oldest record when it is full, and
counts it. That a disabled queue counts records too is the model's reading (log 133). The clauses of bytes are for queues in
host memory. -/
def Obligations.ErrorRecords : Prop :=
  (∀ (r : ErrRec) (seq : Nat) (phase : Bool) (time : Word),
    r.vi < 2 ^ 6 → r.severity < 4 → r.unit < 2 ^ 8 → r.code < 2 ^ 8 → r.domain < 2 ^ 16 → r.tile < 2 ^ 11 → r.vtile < 2 ^ 8 →
    r.cell < 2 ^ 7 → r.slot < 2 ^ 6 → r.ctx < 4 → r.inst < 2 ^ 6 → r.lsid < 2 ^ 6 → r.count < 2 ^ 32 → r.row < 2 ^ 8 →
    ∃ w0 w1 w4 w7 : Word, r.words seq phase time = [w0, w1, r.loc, time, w4, r.place0, r.place1, w7] ∧
      let at_ (w : Word) (hi lo : Nat) : Nat := w.toNat / 2 ^ lo % 2 ^ (hi + 1 - lo)
      at_ w0 63 58 = r.vi ∧ at_ w0 57 56 = r.severity ∧ at_ w0 55 48 = r.unit ∧ at_ w0 47 40 = r.code ∧
      at_ w0 39 24 = r.domain ∧ at_ w0 23 1 = seq % 2 ^ 23 ∧ w0.getLsbD 0 = phase ∧
      at_ w1 63 53 = r.tile ∧ at_ w1 52 45 = r.vtile ∧ at_ w1 44 38 = r.cell ∧ at_ w1 37 32 = r.slot ∧ at_ w1 31 30 = r.ctx ∧
      at_ w1 29 24 = r.inst ∧ at_ w1 23 18 = r.lsid ∧ at_ w1 17 0 = 0 ∧
      at_ w4 63 32 = r.count ∧ at_ w4 31 0 = r.detail % 2 ^ 32 ∧
      at_ w7 63 32 = r.rowGroup % 2 ^ 32 ∧ at_ w7 31 24 = r.row ∧ at_ w7 23 0 = 0) ∧
  (∀ (s : State) (r : ErrRec),
    let own := (if r.unit ≤ 3 ∧ r.tile ≠ 0x7FF then s.cacheRelease r.tile else s).toErrQueue r.vi r
    let all := (if r.severity = 3 ∧ r.vi ≠ 0 then own.toErrQueue 0 r else own).toLog r
    let u := s.report r
    (r.severity ≠ 2 → u = all) ∧
    (r.severity = 2 → r.domain ∈ (u.vi r.vi).held ∧ (∀ v, v ≠ r.vi → u.vi v = all.vi v) ∧ { u with vis := all.vis } = all) ∧
    (r.severity ≠ 2 → (r.unit ≤ 3 → r.tile ≠ 0x7FF → s.stuckSectors r.tile = []) → ∀ v, (u.vi v).held = (s.vi v).held)) ∧
  (∀ (s : State) (vi : Nat) (r : ErrRec),
    let q := (s.vi vi).errq
    let u := s.toErrQueue vi r
    let a := hostKey vi (q.base + 64 * q.tail)
    let next := (q.tail + 1) % q.size
    (q.en = false ∨ next = q.head % q.size →
      u = s.updVi vi (fun v => { v with errstat := (v.errstat + 1) % 2 ^ 32 })) ∧
    (s.Inv → q.en = true → next ≠ q.head % q.size → q.inDevice = false →
      u.mem.getN a 64 = bytesOf (r.words (s.vi vi).errSeq q.phase s.clk.time) ∧
      (∀ k, k < a ∨ a + 64 ≤ k → u.byteAt k = s.byteAt k) ∧
      (u.vi vi).errq = { q with tail := next, phase := if next = 0 then !q.phase else q.phase } ∧
      (u.vi vi).errSeq = (s.vi vi).errSeq + 1 ∧ (u.vi vi).errstat = (s.vi vi).errstat ∧
      (u.vi vi).vecPend.find? q.vector = some (s.clk.cycle, q.port) ∧ ∀ v, v ≠ vi → u.vi v = s.vi v)) ∧
  (∀ (s : State) (r : ErrRec),
    let q := s.dev.logq
    let u := s.toLog r
    let a := hostKey 0 (q.base + 64 * q.tail)
    let next := (q.tail + 1) % q.size
    (q.en = false → u = s) ∧
    (s.Inv → q.en = true → q.inDevice = false →
      u.mem.getN a 64 = bytesOf (r.words s.dev.logSeq q.phase s.clk.time) ∧
      (∀ k, k < a ∨ a + 64 ≤ k → u.byteAt k = s.byteAt k) ∧ u.vis = s.vis ∧ u.dev.logSeq = s.dev.logSeq + 1 ∧
      u.dev.logq.tail = next ∧ u.dev.logq.phase = (if next = 0 then !q.phase else q.phase) ∧
      (s.dev.logCount < q.size → u.dev.logCount = s.dev.logCount + 1 ∧ u.dev.logstat = s.dev.logstat ∧
        u.dev.logq.head = q.head) ∧
      (q.size ≤ s.dev.logCount → u.dev.logCount = q.size ∧ u.dev.logstat = (s.dev.logstat + 1) % 2 ^ 32 ∧
        u.dev.logq.head = next)))

/-- Words of the spec decode to the instructions they stand for (R152, R165, R170, R237 to R245, R213, R216, R219). -/
def Obligations.DecodedWords : Prop :=
  decodeCore 0 0x01190A00 = .ok (.add 3 4 5) ∧ decodeCore 0 0x1A190A03 = .ok (.adds 3 4 5 3) ∧
  decodeCore 0 0x20213FF8 = .ok (.addi 4 4 0x3FF8) ∧ decodeCore 0 0x31286000 = .ok (.kst 5 12) ∧
  decodeCore 0 0x38228002 = .ok (.skip 2 5 2) ∧ decodeCore 0 0x3A000000 = .ok .endI ∧
  decodeCore 0 0x43190A10 = .ok (.ld 3 4 5 16) ∧ decodeCore 0 0x3B000001 = .ok (.snul 1) ∧
  decodeSlot 0x3344C42080004100 =
    .ok (.fma { srcA := 8, srcB := 19, dstA := 2, dstB := 2, tagAct := 0, trig := 0x80004100 }) ∧
  decodeSlot 0x3042D3F0831249BA =
    .ok (.fadd { srcA := 8, srcB := 11, dstA := 9, dstB := 31, tagAct := 0, trig := 0x831249BA }) ∧
  decodeSlot 0x1A2143F080000000 =
    .ok (.sel 2 { srcA := 4, srcB := 5, dstA := 1, dstB := 31, tagAct := 0, trig := 0x80000000 }) ∧
  decodeSlot 0x900905F080000000 =
    .ok (.ldsI { srcA := 1, srcB := 4, dstA := 2, dstB := 31, tagAct := 0, trig := 0x80000000 }) ∧
  decodeSlot 0x990899F080000000 =
    .ok (.updTas { srcA := 1, srcB := 2, dstA := 12, dstB := 31, tagAct := 0, trig := 0x80000000 })

/-- Decode and encode agree: every well-formed tile-core word and every well-formed cell slot decodes from its encoding
to itself, with every operand. -/
def Obligations.EncodingsRoundTrip : Prop :=
  ∀ i, Laws.RoundTrip.Statement i

/-- Every step keeps memory in its one canonical form, whatever move it makes. -/
def Obligations.StepKeepsForm : Prop :=
  ∀ s s' : State, step s = .next s' → s.Inv → s'.Inv

/-- The memory of the reset state is in canonical form. -/
def Obligations.ResetKeepsForm : Prop :=
  State.reset.Inv

/-! ### Hampers, regions, instances -/

/-- R40 to R48, R250, R426, R428, R455: records enter a hamper or wait for room; a tile closes when it is full, when its
timeout has expired or when a record of another generation comes; a record of another generation that comes in the cycle in
which a tile has closed is one of that tile's causes too (R45); a closed tile fires on a free set in every tile of its operator,
whose uniform registers k0 to k8 tell the firing; a record for a route tag starts a set of its own; in the cycle in which a
rotation slot of the operator begins, no record comes to its hamper (R45). Which tile slot a new tile takes is the model's choice
(log 9), as is which one a record for a route tag lies in (log 11). That a tile which has to close for a record stays open in a
cycle in which it took one (log 145), that detail bit 0 of the starved record says that the region has not loaded the operator
(log 132), and that a record is on its way for a cycle at least (log 10), are its readings. -/
def Obligations.HamperEvents : Prop :=
  ∀ (s : State) (pk : Nat) (p : Placement), s.places.find? pk = some p →
    let h (u : State) : Option Hamper := (u.places.find? pk).map (·.hamper)
    let c := s.hamperCtx pk p
    (∀ (r : Rec), p.hamper.waiting < 256 → (∀ g ∈ p.hamper.groups, g.seqSlot ≠ r.r.seqSlot) → r.grp = none →
      let r1 : Rec := { r with at_ := s.clk.cycle }
      let gains (x : Hamper) : Prop := ∃ u, s.enterHamper pk r = some u ∧ u.net = s.net ∧ u.mem = s.mem ∧
        h u = some { x with stage := if r.out = true then p.hamper.stage else some r.r.stage }
      let closed := p.hamper.closed.map (fun x =>
        if x.at_ = s.clk.cycle ∧ x.rows.any (fun q => decide (q.at_ < s.clk.cycle)) = true ∧ x.gen ≠ r.r.wgen then
          { x with cause := x.cause ||| 8 }
        else x)
      (r.r.kind ≠ 2 → ∀ f, p.hamper.forming = some f → f.gen = r.r.wgen → c.due f = false →
        (f.rows.length + 1 < c.par.height →
          gains { p.hamper with forming := some { f with rows := insertRow r1 f.rows }, closed := closed }) ∧
        (f.rows.length + 1 = c.par.height → c.due { f with rows := insertRow r1 f.rows } = false →
          gains { p.hamper with
            forming := none
            closed := closed ++
              [{ rows := insertRow r1 f.rows, cause := 1, at_ := s.clk.cycle, tileSlot := f.tileSlot }] })) ∧
      (r.r.kind ≠ 2 → 1 < c.par.height → ∀ j, c.free p.hamper = some j →
        (p.hamper.forming = none →
          gains { p.hamper with forming := some { rows := [r1], tileSlot := j }, closed := closed }) ∧
        (∀ f, p.hamper.forming = some f → f.rows.length < c.par.height → f.gen ≠ r.r.wgen ∨ c.due f = true →
          (∀ q ∈ f.rows, q.at_ ≠ s.clk.cycle) → gains { p.hamper with
            forming := some { rows := [r1], tileSlot := j }
            closed := closed ++
              [{ rows := f.rows, cause := (if f.gen = r.r.wgen then 0 else 8) ||| (if c.due f = true then 2 else 0),
                 at_ := s.clk.cycle, tileSlot := f.tileSlot }] })) ∧
      (r.r.kind ≠ 2 → ∀ f, p.hamper.forming = some f → f.gen ≠ r.r.wgen ∨ c.due f = true →
        (∃ q ∈ f.rows, q.at_ = s.clk.cycle) → s.enterHamper pk r = none) ∧
      (r.r.kind = 2 → 2 ≤ r.r.draftCount → ∀ j, c.free p.hamper = some j →
        gains { p.hamper with groups := p.hamper.groups ++
          [{ id := s.sched.ids, seqSlot := r.r.seqSlot, count := r.r.draftCount,
             recs := [{ r1 with grp := some s.sched.ids, idx := 0 }], tileSlot := j }] })) ∧
    (∀ idx n, s.net[idx]? = some n → n.dest = .hamper pk → s.netFirst idx n = true →
      n.body.out = true ∨ n.body.born < s.clk.cycle → s.slotBegan pk p = false →
      let out : State := { s with net := s.net.eraseIdx idx }
      (s.tooLong p n.body = true → exec (.hamperRecordArrival idx) s = .next (out.ejectLong p n.body)) ∧
      (s.tooLong p n.body = false →
        (∀ u, p.hamper.net = [] → out.enterHamper pk n.body = some u → exec (.hamperRecordArrival idx) s = .next u) ∧
        (p.hamper.net ≠ [] ∨ 256 ≤ p.hamper.waiting → exec (.hamperRecordArrival idx) s =
          .next (out.updHamper pk (fun x => { x with net := x.net ++ [n.body] }))))) ∧
    ((s.rots.getD p.die {}).active = some pk → (s.rots.getD p.die {}).began = s.clk.cycle →
      (∀ idx n, s.net[idx]? = some n → n.dest = .hamper pk → exec (.hamperRecordArrival idx) s = .next s) ∧
      exec (.hamperAdmit pk) s = .next s) ∧
    (∀ r rest, p.hamper.net = r :: rest → s.slotBegan pk p = false →
      let out := s.updHamper pk (fun x => { x with net := rest })
      (∀ u, out.enterHamper pk r = some u → exec (.hamperAdmit pk) s = .next u) ∧
      (out.enterHamper pk r = none → exec (.hamperAdmit pk) s = .next s)) ∧
    (∀ f, p.hamper.forming = some f →
      let late := f.rows.filter (f.late s.clk.cycle)
      let old := f.rows.filter (fun q => !f.late s.clk.cycle q)
      let closed := p.hamper.closed ++ [{ rows := old, cause := 2, at_ := s.clk.cycle, tileSlot := f.tileSlot }]
      (c.due f = true → old ≠ [] →
        (late = [] → ∃ u, exec (.hamperTimeout pk) s = .next u ∧ u.mem = s.mem ∧ u.net = s.net ∧
          h u = some { p.hamper with forming := none, closed := closed }) ∧
        (late ≠ [] → ∀ j, c.free p.hamper = some j →
          ∃ u, exec (.hamperTimeout pk) s = .next u ∧ u.mem = s.mem ∧ u.net = s.net ∧
            h u = some { p.hamper with forming := some { rows := late, tileSlot := j }, closed := closed })) ∧
      (c.due f = false → exec (.hamperTimeout pk) s = .next s)) ∧
    (∀ q g, p.hamper.groups.find? (fun g => g.seqSlot == q) = some g →
      let opened := (g.recs.head?.map (·.at_)).getD 0
      (opened + usCycles c.par.timeout ≤ s.clk.cycle → s.slotBegan pk p = false → ∀ x, c.endGroup p.hamper g = some x →
        ∃ u, exec (.draftGroupTimeout pk q) s = .next u ∧ h u = some x ∧ u.net = s.net) ∧
      (s.clk.cycle < opened + usCycles c.par.timeout → exec (.draftGroupTimeout pk q) s = .next s)) ∧
    (∀ idx x, p.hamper.closed[idx]? = some x →
      (x.noted = false → x.at_ + usCycles 65536 ≤ s.clk.cycle →
        ∃ d v, exec (.hamperStarved pk idx) s = .next v ∧
          v = (s.updHamper pk (fun y => { y with closed := p.hamper.closed.set idx { x with noted := true } })).report
            ((s.updHamper pk (fun y => { y with closed := p.hamper.closed.set idx { x with noted := true } })).tileRec
              p.anchor pk { severity := 0, unit := 11, code := 3, detail := d }) ∧
          (d.testBit 0 = true ↔ (s.region (keyAnchor pk)).loaded ≠ some pk) ∧
          (d.testBit 1 = true ↔ p.domain ∈ (s.vi p.vi).held) ∧
          (d.testBit 2 = true ↔ s.freeSetOf p.tiles = none ∨ s.setsSpent pk p p.tiles = true) ∧
          (d.testBit 3 = true ↔ (s.parOf p).binding = 1 ∧ x.reached = false)) ∧
      (x.noted = true ∨ s.clk.cycle < x.at_ + usCycles 65536 → exec (.hamperStarved pk idx) s = .next s)) ∧
    (∀ x rest set, p.hamper.closed = x :: rest → s.freeSetOf p.tiles = some set → (s.parOf p).binding ≠ 1 →
      s.mayFire pk p = true → x.rows ≠ [] → x.rows.length ≤ 64 → p.tiles.Nodup → p.tiles.contains p.anchor = true →
      (∀ q ∈ x.rows, q.r.kind ≠ 2) → s.bad = [] →
      let base := s.slotBase p x.tileSlot
      ∃ u id, exec (.hamperFire pk) s = .next u ∧
        h u = some { p.hamper with closed := rest, nextRg := (p.hamper.nextRg + 1) % 2 ^ 32, fires := p.hamper.fires + 1 } ∧
        (∃ g, u.rgs.find? id = some g ∧ g.pk = pk ∧ g.set = set ∧ g.tiles = p.tiles ∧ g.gone = 0 ∧
          ∀ i, i < 64 → g.rows.getLsbD i = decide (i < x.rows.length)) ∧
        (∀ t ∈ p.tiles, (u.core t).sets.find? set = some id ∧
          (u.core t).arrivals = (s.core t).arrivals ++
            [{ tag := (s.parOf p).fireTag, kind := 0, msg := wd p.hamper.nextRg, src := p.anchor, detail := 0,
               set := setRef id set, cycle := s.clk.cycle, closeAt := some x.at_ }] ∧
          (∀ i v, [wd p.hamper.nextRg, wd x.rows.length, wd (2 ^ x.rows.length - 1),
              if t = p.anchor then ownTileAddr base else 0, if t = p.anchor then ownTileAddr (base + 8192) else 0,
              wd x.cause, wd ((x.rows.head?.map (·.r.wgen)).getD 0), s.clk.time, 0][i]? = some v →
            ((u.core t).k.getD (setRef id set) {}).getD i 0 = v)) ∧
        (∀ t, t ∉ p.tiles → u.tile t = s.tile t) ∧
        ((∀ q ∈ x.rows, q.pay.length ≤ 64 * (s.parOf p).payload) → ∀ k,
          k < tileKey p.anchor base ∨ tileKey p.anchor base + slotBytes (s.parOf p).payload ≤ k → u.byteAt k = s.byteAt k)) ∧
    (∀ idx n t tag set j, s.net[idx]? = some n → n.dest = .tag t tag pk → s.netFirst idx n = true →
      n.body.out = true ∨ n.body.born < s.clk.cycle → s.tooLong p n.body = false → s.freeSetOf [t] = some set → s.tagPlace pk p = some j →
      s.setsSpent pk p [t] = false →
      s.sendsHeld t (fun a => a.kind == 1 && a.src == n.src) = false →
      ∃ u id, exec (.routeTagDelivery idx) s = .next u ∧ u.net = s.net.eraseIdx idx ∧
        (u.core t).sets.find? set = some id ∧ (u.rgs.find? id).map (fun g => (g.pk, g.rows, g.tiles)) = some (pk, 1, [t]) ∧
        (u.core t).arrivals = (s.core t).arrivals ++
          [{ tag := tag, kind := 1, msg := p.anchorAddr t (s.slotBase p j), src := n.src, detail := 0, set := setRef id set,
             cycle := s.clk.cycle }]) ∧
    (∀ idx n t tag, s.net[idx]? = some n → n.dest = .tag t tag pk → s.tooLong p n.body = false →
      s.freeSetOf [t] = none ∨ s.tagPlace pk p = none → exec (.routeTagDelivery idx) s = .next s)

/-- R117, R261, R316 to R323, R343, R429: a free region loads the operator that has the best claim; a pre-emption loads
the class 0 operator that asks for it, or drains the loaded one, in the region of the die whose turn it is; the weight
rotation opens a slot and gives its tokens; a configuration load and a bank transition end with their arrival, and a FIFO
bank waits for the rings and the arrays in it. Whether a save area holds an operator's state is free (log 52), and so
is how the tokens and the planes of a slot come from the bytes of the weights (log 50). That a bank's transition waits while an
earlier arrival of its tile stands outside a full arrival store (log 79), that the arrivals of a CFGL and of a CFGBANK have their
own tile for their source (log 40), which closed tile a pre-emption serves (log 141), and that the configuration loads of an operator
end before it leaves its region (log 142) are the model's readings. -/
def Obligations.RegionEvents : Prop :=
  ∀ (s : State) (anchor : Nat),
    let ops := s.regionOps anchor
    (s.regionFree anchor = false → exec (.schedulerEvaluation anchor) s = .next s) ∧
    (s.regionFree anchor = true → (s.region anchor).draining = none → s.rotationTurn (anchor / 144) = none →
      ((∀ q ∈ ops, s.candidate anchor q = false) → exec (.schedulerEvaluation anchor) s = .next s) ∧
      ((∃ q ∈ ops, s.candidate anchor q = true) → ∃ u q, exec (.schedulerEvaluation anchor) s = .next u ∧ q ∈ ops ∧
        s.candidate anchor q = true ∧ (∀ x ∈ ops, s.candidate anchor x = true → s.score anchor x ≤ s.score anchor q) ∧
        (u.region anchor).loaded = some q.1)) ∧
    (s.regionFree anchor = true → (s.region anchor).draining = none → ∀ q, s.rotationTurn (anchor / 144) = some q →
      keyAnchor q.1 = anchor → s.isHeld q.2 = false → s.preempts anchor = false →
      ∃ u, exec (.schedulerEvaluation anchor) s = .next u ∧ (u.region anchor).loaded = some q.1) ∧
    (∀ pk out q, (s.region anchor).loaded = some pk → s.places.find? pk = some out → s.preemptFor anchor = some q →
      q.1 ≠ pk →
      let live : Prop := s.liveGroups pk ≠ [] ∨ s.instancesOf pk out ≠ 0 ∨ s.fabricBusy pk = true
      (out.cls < 2 ∨ s.preemptFirst anchor = false → exec (.preemption anchor) s = .next s) ∧
      (2 ≤ out.cls → (s.region anchor).draining = none → s.preemptFirst anchor = true →
        (¬live → ∃ u, exec (.preemption anchor) s = .next u ∧ (u.region anchor).loaded = some q.1) ∧
        (live → out.save = 0 → ∃ u, exec (.preemption anchor) s = .next u ∧ (u.region anchor).loaded = some pk ∧
          (u.region anchor).draining = some pk ∧ u.tiles = s.tiles) ∧
        (live → out.save ≠ 0 → ∃ u, exec (.preemption anchor) s = .next u ∧
          ((u.region anchor).draining = some pk ∨
            ((u.region anchor).loaded = some q.1 ∧ ((u.region anchor).evicted.find? pk).isSome = true))))) ∧
    (∀ die pk p x rest e s1, let g := (x.rows.head?.map (·.r.wgen)).getD 0
      (s.rots.getD die {}).active = none → s.rotationTurn die = some (pk, p) → s.places.find? pk = some p →
      (s.region (keyAnchor pk)).loaded = some pk → p.hamper.forming = none → p.hamper.closed = x :: rest →
      (∀ q ∈ p.hamper.closed, q.at_ ≠ s.clk.cycle) → s.deref (p.weightHandle g) 1 false p.vi = (.ready e, s1) →
      let s2 := s1.noteWeights p (p.weightHandle g)
      exec (.rotationSlot die) s = .next (State.boardTiles { s2 with
        rots := s2.rots.set die { turn := some p.order, active := some pk, gen := g, fed := 0, began := s2.clk.cycle } } pk g)) ∧
    (∀ die pk p e s1, let r := s.rots.getD die {}
      r.active = some pk → s.places.find? pk = some p → (s.region (keyAnchor pk)).loaded = some pk →
      s.deref (p.weightHandle r.gen) 1 false p.vi = (.ready e, s1) → p.northCells.Nodup →
      (∀ c ∈ p.northCells, s.cellsPaused c.1 = false ∧ ((s.cellAt c.1 c.2).xin.getD 0 []).length < 4) →
      ∃ u, exec (.rotationSliceDelivery die) s = .next u ∧
        (∀ c ∈ p.northCells, ∃ k : Token, k.tag = 3 ∧ k.valid = 0xFF ∧ k.scale = (r.fed % 33 == 0) ∧
          (u.cellAt c.1 c.2).xin.getD 0 [] = (s.cellAt c.1 c.2).xin.getD 0 [] ++ [k]) ∧
        ((u.rots.getD die {}).fed = r.fed + 1 ∨ (u.rots.getD die {}).active = none)) ∧
    (∀ t c p im, (s.tile t).cfgl = some c → s.places.find? c.pk = some p → s.imageOf p = some im →
      s.sendsHeld t (fun a => a.kind == 10 && a.detail == 0) = false →
      ∃ u, exec (.cfglComplete t) s = .next u ∧ (u.tile t).cfgl = (s.tile t).cfglWait.head? ∧ (u.tile t).owners = {} ∧
        ((u.tile t).oprAt (keySlot c.pk)).eq = {} ∧
        (∃ m, (u.core t).arrivals = (s.core t).arrivals ++
            [{ tag := c.tag, kind := 10, msg := m, src := t, detail := 0, set := c.set, cycle := s.clk.cycle }] ∧
          (im.bad = true → m = 2) ∧ (im.bad = false → c.data = false → m = 0)) ∧
        ∀ k, k < 64 → (u.cellAt t k).active = c.active ∧
          ∀ n, n < 4 → im.bad = false → bitOf c.mask n = true →
            let x := (im.ctxs.find? (((p.vtOf t).getD 0 * 64 + k) * 4 + n)).getD {}
            let y := (u.cellAt t k).ctxs.getD n {}
            y.slots = x.slots ∧ y.lits = x.lits ∧ y.r0 = x.r0 ∧ y.r1 = x.r1 ∧ y.owner = some c.pk) ∧
    (∀ t b r, ((s.tile t).bank b).trans = some r →
      let m := ((s.tile t).bank b).mode
      let held := s.sendsHeld t (fun a => a.kind == 10 && a.detail == 1)
      (s.clk.cycle < r.ready ∨ held = true → exec (.bankTransitionComplete t b) s = .next s) ∧
      (r.ready ≤ s.clk.cycle → m = .fifo → m ≠ r.target → s.ringsHold t b = true ∨ s.arraysHold t b = true →
        exec (.bankTransitionComplete t b) s = .next s) ∧
      (r.ready ≤ s.clk.cycle → held = false → (m = r.target ∨ m = .scratch ∨ (m = .fifo ∧ s.ringsHold t b = false ∧ s.arraysHold t b = false ∧ s.queuesHold t r.pk = false) ∨
          (m = .cache ∧ s.stuckSectors t = [])) →
        ∃ u, exec (.bankTransitionComplete t b) s = .next u ∧ (u.tile t).bank b = { mode := r.target, trans := none } ∧
          (u.core t).arrivals = (s.core t).arrivals ++
            [{ tag := r.tag, kind := 10, msg := 0, src := t, detail := 1, set := r.set, cycle := s.clk.cycle }] ∧
          ∀ k, u.byteAt k = if m ≠ r.target ∧ tileKey t (b * 0x20000) ≤ k ∧ k < tileKey t (b * 0x20000) + 0x20000
            then 0 else s.byteAt k))

/-- R51, R52, R56, R232, R266, R268, R327, R385: an instance starts with the oldest arrival of its tag, its message in g1, its
source in g2 and its set's index in g3, or 0xFF once the set has been freed, when the arrival stands in the arrival store of
256 entries, and none starts while the tag is blocked; a THOLD whose time has come raises its arrival; a SYSC is answered;
both wait behind an arrival of their own outside a full arrival store (log 79). Which free instance slot is taken is free (log
54), and that a THOLD's arrival has its own tile for its source is the model's reading (log 40). -/
def Obligations.InstanceEvents : Prop :=
  ∀ (s : State) (t : Nat),
    let c := s.core t
    (∀ tag, c.blocked.getLsbD tag = true → exec (.taskLaunch t tag) s = .next s) ∧
    (∀ tag a i pk p im prio block, c.arrivals[i]? = some a → a.tag = tag →
      (∀ j b, j < i → c.arrivals[j]? = some b → b.tag ≠ tag) → s.tagOwner t tag = some pk → s.places.find? pk = some p →
      s.imageOf p = some im → im.task ((p.vtOf t).getD 0) tag = some (prio, block) → c.halted = false →
      c.blocked.getLsbD tag = false → (∃ n, n < 32 ∧ c.insts.find? n = none) → s.mayStart t pk p a = true →
      (256 ≤ (s.storeFill t (c.arrivals.take i)).1 → exec (.taskLaunch t tag) s = .next s) ∧
      (i < 192 ∨ s.inStore t i a = true → ∃ u n x, exec (.taskLaunch t tag) s = .next u ∧ n < 32 ∧ c.insts.find? n = none ∧ (u.core t).insts.find? n = some x ∧
        (∀ m, m ≠ n → (u.core t).insts.find? m = c.insts.find? m) ∧ (u.core t).arrivals = c.arrivals.eraseIdx i ∧
        (u.core t).seq = c.seq + 1 ∧ x.pk = pk ∧ x.tag = tag ∧
        x.set = (if (s.setGroup a.set).isSome = true then a.set else 255) ∧ x.prio = prio ∧ x.seq = c.seq ∧
        x.block = block ∧ x.status = .ready ∧
        ∀ k, x.g.getD k 0 = if k = 1 then a.msg else if k = 2 then srcWord a.kind a.src a.detail
          else if k = 3 then wd (x.set % 256) else 0)) ∧
    (∀ idx x, c.tholds[idx]? = some x →
      let held := s.sendsHeld t (fun a => a.kind == 8 && a.tag == x.tag)
      (x.time.toNat ≤ s.clk.time.toNat → held = false → ∃ u, exec (.tholdExpiry t idx) s = .next u ∧ OnlyTile t s u ∧
        (u.core t).tholds = c.tholds.eraseIdx idx ∧ (u.core t).arrivals = c.arrivals ++
          [{ tag := x.tag, kind := 8, msg := s.clk.time, src := t, detail := 0, set := x.set, cycle := s.clk.cycle }]) ∧
      (s.clk.time.toNat < x.time.toNat ∨ held = true → exec (.tholdExpiry t idx) s = .next s)) ∧
    (∀ idx q, s.syscs[idx]? = some q → (s.places.find? q.pk).isSome = true →
      let out : State := { s with syscs := s.syscs.eraseIdx idx }
      let held := s.sendsHeld q.tile (fun a => a.kind == 9 && a.tag == q.tag)
      let answers (v : Word) : Prop :=
        (held = false → exec (.syscReply idx) s = .next (out.arrive q.tile q.tag 9 v 0xFFF q.code q.set)) ∧
        (held = true → exec (.syscReply idx) s = .next s)
      (q.code = 3 → answers s.devstat) ∧
      (q.code = 4 → let d := (s.vi (s.viOf q.pk)).wind.getD (q.val.toNat % 16) {}
        answers (if q.val.getLsbD 4 = true then d.w1 else d.w0)) ∧
      (q.code = 0 ∨ 4 < q.code → answers 0xFFFFFFFFFFFFFFFF#64) ∧
      (q.code = 1 ∨ q.code = 2 → exec (.syscReply idx) s = .next (out.updVi (s.viOf q.pk) (fun v =>
        { v with
          inv := v.inv ++ [{ kind := q.code, seq := q.val.toNat % 2 ^ 32, n := v.invCount, sysc := some q }]
          invCount := v.invCount + 1 }))))

/-! ### Cells, streams and commands on their own -/

/-- R58, R63, R90, R121, R122, R139, R216 to R219, R222, R229, R402, R407, R408, R419, R421: scale latches, systolic beats and
those that a trap suppresses, owner updates, ordering tokens, ring refills, sweeps, loop releases and the stall records: of a
region, at its lowest-numbered cell of its lowest-numbered virtual tile that holds a token, where the list of an operator's tiles
goes by virtual tile number. That an ordering token takes its place in the destination when it goes out, in the order of its cell's
ordering tokens, is the model's reading (log 66), as are that a halted cell's latch takes a scale (log 64), that an update whose
bank has left its mode traps the owner with 0x12 (log 147), and that the end of a loop body waits while an earlier arrival of it
stands outside a full arrival store (log 79) and has its own tile for its source (log 40). -/
def Obligations.CellEvents : Prop :=
  ∀ (s : State) (t c : Nat),
    let x := s.cellAt t c
    (∀ v k, s.head t c v = some k → k.scale = true → x.trapped = false → (s.tile t).cfgl = none →
      (s.loadedOn t).isSome = true → s.cellsPaused t = false → x.bindAt ≤ s.clk.cycle →
      (x.ctx.bindA = some v → exec (.scaleLatch t c 0) s = .next (((s.popHead t c v).updCell t c
        (fun x => { x with latA := k.lanes })).noteMove t)) ∧
      (x.ctx.bindB = some v → exec (.scaleLatch t c 1) s = .next (((s.popHead t c v).updCell t c
        (fun x => { x with latB := k.lanes })).noteMove t))) ∧
    (∀ d north, x.sys = some d → x.trapped = false → x.halted = false → (s.tile t).cfgl = none →
      (s.loadedOn t).isSome = true → s.cellsPaused t = false → x.sysNext ≤ s.clk.cycle → x.bindAt ≤ s.clk.cycle →
      4 ≤ (x.xin.getD 3 []).length → (s.slotHead t c 11).isSome = true →
      s.beatNorth t c (d.getLsbD 36) = some north →
      let fwd := d.getLsbD 35
      let beat := (x.xin.getD 3 []).take 4
      (s.room t c 2 = 0 → exec (.systolicBeat t c) s = .next (s.noteRing t c 2)) ∧
      (s.room t c 2 ≠ 0 → fwd = true → s.room t c 1 < 4 → exec (.systolicBeat t c) s = .next (s.noteRing t c 1)) ∧
      (s.room t c 2 ≠ 0 → (fwd = true → 4 ≤ s.room t c 1) →
        let on (n : Nat) : Prop := n < 8 ∧ d.getLsbD (24 + n) = true ∧ ∀ k, north = some k → k.valid.getLsbD n = true
        ∀ m : BitVec 8, (∀ n, m.getLsbD n = true ↔ on n) →
          ((∃ n, on n ∧ (beatOut x beat north n).2 &&& x.ctx.trapEn ≠ 0) → ∃ fl : BitVec 5,
            (∀ b, fl.getLsbD b = true ↔ ∃ n, on n ∧ (beatOut x beat north n).2.getLsbD b = true) ∧
            exec (.systolicBeat t c) s = .next ((s.cellRecord t c 0x3F 1 0x08 (m.toNat * 2 ^ 24 + fl.toNat) 0).updCell t c
              (fun x => { x with trapped := true }))) ∧
          ((∀ n, on n → (beatOut x beat north n).2 &&& x.ctx.trapEn = 0) →
          ∃ u, exec (.systolicBeat t c) s = .next (((if fwd = true then
              beat.foldl (fun u b => u.pushOut t c 1 b) (u.pushOut t c 2 (mkToken (fun n => (beatOut x beat north n).1) m
                (match north with | some k => k.tag | none => 0) false))
            else u.pushOut t c 2 (mkToken (fun n => (beatOut x beat north n).1) m
                (match north with | some k => k.tag | none => 0) false))).noteMove t) ∧
            OnlyCell t c s u ∧ (u.cellAt t c).xin.getD 3 [] = (x.xin.getD 3 []).drop 4 ∧
            (u.cellAt t c).sysNext = s.clk.cycle + 2 ^ (d.toNat / 2 ^ 37 % 4) ∧
            ∀ n, on n → (u.cellAt t c).flags.getD n 0 = x.flags.getD n 0 ||| (beatOut x beat north n).2))) ∧
    (∀ u rest, s.Inv → x.port = u :: rest → x.portStuck = false → s.cellsPaused t = false → x.ownerNext ≤ s.clk.cycle →
      let n := if u.op = .fadd then 8 else 4
      let a := tileKey t u.addr
      let old := s.readWord (keysFrom a n)
      let b := u.val.toNat % 2 ^ 32
      let int (k : Nat) : Int := if k < 2 ^ 31 then k else (k : Int) - 2 ^ 32
      let reached : Prop := ∀ i, i < n → s.windowByteOk t (u.addr + i) = true
      let traps (code : Nat) : Prop := ∃ v, exec (.ownerUpdateApply t c) s = .next v ∧
        v = (s.cellRecord t c 0x3F 1 code 0 (ownTileAddr u.addr)).updCell t c
          (fun x => { x with trapped := true, portStuck := true }) ∧ (v.cellAt t c).port = x.port
      (reached → s.badRead (keysFrom a n) = false → ∃ v, exec (.ownerUpdateApply t c) s = .next v ∧
        v.readWord (keysFrom a n) = (match u.op with
          | .add => (old + b) % 2 ^ 32
          | .fadd => (fadd .rne (BitVec.ofNat 40 old) u.val).1.toNat
          | .min => if int b < int old then b else old
          | .max => if int old < int b then b else old
          | .or => old ||| b
          | .tas => old ||| 2 ^ (b % 32)) ∧
        (∀ k, k < a ∨ a + n ≤ k → v.byteAt k = s.byteAt k) ∧ (v.cellAt t c).port = rest ∧ (∀ k, v.core k = s.core k)) ∧
      (reached → s.badRead (keysFrom a n) = true → traps 0x1D) ∧ (¬reached → traps 0x12)) ∧
    (∀ idx p, x.pendOrdt[idx]? = some p →
      ((∃ w ∈ p.waits, x.openMemory.contains w = true) ∨ s.cellsPaused t = true →
        exec (.orderingTokenEmit t c idx) s = .next s) ∧
      (s.cellsPaused t = false → (∀ w ∈ p.waits, x.openMemory.contains w = false) → (∀ j q, j < idx → x.pendOrdt[j]? = some q → ∀ d ∈ q.dsts, d ≠ 31 → d ∉ p.dsts) →
        let out := s.updCell t c (fun x => { x with pendOrdt := x.pendOrdt.eraseIdx idx })
        (∀ d ∈ p.dsts, 8 ≤ d → d ≤ 11 → out.room t c (d - 8) ≠ 0) → exec (.orderingTokenEmit t c idx) s =
          .next ((p.dsts.foldl (fun u d => u.deliver t c d (mkToken (fun _ => 0) 0 p.tag false)) out).noteMove t))) ∧
    (∀ d k rest, x.ring.getD d [] = k :: rest → s.link t c d ≠ .closed → s.heldOut t c d = false →
      (s.outQueue t c d).length < 4 → s.badRead (k.keys t) = false → ∃ u, exec (.spillRingRefill t c d) s =
        .next ((u.intoChannel t c d (tokenOfSlot (s.readKeys (k.keys t)))).noteMove t) ∧ OnlyCell t c s u ∧
        u.cellAt t c = { x with ring := x.ring.set d rest }) ∧
    (∀ k : Token, tokenOfSlot k.slotBytes = k ∧ k.slotBytes.length = 64) ∧
    (∀ w, s.sweepDue t c = some w →
      (w.carry = true ∨ x.undrained s.clk.cycle = 0 → (s.tile t).cfgl = none → s.cellsPaused t = false →
        exec (.cellSwitch t c) s = .next (s.updCell t c (fun x => { x with
          active := w.ctx
          sweepDone := x.sweepDone + 1
          switchedAt := s.clk.cycle
          switches := x.switches.set x.sweepDone s.clk.cycle
          trapped := false
          halted := false
          drainNoted := false }))) ∧
      (w.carry = false → x.undrained s.clk.cycle ≠ 0 → exec (.cellSwitch t c) s = .next s) ∧
      (w.carry = false → x.undrained s.clk.cycle ≠ 0 → x.drainNoted = false → s.sweepFrom t c ≠ [] →
        (∀ y ∈ s.sweepFrom t c, y.switchFor x.sweepDone + 65536 ≤ s.clk.cycle) → exec (.drainStall t c) s = .next
          ((s.updCell t c (fun x => { x with drainNoted := true })).cellRecord t c 0x3F 0 0x09
            (x.undrained s.clk.cycle) 0))) ∧
    (∀ slot body b, ((s.tile t).oprAt slot).lcu.find? body = some b → b.running = true →
      (∀ k, k < 64 → b.mask.getLsbD k = true → b.released ≤ b.done.getD k 0) → (s.loadedOn t).map keySlot = some slot →
      s.lcuRoom t body = true → s.cellsPaused t = false →
      let put (b' : LcuBody) : State := s.updOpr t slot (fun o => { o with lcu := o.lcu.set body b' })
      (b.released < b.count → exec (.lcuRelease t slot body) s =
        .next (((put { b with released := b.released + 1 }).lcuRelease t body true).noteMove t)) ∧
      (b.count ≤ b.released → s.sendsHeld t (fun a => a.kind == 6 && a.tag == b.tag && a.detail == body) = false →
        exec (.lcuRelease t slot body) s =
        .next ((((put { b with running := false }).lcuRelease t body false).noteMove t).arrive t b.tag 6 (wd body) t body b.set))) ∧
    (∀ anchor pk p, (s.region anchor).loaded = some pk → s.places.find? pk = some p → (s.region anchor).stallNoted = false →
      (s.region anchor).lastMove + 2 ^ 20 ≤ s.clk.cycle →
      (∀ i v k : Nat, p.tiles[i]? = some v → k < 64 → (s.cellAt v k).holdsToken = true →
        (∀ n, n < k → (s.cellAt v n).holdsToken = false) →
        (∀ j w : Nat, j < i → p.tiles[j]? = some w → ∀ n, n < 64 → (s.cellAt w n).holdsToken = false) →
        exec (.regionStall anchor) s =
          .next ((s.updRegion anchor (fun r => { r with stallNoted := true })).cellRecord v k 0x3F 0 0x0A 0 0)) ∧
      ((∀ v ∈ p.tiles, ∀ k, k < 64 → (s.cellAt v k).holdsToken = false) → exec (.regionStall anchor) s = .next s))

/-- R128, R129, R251 to R260, R417: the head of an address generator's queue starts after its handoff pop; it moves one
token, element group or block at a time; it completes with its handoff push, its status and its done action; a held
code-table operation is applied once no older stream is left; a stall on an absent page ends with code 0x1F, unless the page
was published in time. A stream of an operator that is switched out works on the cells that its eviction saved or that it left
behind (the model's reading, log 68), one whose cells are paused waits (R282), a sender of a full arrival store starts none
(log 79), and the arrival of a completion has its own tile for its source (log 40). -/
def Obligations.StreamEvents : Prop :=
  ∀ (s : State) (t a : Nat),
    let g := (s.tile t).ag a
    let seen (pk : Nat) : State := match (s.region (keyAnchor pk)).away pk with
      | none => s
      | some sv => s.updTile t (fun x => { x with cells := sv.cells.getD t {} })
    (s.agHeld t a = true → exec (.streamStart t a) s = .next s) ∧
    (∀ x rest, g.run = none → g.queue = .stream x :: rest → s.streamHere t x = true → x.hfPop = false → s.agHeld t a = false →
      (x.direct = true ∨ (seen x.pk).positionsOk t a x = true → x.space ≠ 1 → ∃ u, exec (.streamStart t a) s = .next u ∧
        ((u.tile t).ag a).run = some { s := x } ∧ ((u.tile t).ag a).queue = rest ∧ (u.tile t).cells = (s.tile t).cells ∧
        (∀ b, b ≠ a → (u.tile t).ag b = (s.tile t).ag b) ∧ ∀ k, u.byteAt k = s.byteAt k) ∧
      (x.direct = false → (seen x.pk).positionsOk t a x = false → ∃ u, exec (.streamStart t a) s = .next u ∧
        ((u.tile t).ag a).run = some { ({ s := x } : StreamRun) with err := 1, fin := true } ∧
        ((u.tile t).ag a).queue = rest)) ∧
    (∀ x rest, g.run = none → g.queue = .stream x :: rest → s.streamHere t x = true → x.hfPop = true → s.agHeld t a = false →
      let n := s.hfCount t (keySlot x.pk) x.hfPopIdx
      (n = 0 → exec (.streamStart t a) s = .next s) ∧
      (n ≠ 0 → n ≤ 16 → x.direct = true → x.space ≠ 1 → ∃ u, exec (.streamStart t a) s = .next u ∧
        u.hfCount t (keySlot x.pk) x.hfPopIdx = n - 1 ∧ ((u.tile t).ag a).run = some { s := x } ∧
        ((u.tile t).ag a).queue = rest)) ∧
    (∀ r, g.run = some r → r.fin = false → (s.region (keyAnchor r.s.pk)).away r.s.pk ≠ none →
      ∃ u, exec (.streamTransfer t a) s = .next u ∧ (u.tile t).cells = (s.tile t).cells) ∧
    (∀ r, g.run = some r → r.fin = false → s.streamHere t r.s = true →
      (s.region (keyAnchor r.s.pk)).away r.s.pk = none →
      r.s.space ≠ 1 ∨ (∃ e, s.streamDeref r.s = .ready e ∧ packedBytes r.s.fmt r.s.rowLen ≤ e.stride) →
      let p := agCell a r.pos
      let q := (s.cellAt t p.1).xin.getD p.2 []
      (r.s.direct = false → s.loadedOn t = some r.s.pk → s.cellsPaused t = true → exec (.streamTransfer t a) s = .next s) ∧
      (r.s.direct = false → r.s.isStore = false → s.channelsHeld t r.s = false → s.link t p.1 p.2 = .ag a → q.length < 4 →
        (r.s.scale = 0 ∨ r.scaled.getD r.pos 0 = r.blockMark → ∀ b s1,
          s.streamRead t a r.s r.groupAddr (packedBytes r.s.fmt r.count) (elemBytes r.s.fmt) = (.ok b, s1) →
          let vs := (rawElems r.s.fmt r.count b).map (decodeElem r.s.fmt r.s.intLanes (s1.streamTab t a r.s))
          ∃ u, exec (.streamTransfer t a) s = .next u ∧
            (∃ k : Token, (u.cellAt t p.1).xin.getD p.2 [] = (s1.cellAt t p.1).xin.getD p.2 [] ++ [k] ∧
              k.tag = r.tagOf ∧ k.scale = false ∧ (∀ i, k.valid.getLsbD i = (decide (i < 8) && decide (i < r.count))) ∧
              ∀ i, i < 8 → lane k.lanes i = (vs.getD i (0, 0)).1) ∧
            ((u.tile t).ag a).run = some { r.step with flags := vs.foldl (fun f v => f ||| v.2) r.flags } ∧
            ∀ k, u.byteAt k = s1.byteAt k) ∧
        (r.s.scale ≠ 0 → r.scaled.getD r.pos 0 ≠ r.blockMark → ∀ b s1,
          s.streamRead t a r.s r.scaleAddr (scaleBytes r.s.scale) 1 = (.ok b, s1) →
          ∃ u, exec (.streamTransfer t a) s = .next u ∧
            (∃ k : Token, (u.cellAt t p.1).xin.getD p.2 [] = (s1.cellAt t p.1).xin.getD p.2 [] ++ [k] ∧
              k.scale = true ∧ ∀ i, i < 8 → lane k.lanes i = (scaleFw r.s.scale (leNat b)).1) ∧
            ((u.tile t).ag a).run = some { r with
              scaled := r.scaled.set r.pos r.blockMark, flags := r.flags ||| (scaleFw r.s.scale (leNat b)).2 })) ∧
      (r.s.direct = false → r.s.isStore = true → s.channelsHeld t r.s = false → s.link t p.1 p.2 = .ag a → ∀ k rest fl s1,
        (s.cellAt t p.1).agOut.getD p.2 [] = k :: rest → s.storeGroup t a r.s r.groupAddr r.count k = (.ok fl, s1) →
        ∃ u, exec (.streamTransfer t a) s = .next u ∧ (u.cellAt t p.1).agOut.getD p.2 [] = rest ∧
          ((u.tile t).ag a).run = some { r.step with flags := r.flags ||| fl } ∧ ∀ k, u.byteAt k = s1.byteAt k) ∧
      (r.s.direct = true → ∀ b s1, let len := packedBytes r.s.fmt r.s.rowLen
        let src := r.s.rowAddr r.row + wd r.tok
        let n := Min.min (64 - src.toNat % 64) (len - r.tok)
        let dst := r.s.dstOff + r.row * len + r.tok
        s.streamRead t a r.s src n (if r.tok = 0 then elemBytes r.s.fmt else 1) = (.ok b, s1) → s1.Inv → b.length = n →
        s1.scratchCode t dst n = 0 → s1.badWrite (keysFrom (tileKey t dst) n) = false →
        ∃ u, exec (.streamTransfer t a) s = .next u ∧ u.mem.getN (tileKey t dst) n = b ∧
          ∀ k, k < tileKey t dst ∨ tileKey t dst + n ≤ k → u.byteAt k = s1.byteAt k)) ∧
    (∀ r, g.run = some r → r.fin = true →
      let slot := keySlot r.s.pk
      let push : Prop := r.s.hfPush = true ∧ r.err = 0
      let n := s.hfCount t slot r.s.hfPushIdx
      (push → 16 ≤ n → exec (.streamCompletion t a) s = .next s) ∧
      ((push → n < 16) → ∃ u : State, exec (.streamCompletion t a) s = .next (u.resolveMarkers t) ∧
        ((u.tile t).ag a).run = none ∧
        ((u.tile t).oprAt slot).agstat.getD a 0 = ((s.tile t).oprAt slot).agstat.getD a 0 ||| r.status ∧
        (push → u.hfCount t slot r.s.hfPushIdx = n + 1) ∧
        (r.err = 0 → r.s.doneKind = 2 → (u.core t).arrivals = (s.core t).arrivals ++
          [{ tag := r.s.tag, kind := 3, msg := r.status, src := t, detail := a, set := r.s.set, cycle := s.clk.cycle }]) ∧
        (r.err ≠ 0 → u.core t = s.core t))) ∧
    (∀ o rest, g.held = o :: rest → g.olderStreams = false → exec (.codeTableApply t a) s = .next (s.updAg t a (fun _ =>
      match o with
      | .swap => { g with act := 1 - g.act, swapId := s.sched.ids, held := rest }
      | .write e v =>
        if g.act = 0 then { g with tab1 := g.tab1.set e v, held := rest }
        else { g with tab0 := g.tab0.set e v, held := rest }))) ∧
    (∀ r since p, s.cmds.find? r.s.id = none → s.streamAt r.s.id = some (t, a, r) → r.stall = some since →
      s.places.find? r.s.pk = some p →
      (s.clk.cycle ≤ since + usCycles p.pageTimeout → exec (.pageTimeout r.s.id) s = .next s) ∧
      let inTime : Prop :=
        ∃ c ∈ (s.vi (hVi r.s.w1)).pubAt.getD (hIndex r.s.w1) [], since ≤ c ∧ c ≤ since + usCycles p.pageTimeout
      (inTime → exec (.pageTimeout r.s.id) s = .next s) ∧
      (since + usCycles p.pageTimeout < s.clk.cycle → ¬inTime → ∃ u,
        exec (.pageTimeout r.s.id) s = .next u ∧
        ((u.tile t).ag a).run = some { r with err := 0x1F, fin := true, stall := none }))

/-- R275, R276, R281, R288, R291, R297, R300, R417, R430 to R435: the head of an engine queue starts, performs its data work and
completes with its status; collectives gather the contributions of their parties, or end when their time is over; a weight
switch waits for the records of the old generation; a failed engine ends what runs on it. A command of a cell starts after the
updates that its cell sent before it (R130, R228). A cellar engine's queue holds 16 commands (R281), and one that finds an engine
full waits for it, which is the model's reading (log 136), as is that a refusal at the head comes before the wait for the handoff
token, and takes none (log 34). -/
def Obligations.CommandEvents : Prop :=
  ∀ (s : State),
    (∀ t slot q c rest anchor p, (s.queueAt t slot q).items = c :: rest → (s.tile t).anchor = some anchor →
      s.places.find? (placeKey anchor slot) = some p →
      (c.code = 0x9A → (∃ x ∈ s.cmds.items, x.2.tile = t ∧ x.2.pk = placeKey anchor slot ∧ x.2.q = q ∧ x.2.front = false) →
        exec (.commandStart t slot q) s = .next s) ∧
      (c.code ≠ 0x9A → (∀ k er, c.by_ = .cell k er → c.done = 2) →
        let v (w : State) : State :=
          w.updOpr t slot (fun o => { o with queues := o.queues.upd q {} (fun e => { e with items := rest }) })
        let rc (w : State) : RunCmd :=
          { c := c, tile := t, pk := placeKey anchor slot, q := q, vi := p.vi, job := p.job, domain := p.domain,
            timeout := p.pageTimeout, eq := ((w.tile t).oprAt slot).eq.getD q 0, started := w.clk.cycle,
            skip := (w.queueAt t slot q).bad.contains c.epoch }
        let code := s.cmdRefusal c (((s.tile t).oprAt slot).eq.getD q 0) p.vi p.job
        let n := s.hfCount t slot c.hfPopIdx
        let w := s.hfSet t slot c.hfPopIdx (n - 1)
        let waits := s.updatesBefore t (placeKey anchor slot) c
        (code ≠ 0 → exec (.commandStart t slot q) s =
          .next ((v s).settle (rc s) { err := code, refused := true } ⟨code, 0, 0⟩ [])) ∧
        (code = 0 → (c.hfPop = true ∧ n = 0) ∨ waits = true → exec (.commandStart t slot q) s = .next s) ∧
        (code = 0 → waits = false → c.hfPop = true → n ≠ 0 → exec (.commandStart t slot q) s = .next ((v w).launch (rc w))) ∧
        (code = 0 → waits = false → c.hfPop = false → exec (.commandStart t slot q) s = .next ((v s).launch (rc s))))) ∧
    (∀ id rc, s.cmds.find? id = some rc → rc.res = none → isColl rc.c.code = false ∨ rc.land ≠ none → rc.c.code ≠ 0xAB →
      s.suspended rc = false → ¬(rc.c.code = 0xA0 ∧ rc.path = 2) → rc.path ≠ 3 →
      (s.stallLasts rc = true → exec (.commandCompletion id) s = .next s) ∧
      (s.stallLasts rc = false →
        let done := s.workOn { rc with stall := none } (s.workUnits rc)
        (∀ rc' r f recs s1, done = (.ends rc' (.done r f recs), s1) → exec (.commandCompletion id) s =
          .next ((s1.settle rc' r (f.getD ⟨0, 0, 0⟩) recs).tryFinish id)) ∧
        (∀ rc' h s1, done = (.ends rc' (.stalled h), s1) → exec (.commandCompletion id) s =
          .next ((s1.stallCmd rc' h).tryFinish id)) ∧
        (∀ rc' l s1, done = (.ends rc' (.lands l), s1) → exec (.commandCompletion id) s =
          .next (State.tryFinish { s1 with cmds := s1.cmds.set rc'.c.id { rc' with land := some l } } id)) ∧
        ∀ rc' s1, done = (.more rc', s1) → exec (.commandCompletion id) s =
          .next (State.tryFinish { s1 with cmds := s1.cmds.set rc'.c.id rc' } id))) ∧
    (∀ id rc, s.cmds.find? id = some rc → rc.c.id = id → rc.res = none → rc.path = 3 →
      (∀ e ∈ rc.engs, e ∉ s.dev.failedEngines) →
      ((∃ e ∈ rc.engs, 16 ≤ s.engineFill e) → exec (.commandCompletion id) s = .next { s with cmds := s.cmds.set id rc }) ∧
      ((∀ e ∈ rc.engs, s.engineFill e < 16) → exec (.commandCompletion id) s =
        .next { s with cmds := s.cmds.set id { rc with path := 1 } })) ∧
    (∀ id rc r, s.cmds.find? id = some rc → rc.res = some r → rc.c.id = id →
      (rc.front = false → rc.c.hfPush = true → r.refused = false →
        16 ≤ s.hfCount rc.tile (keySlot rc.pk) rc.c.hfPushIdx → exec (.commandCompletion id) s = .next s) ∧
      (∀ set tag, rc.c.by_ = .core set tag → (s.places.find? rc.pk).isSome = true → rc.c.done = 2 → rc.c.hfPush = false →
        r.count < 2 ^ 24 → s.sendsHeld rc.tile (fun a => a.kind == 4 && a.detail == rc.q) = false →
        ∃ u, exec (.commandCompletion id) s = .next u ∧ u.cmds.find? id = none ∧
          (u.core rc.tile).arrivals = (s.core rc.tile).arrivals ++
            [{ tag := tag, kind := 4,
               msg := wd (rc.c.code * 2 ^ 56 + r.aux % 256 * 2 ^ 40 + r.count * 2 ^ 16 + r.err % 256 * 2 ^ 8 + r.flags.toNat),
               src := 0xFFF, detail := rc.q, set := set, cycle := s.clk.cycle }] ∧
          ∀ k, u.byteAt k = s.byteAt k)) ∧
    (∀ id rc, s.cmds.find? id = some rc → isColl rc.c.code = true → rc.res = none →
      (∀ idx x, rc.got.find? idx = none → s.pool.find? (fun x => x.vi == rc.vi && x.job == rc.job &&
          x.group == rc.c.w0.fld 31 16 && x.p == rc.c.w4.fld 63 48 && x.k == rc.k && x.idx == idx && !x.lost) = some x →
        exec (.collectiveContribution id idx) s =
          .next { s with cmds := s.cmds.set id { rc with got := rc.got.set idx x.data } }) ∧
      ((∀ i, i < rc.c.w4.fld 63 48 → (rc.got.find? i).isSome = true) → s.clk.cycle ≤ rc.started + usCycles rc.timeout →
        rc.land = none →
        (∀ r f recs s1, performColl rc s = (.done r f recs, s1) → exec (.collectiveResult id) s =
          .next ((s1.settle rc r (f.getD ⟨0, 0, 0⟩) recs).tryFinish id)) ∧
        ∀ l s1, performColl rc s = (.lands l, s1) → exec (.collectiveResult id) s =
          .next { s1 with cmds := s1.cmds.set id { rc with land := some l } }) ∧
      ((∃ i, i < rc.c.w4.fld 63 48 ∧ rc.got.find? i = none) ∨ rc.started + usCycles rc.timeout < s.clk.cycle ∨ rc.land ≠ none →
        exec (.collectiveResult id) s = .next s) ∧
      (s.clk.cycle < rc.started + usCycles rc.timeout ∨ rc.land ≠ none → exec (.collectiveTimeout id) s = .next s) ∧
      (∀ k er, rc.c.by_ = .cell k er → rc.land = none → rc.started + usCycles rc.timeout ≤ s.clk.cycle → exec (.collectiveTimeout id) s =
        .next (({ s with cmds := s.cmds.set id { rc with res := some { err := 6 }, stall := none } } : State).tryFinish id)) ∧
      (rc.land = none → rc.started + usCycles rc.timeout ≤ s.clk.cycle →
        let u := s.settle rc { err := 6 } ⟨6, 0, rc.c.w4.fld 47 32 * 2 ^ 16 + rc.got.items.length % 2 ^ 16⟩ []
        (∀ vi sq, rc.c.by_ = .front vi sq → exec (.collectiveTimeout id) s = .next (u.tryFinish id)) ∧
        ∀ set tag, rc.c.by_ = .core set tag → exec (.collectiveTimeout id) s =
          .next ((if setIdx set < 16 then u.ejectRows (set / 256) 6 53 8 ⟨6, 0, 0⟩ else u).tryFinish id))) ∧
    (∀ id rc since, s.cmds.find? id = some rc → rc.stall = some since → rc.c.code ≠ 0xA2 →
      let inTime : Prop :=
        ∃ c ∈ (s.vi (hVi rc.stallH)).pubAt.getD (hIndex rc.stallH) [], since ≤ c ∧ c ≤ since + usCycles rc.timeout
      (s.clk.cycle ≤ since + usCycles rc.timeout ∨ inTime → exec (.pageTimeout id) s = .next s) ∧
      (since + usCycles rc.timeout < s.clk.cycle → ¬inTime → exec (.pageTimeout id) s =
        .next ((s.settle rc { rc.soFar with err := 0x1F } ⟨0x1F, rc.stallH, 1⟩ []).tryFinish rc.c.id))) ∧
    (∀ id rc, s.cmds.find? id = some rc → rc.c.code = 0xAB → rc.res = none →
      let stage := rc.c.w1.fld 7 0
      let key := jobKey rc.vi rc.job * 256 + stage
      let left := s.genCount rc.vi rc.job stage (s.stage key).old
      (s.stage key).switch = some id →
      (left = 0 → exec (.wswitchDrained id) s = .next (((s.updStage key (fun st => { st with switch := none })).settle rc {}
        ⟨0, 0, 0⟩ []).tryFinish id)) ∧
      (left ≠ 0 → exec (.wswitchDrained id) s = .next s) ∧
      ((s.stage key).noted = false → (s.stage key).since + usCycles 100000 ≤ s.clk.cycle →
        ∃ u, exec (.switchWaiting id) s = .next u ∧ (u.stage key).noted = true ∧ u.cmds = s.cmds)) ∧
    (∀ stack channel, let e := stack * 32 + channel
      (e ∈ s.dev.failedEngines → exec (.engineFailed stack channel) s = .next s) ∧
      (e ∉ s.dev.failedEngines → (∀ x ∈ s.cmds.items, e ∉ x.2.engs) → ∃ u, exec (.engineFailed stack channel) s = .next u ∧
        u.dev.failedEngines = e :: s.dev.failedEngines ∧ u.dev.service = true ∧ u.dev.srcause.getLsbD 3 = true ∧
        u.cmds = s.cmds))

/-! ### The host interface, links, time and firmware -/

/-- R304, R305, R326, R371, R373, R375, R376, R386, R440: the front end starts the next command of the VI whose turn it
is; a TIMED starts its command at its stamp, on a core that is free; a pending vector sends one message; an
invalidation request completes; a read of host memory that is not answered stops its queue; a port that goes down
disables the queues on it; a power state is taken. That the completion of an invalidation that a SYSC asked for waits while an
earlier answer on its tag stands outside a full arrival store is the model's reading (log 79). -/
def Obligations.HostQueueEvents : Prop :=
  ∀ (s : State),
    (∀ cls vi, s.viToServe = some (cls, vi) → s.viReady vi = true ∧ s.viClass vi = cls ∧
      ∀ w, w < 64 → s.viReady w = true → cls ≤ s.viClass w) ∧
    (∀ cls vi sq, s.viToServe = some (cls, vi) →
      nextInTurn (s.vi vi).lastSq ((List.range 16).filter (fun q => s.queueReady vi q)) = some sq →
      let q := (s.vi vi).sq.getD sq {}
      (∀ v, v ≠ vi → exec (.commandService v) s = .next s) ∧
      (q.inDevice = false → ∃ u, exec (.commandService vi) s = .next u ∧
        u.fe = s.fe ++ [{ e := entryOfBytes vi sq (s.mem.getN (hostKey vi (q.base + 64 * q.head)) 64), wait := .ready,
                          started := s.clk.cycle, sqHead := (q.head + 1) % q.size, canary := q.canary }] ∧
        (u.vi vi).sq.getD sq {} = { q with head := (q.head + 1) % q.size, busy := true } ∧ (u.vi vi).lastSq = sq ∧
        u.dev.servedVi.getD cls 63 = vi ∧ ∀ k, u.byteAt k = s.byteAt k)) ∧
    (∀ idx f stamp x, s.fe[idx]? = some f → f.wait = .timed stamp x →
      (s.clk.time.toNat < stamp.toNat → exec (.timedLaunch idx) s = .next s) ∧
      (4 ≤ s.coresBusy f.canary → exec (.timedLaunch idx) s = .next s) ∧
      (stamp.toNat ≤ s.clk.time.toNat → s.coresBusy f.canary < 4 → exec (.timedLaunch idx) s = .next { s with
        fe := s.fe.set idx { f with
          e := { x with w0 := x.w0.put 31 0 (f.e.w0.toNat % 2 ^ 32) }, wait := .ready, started := s.clk.cycle } })) ∧
    (∀ vi vec since port, (s.vi vi).vecPend.find? vec = some (since, port) →
      ((s.vi vi).masked vec = true → exec (.msixMessage vi vec) s = .next s) ∧
      ((s.vi vi).masked vec = false →
        (∀ x, (s.vi vi).vecLast.find? vec = some x → s.clk.cycle < x + usCycles 1 →
          exec (.msixMessage vi vec) s = .next s) ∧
        ((∀ x, (s.vi vi).vecLast.find? vec = some x → x + usCycles 1 ≤ s.clk.cycle) →
          exec (.msixMessage vi vec) s = .next { s.updVi vi (fun v => { v with
            vecPend := v.vecPend.erase vec, vecLast := v.vecLast.set vec s.clk.cycle }) with
              outs := s.outs ++ [.msix vi vec port] }))) ∧
    (∀ vi q rest, (s.vi vi).inv = q :: rest →
      (2 ≤ q.kind → s.oldInUse vi = true → exec (.invalidationComplete vi) s = .next s) ∧
      (q.kind % 2 = 1 → s.translatedHeld vi = true → exec (.invalidationComplete vi) s = .next s) ∧
      (q.sysc = none → (2 ≤ q.kind → s.oldInUse vi = false) → (q.kind % 2 = 1 → s.translatedHeld vi = false) →
        ∃ u, exec (.invalidationComplete vi) s = .next u ∧
        (u.vi vi).inv = rest ∧ (u.vi vi).invdone = BitVec.ofNat 32 q.seq ∧
        (q.kind = 1 → (∀ e, e ∈ (u.vi vi).tlb ↔ e ∈ (s.vi vi).tlb ∧ q.n < e.age) ∧
          ∀ o, o ∈ (u.vi vi).windOld ↔ o ∈ (s.vi vi).windOld ∧ q.n < o.1) ∧
        (q.kind = 2 ∨ q.kind = 3 → ∀ k o, o ∈ (u.vi vi).hOld.getD k [] ↔ o ∈ (s.vi vi).hOld.getD k [] ∧ q.n < o.1)) ∧
      (∀ x, q.sysc = some x → s.sendsHeld x.tile (fun a => a.kind == 9 && a.tag == x.tag) = true →
        exec (.invalidationComplete vi) s = .next s) ∧
      (∀ x, q.sysc = some x → s.sendsHeld x.tile (fun a => a.kind == 9 && a.tag == x.tag) = false → q.kind = 1 →
        s.translatedHeld vi = false → (s.places.find? x.pk).isSome = true → ∃ u, exec (.invalidationComplete vi) s = .next u ∧
        (u.vi vi).inv = rest ∧ (u.vi vi).invdone = (s.vi vi).invdone ∧
        (u.core x.tile).arrivals = (s.core x.tile).arrivals ++
          [{ tag := x.tag, kind := 9, msg := wd q.seq, src := 0xFFF, detail := x.code, set := x.set, cycle := s.clk.cycle }])) ∧
    (∀ vi sq, s.queueReady vi sq = true → ((s.vi vi).sq.getD sq {}).inDevice = false →
      ∃ u, exec (.hostReadTimeout vi sq) s = .next u ∧
        (u.vi vi).sq.getD sq {} = { (s.vi vi).sq.getD sq {} with failed := true } ∧ u.fe = s.fe) ∧
    (∀ port, (port ∈ s.dev.portsDown → exec (.hostPortDown port) s = .next s) ∧
      (port ∉ s.dev.portsDown → ∃ u, exec (.hostPortDown port) s = .next u ∧ u.dev.portsDown = port :: s.dev.portsDown ∧
        (∀ vi k q, (s.vi vi).sq.find? k = some q → q.onPort port = true →
          (q.busy = false → (u.vi vi).sq.find? k = some { q with en := false }) ∧
          (q.busy = true → (u.vi vi).sq.find? k = some { q with stop := true })) ∧
        ∀ vi k q, (s.vi vi).sq.find? k = some q → q.onPort port = false → (u.vi vi).sq.find? k = some q)) ∧
    (∀ vi d, exec (.powerStateChange vi d) s = .next (s.updVi vi (fun v => { v with d3 := d })))

/-- R131, R147, R372, R440 to R442: accesses through BAR2. A posted write waits for its home die; a completion flag waits for
the earlier writes of its VI on the port and is then performed; a read waits for them and answers with the bytes of memory; a lost
acknowledgement discards the flags that wait, and from then on reads are aborted. That a write goes by its aligned groups of 64
bytes, one after another, is the model's reading (log 8); that an access beyond the 256 GiB of the aperture (R369) is not served
is its choice (log 109). -/
def Obligations.HostAccessEvents : Prop :=
  ∀ (s : State),
    (∀ r, s.regServed { vi := r.vi, port := r.port } = false → exec (.bar2Access r) s = .next s) ∧
    (∀ r, 2 ^ 38 < r.off + (if r.write then r.data.length else r.len) → exec (.bar2Access r) s = .next s) ∧
    (∀ r, s.regServed { vi := r.vi, port := r.port } = true → r.off + (if r.write then r.data.length else r.len) ≤ 2 ^ 38 →
      let o := s.ordAt r.vi r.port
      let w (ks : List Nat) : InWrite :=
        { keys := ks, data := r.data, die := (ks.headD 0) / 2 ^ 37 % 8, flag := r.flag, since := s.clk.cycle }
      let at_ := s.aperture r.vi r.off
      (r.write = true → r.poison = false → r.flag = false → ∀ ks s1,
        s.resolveDv false none r.vi at_ r.data.length false true = (.ok ks, s1) → exec (.bar2Access r) s =
          .next (s1.updOrd r.vi r.port (fun o => { o with writes := o.writes ++ [{ w ks with since := s1.clk.cycle }] }))) ∧
      (r.write = true → r.poison = false → r.flag = true → o.lost = true → exec (.bar2Access r) s =
        .next (s.updOrd r.vi r.port (fun o => { o with discarded := o.discarded + 1 }))) ∧
      (r.write = true → r.poison = false → r.flag = true → o.lost = false → ∀ ks s1,
        s.resolveDv false none r.vi at_ r.data.length false true = (.ok ks, s1) → s1.ordAt r.vi r.port = o →
        let onePart : Prop := ∀ k ∈ ks, k / 64 = ks.headD 0 / 64
        (o.writes = [] → onePart → s1.badWrite ks = false → exec (.bar2Access r) s = .next (s1.writeKeys ks r.data)) ∧
        (o.writes ≠ [] ∨ ¬onePart → ∃ u, exec (.bar2Access r) s = .next u ∧
          (u.ordAt r.vi r.port).writes.length = o.writes.length + 1 ∧ ∀ k, u.byteAt k = s1.byteAt k)) ∧
      (r.write = false → o.lost = true → exec (.bar2Access r) s =
        .next { s with outs := s.outs ++ [.completerAbort r.vi r.port] }) ∧
      (r.write = false → o.lost = false → o.writes ≠ [] → exec (.bar2Access r) s = .next s) ∧
      (r.write = false → o.lost = false → o.writes = [] → ∀ ks s1,
        s.resolveDv false none r.vi at_ r.len true false = (.ok ks, s1) → s1.badRead ks = false → exec (.bar2Access r) s =
          .next { s1 with outs := s1.outs ++ [.readData r.vi r.port (ks.map s1.byteAt)] }) ∧
      (r.write = false → o.lost = false → o.writes = [] → ∀ e s1,
        s.resolveDv false none r.vi at_ r.len true false = (.error e, s1) → ∃ u, exec (.bar2Access r) s = .next u ∧
          u.outs = s1.outs ++ [.readData r.vi r.port (List.replicate r.len 0xFF#8)])) ∧
    (∀ port vi w rest, (s.ordAt vi port).writes = w :: rest →
      (w.flag = false → exec (.completionFlagForward port vi) s = .next s) ∧
      (w.flag = true → (s.ordAt vi port).lost = true → exec (.completionFlagForward port vi) s =
        .next (s.updOrd vi port (fun o => { o with writes := rest, discarded := o.discarded + 1 }))) ∧
      (w.flag = true → (s.ordAt vi port).lost = false → w.sqdb = none → s.badWrite w.keys = false →
        let n := (w.keys.takeWhile (fun k => k / 64 == w.keys.headD 0 / 64)).length
        (n = w.keys.length → exec (.completionFlagForward port vi) s =
          .next ((s.writeKeys w.keys w.data).updOrd vi port (fun o => { o with writes := rest }))) ∧
        (n < w.keys.length → exec (.completionFlagForward port vi) s =
          .next ((s.writeKeys (w.keys.take n) (w.data.take n)).updOrd vi port (fun o =>
            { o with writes := { w with keys := w.keys.drop n, data := w.data.drop n } :: rest }))))) ∧
    (∀ port vi i w, (s.ordAt vi port).writes[i]? = some w → w.flag = false → w.sqdb = none →
      w.since + usCycles 100 ≤ s.clk.cycle →
      (∀ j x, j < i → (s.ordAt vi port).writes[j]? = some x → x.flag = true ∨ s.clk.cycle < x.since + usCycles 100) →
      ∃ u, exec (.ackLost port vi) s = .next u ∧ (u.ordAt vi port).lost = true ∧
        (u.ordAt vi port).writes = ((s.ordAt vi port).writes.eraseIdx i).filter (fun x => !x.flag) ∧
        (u.ordAt vi port).discarded = (s.ordAt vi port).discarded + ((s.ordAt vi port).writes.filter (·.flag)).length)

/-- R3, R10, R67, R378 to R381, R386, R444 to R447: links train and fail, device time advances 8/0.47 units of 1/16 ns a
cycle, in steps that pass over no hamper's timeout, and follows its master, and the power measured against the cap throttles. How much of a slew a cycle absorbs is
free up to 500 ppm; which packets of a dropped flit were in flight is free (log 95). That a correction of PTP is applied as a
slew, with the device's own time as its stamps, is the model's reading (log 94). -/
def Obligations.LinkAndTimeEvents : Prop :=
  ∀ (s : State),
    (∀ n, s.clk.slew = 0 ∨ s.dev.timesrc.fld 1 0 = 0 → (s.tick n).clk.cycle = s.clk.cycle + n ∧
      (s.tick n).clk.time.toNat = (s.clk.time.toNat + (s.clk.frac + 8000000 * n) / 470000) % 2 ^ 64 ∧
      (s.tick n).clk.frac = (s.clk.frac + 8000000 * n) % 470000) ∧
    (∀ n, ∃ v k, makeMove (.tick n) s = .next (v.tick k) ∧ k ≤ n ∧ v.clk = s.clk ∧ (s.places.items = [] → v = s ∧ k = n) ∧
      ∀ pk p f, v.places.find? pk = some p → p.hamper.forming = some f → 1 < k →
        s.clk.cycle + k ≤ f.oldest + usCycles (v.parOf p).timeout) ∧
    (∀ port, port < 16 → ∃ u, exec (.linkTrained port) s = .next u ∧
      { u with dev := { u.dev with lnkstat := s.dev.lnkstat } } = s ∧ ∀ k, k < 16 → u.dev.lnkstat.getLsbD k =
        (s.dev.lnkstat.getLsbD k || (decide (k = port) && s.dev.lnkctl.getLsbD port))) ∧
    (∀ port, port < 16 → s.dev.lnkstat.getLsbD port = true → ∃ u, exec (.linkTrainingLost port) s = .next u ∧
      (∀ k, k < 16 → u.dev.lnkstat.getLsbD k = (s.dev.lnkstat.getLsbD k && decide (k ≠ port))) ∧ u.dev.service = true ∧
      u.dev.srcause.getLsbD 4 = true) ∧
    (∀ port, s.dev.lnkstat.getLsbD port = false → exec (.linkTrainingLost port) s = .next s) ∧
    (∀ port pkg i, i = .flitDrop port pkg ∨ i = .remoteTimeout port pkg → ∃ u, exec i s = .next u ∧
      (∀ x ∈ u.dev.dropMarks, x ∈ s.dev.dropMarks ∨ x.1 = pkg ∧ s.sched.moves < x.2 ∧ x.2 ≤ s.sched.moves + 64) ∧
      (∀ x ∈ s.dev.dropMarks, s.sched.moves ≤ x.2 → x ∈ u.dev.dropMarks) ∧ u.dev.linksDown = s.dev.linksDown) ∧
    (∀ link, (link ∈ s.dev.linksDown → exec (.atticLinkDown link) s = .next s) ∧
      (link ∉ s.dev.linksDown → ∃ u, exec (.atticLinkDown link) s = .next u ∧
        u.dev.linksDown = s.dev.linksDown ++ [link] ∧ u.dev.service = true ∧ u.dev.srcause.getLsbD 4 = true)) ∧
    (s.linkTime = false → (∀ m, exec (.ptpMessage m) s = .next s) ∧ exec .timeSourceLost s = .next s ∧
      ∀ off, exec (.timeRelock off) s = .next s) ∧
    (s.linkTime = true →
      exec (.ptpMessage .sync) s = .next { s with dev := { s.dev with ptpT2 := s.clk.time, lastSync := s.clk.cycle } } ∧
      (∀ x, exec (.ptpMessage (.followUp x)) s = .next { s with dev := { s.dev with ptpT1 := x } }) ∧
      (s.dev.timeLost = false → ∀ t4,
        let off := ((s.dev.ptpT2 - s.dev.ptpT1).toInt - (t4 - s.dev.ptpT3).toInt) / 2
        exec (.ptpMessage (.delayResp t4)) s = .next { s with
          clk := { s.clk with slew := -off * 470000 }
          dev := { s.dev with timeLocked := decide (off.natAbs < 800) } }) ∧
      (s.dev.timeLost = false → s.dev.lastSync + usCycles 3000000 ≤ s.clk.cycle → ∃ u, exec .timeSourceLost s = .next u ∧
        u.dev.timeLost = true ∧ u.dev.timeLocked = false ∧ u.clk = { s.clk with slew := 0 }) ∧
      (s.dev.timeLost = true → ∀ off, ∃ u, exec (.timeRelock off) s = .next u ∧ u.dev.timeLost = false ∧
        (off ≤ 16000000 → u.clk = { s.clk with slew := off * 470000 }) ∧
        (16000000 < off → u.clk.time = s.clk.time + BitVec.ofInt 64 off))) ∧
    (∀ watts, (s.dev.pcap < watts → ∃ u, exec (.throttle watts) s = .next u ∧ u.dev = { s.dev with throttle := true }) ∧
      (watts ≤ s.dev.pcap → exec (.throttle watts) s = .next s) ∧
      (watts < s.dev.pcap → ∃ u, exec (.powerBelowCap watts) s = .next u ∧
        u.dev = { s.dev with throttle := false }) ∧
      (s.dev.pcap ≤ watts → exec (.powerBelowCap watts) s = .next s))

/-- R17, R301, R382, R387, R396, R448 to R450: the part starts with the first image that passes its checks, or not at all; a
failed self-test asks for service; an update runs through verification, canary and commit, or reverts with its reason; a
takeover works on the last copy of the state table, and ends the commands that it shows as started. What the boot memory holds,
and the parameters of the signature, are open (logs 7 and 108); what the copy holds is the model's choice (log 96). -/
def Obligations.FirmwareEvents : Prop :=
  ∀ (s : State),
    (∃ u, exec .boot s = .next u ∧ (u.dev.ready = true ↔ s.dev.ready = true ∨
        ∃ n, n < 2 ∧ fwCheck s.dev.fused (Config.firmwareSlot n) = 0) ∧
      (s.dev.ready = false → fwCheck s.dev.fused (Config.firmwareSlot 0) = 0 → u.dev.fwImage = Config.firmwareSlot 0) ∧
      (s.dev.ready = false → fwCheck s.dev.fused (Config.firmwareSlot 0) ≠ 0 → fwCheck s.dev.fused (Config.firmwareSlot 1) = 0 →
        u.dev.fwImage = Config.firmwareSlot 1) ∧ (s.dev.ready = true → u = s)) ∧
    (∀ t, let x := s.tile t
      (t < 1152 → (x.state = .enabled ∧ x.anchor = none) ∨ x.state = .spare → ∃ u, exec (.selfTest [t]) s = .next u ∧
        u.dev.service = true ∧ u.dev.srcause.getLsbD 1 = true ∧ u.tiles = s.tiles) ∧
      (1152 ≤ t ∨ x.state = .defective ∨ x.state = .withdrawn ∨ x.anchor ≠ none ∧ x.state = .enabled →
        exec (.selfTest [t]) s = .next s)) ∧
    (s.dev.fwstate ≠ .verifying → exec .standbyImageChecked s = .next s) ∧
    (s.dev.fwstate = .verifying →
      (∀ b s1, s.readFirmware = (.ok b, s1) → ∃ u, exec .standbyImageChecked s = .next u ∧
        (fwCheck s1.dev.fused b ≠ 0 → u.dev.fwstate = .refused ∧ u.dev.fwreason = fwCheck s1.dev.fused b) ∧
        (fwCheck s1.dev.fused b = 0 → u.dev.fwstate = .canary ∧ u.dev.fwNew = b ∧ u.dev.fwSince = s1.clk.cycle ∧
          u.fe = s1.fe.map (fun f => { f with
            canary := f.canary || (s1.dev.fwcanary.getLsbD f.e.vi && !f.wait.onCore) }))) ∧
      (∀ e s1, s.readFirmware = (.error e, s1) → ∃ u, exec .standbyImageChecked s = .next u ∧ u.dev.fwstate = .refused)) ∧
    (s.dev.fwstate = .canary →
      (s.dev.fwSince + s.canaryWindow ≤ s.clk.cycle → exec .canaryWindowEnd s =
        .next { s with dev := { s.dev with fwstate := .committing } }) ∧
      (s.clk.cycle < s.dev.fwSince + s.canaryWindow → exec .canaryWindowEnd s = .next s) ∧
      (∃ u, exec .heartbeatLost s = .next u ∧ u.dev.fwstate = .reverted ∧ u.dev.fwreason = 3) ∧
      (∃ u, exec .standbyAssertion s = .next u ∧ u.dev.fwstate = .reverted ∧ u.dev.fwreason = 5) ∧
      ((∃ f ∈ s.fe, f.canary = true ∧ f.wait = .ready ∧ f.started + usCycles 100000 ≤ s.clk.cycle) →
        ∃ u, exec .canaryCommandHung s = .next u ∧ u.dev.fwstate = .reverted ∧ u.dev.fwreason = 4)) ∧
    (s.dev.fwstate ≠ .canary → exec .heartbeatLost s = .next s ∧ exec .standbyAssertion s = .next s ∧
      exec .canaryCommandHung s = .next s) ∧
    (s.dev.fwstate = .committing → ∃ u, exec .canaryWindowEnd s = .next u ∧ u.dev.fwstate = .committed ∧
      u.dev.activeB = !s.dev.activeB ∧ u.dev.fwImage = s.dev.fwNew ∧ s.dev.fused ≤ u.dev.fused) ∧
    (s.dev.ready = false → exec .complexTakeover s = .next s) ∧
    (s.dev.ready = true →
      let own := s.copy.fe.filter (fun f => !((s.vi f.e.vi).sq.getD f.e.sq {}).canary)
      ∃ w : State, exec .complexTakeover s = .next (own.foldl (fun u f => u.feStop f 10) w).copyTable ∧
        w.dev.activeB = !s.dev.activeB ∧ w.ops = s.copy.ops ∧ w.fe = s.fe.filter (fun f => f.canary) ++ own ∧
        ∀ vi k q, (s.vi vi).sq.find? k = some q → q.canary = false → ∃ r, (w.vi vi).sq.find? k = some r ∧
          r.head = s.copy.heads.getD (16 * vi + k) 0 % q.size ∧ r.tail = q.tail ∧
          r.busy = decide (∃ f ∈ own, f.e.vi = vi ∧ f.e.sq = k)) ∧
    (let c := s.copyTable.copy
     c.fe = s.fe.filter (fun f => !f.canary) ∧ c.ops = s.ops ∧ c.jobs = s.jobs ∧
     (∀ vi v, s.vis.find? vi = some v → c.rcbs.find? vi = some v.rcbs) ∧
     ∀ k p, s.places.find? k = some p → c.places.find? k = some { p with hamper := {} })
end

