-- ==== Sys2Proof/Laws/Dispatch.lean ====
section
/-! SUPPORT. What exec answers for each constructor: its meaning. -/

namespace Sys2Proof.Machine

set_option Elab.async false

theorem exec_add d a b (s : State) : exec (.add d a b) s = execAdd d a b s := rfl
theorem exec_sub d a b (s : State) : exec (.sub d a b) s = execSub d a b s := rfl
theorem exec_mul d a b (s : State) : exec (.mul d a b) s = execMul d a b s := rfl
theorem exec_mulh d a b (s : State) : exec (.mulh d a b) s = execMulh d a b s := rfl
theorem exec_mulhu d a b (s : State) : exec (.mulhu d a b) s = execMulhu d a b s := rfl
theorem exec_div d a b (s : State) : exec (.div d a b) s = execDiv d a b s := rfl
theorem exec_divu d a b (s : State) : exec (.divu d a b) s = execDivu d a b s := rfl
theorem exec_rem d a b (s : State) : exec (.rem d a b) s = execRem d a b s := rfl
theorem exec_remu d a b (s : State) : exec (.remu d a b) s = execRemu d a b s := rfl
theorem exec_and d a b (s : State) : exec (.and d a b) s = execAnd d a b s := rfl
theorem exec_or d a b (s : State) : exec (.or d a b) s = execOr d a b s := rfl
theorem exec_xor d a b (s : State) : exec (.xor d a b) s = execXor d a b s := rfl
theorem exec_andn d a b (s : State) : exec (.andn d a b) s = execAndn d a b s := rfl
theorem exec_shl d a b (s : State) : exec (.shl d a b) s = execShl d a b s := rfl
theorem exec_shr d a b (s : State) : exec (.shr d a b) s = execShr d a b s := rfl
theorem exec_sar d a b (s : State) : exec (.sar d a b) s = execSar d a b s := rfl
theorem exec_rot d a b (s : State) : exec (.rot d a b) s = execRot d a b s := rfl
theorem exec_clz d a (s : State) : exec (.clz d a) s = execClz d a s := rfl
theorem exec_popc d a (s : State) : exec (.popc d a) s = execPopc d a s := rfl
theorem exec_cseq d a b (s : State) : exec (.cseq d a b) s = execCseq d a b s := rfl
theorem exec_csne d a b (s : State) : exec (.csne d a b) s = execCsne d a b s := rfl
theorem exec_cslt d a b (s : State) : exec (.cslt d a b) s = execCslt d a b s := rfl
theorem exec_csle d a b (s : State) : exec (.csle d a b) s = execCsle d a b s := rfl
theorem exec_csltu d a b (s : State) : exec (.csltu d a b) s = execCsltu d a b s := rfl
theorem exec_csleu d a b (s : State) : exec (.csleu d a b) s = execCsleu d a b s := rfl
theorem exec_adds d a b q0 (s : State) : exec (.adds d a b q0) s = execAdds d a b q0 s := rfl
theorem exec_min d a b (s : State) : exec (.min d a b) s = execMin d a b s := rfl
theorem exec_max d a b (s : State) : exec (.max d a b) s = execMax d a b s := rfl
theorem exec_addi d a imm (s : State) : exec (.addi d a imm) s = execAddi d a imm s := rfl
theorem exec_andi d a imm (s : State) : exec (.andi d a imm) s = execAndi d a imm s := rfl
theorem exec_ori d a imm (s : State) : exec (.ori d a imm) s = execOri d a imm s := rfl
theorem exec_xori d a imm (s : State) : exec (.xori d a imm) s = execXori d a imm s := rfl
theorem exec_shli d a imm (s : State) : exec (.shli d a imm) s = execShli d a imm s := rfl
theorem exec_shri d a imm (s : State) : exec (.shri d a imm) s = execShri d a imm s := rfl
theorem exec_sari d a imm (s : State) : exec (.sari d a imm) s = execSari d a imm s := rfl
theorem exec_cslti d a imm (s : State) : exec (.cslti d a imm) s = execCslti d a imm s := rfl
theorem exec_cseqi d a imm (s : State) : exec (.cseqi d a imm) s = execCseqi d a imm s := rfl
theorem exec_li d imm (s : State) : exec (.li d imm) s = execLi d imm s := rfl
theorem exec_kld g k (s : State) : exec (.kld g k) s = execKld g k s := rfl
theorem exec_kst g k (s : State) : exec (.kst g k) s = execKst g k s := rfl
theorem exec_kmov a b (s : State) : exec (.kmov a b) s = execKmov a b s := rfl
theorem exec_skip c g n (s : State) : exec (.skip c g n) s = execSkip c g n s := rfl
theorem exec_exit c g n (s : State) : exec (.exit c g n) s = execExit c g n s := rfl
theorem exec_endI (s : State) : exec .endI s = execEnd s := rfl
theorem exec_snul l (s : State) : exec (.snul l) s = execSnul l s := rfl
theorem exec_gnul d (s : State) : exec (.gnul d) s = execGnul d s := rfl
theorem exec_pfx h (s : State) : exec (.pfx h) s = execPfx h s := rfl
theorem exec_ldB d a l imm (s : State) : exec (.ldB d a l imm) s = execLdB d a l imm s := rfl
theorem exec_ldH d a l imm (s : State) : exec (.ldH d a l imm) s = execLdH d a l imm s := rfl
theorem exec_ldW d a l imm (s : State) : exec (.ldW d a l imm) s = execLdW d a l imm s := rfl
theorem exec_ld d a l imm (s : State) : exec (.ld d a l imm) s = execLd d a l imm s := rfl
theorem exec_ldBu d a l imm (s : State) : exec (.ldBu d a l imm) s = execLdBu d a l imm s := rfl
theorem exec_ldHu d a l imm (s : State) : exec (.ldHu d a l imm) s = execLdHu d a l imm s := rfl
theorem exec_ldWu d a l imm (s : State) : exec (.ldWu d a l imm) s = execLdWu d a l imm s := rfl
theorem exec_stB q0 a l imm (s : State) : exec (.stB q0 a l imm) s = execStB q0 a l imm s := rfl
theorem exec_stH q0 a l imm (s : State) : exec (.stH q0 a l imm) s = execStH q0 a l imm s := rfl
theorem exec_stW q0 a l imm (s : State) : exec (.stW q0 a l imm) s = execStW q0 a l imm s := rfl
theorem exec_st q0 a l imm (s : State) : exec (.st q0 a l imm) s = execSt q0 a l imm s := rfl
theorem exec_ldAcq d a l c imm (s : State) : exec (.ldAcq d a l c imm) s = execLdAcq d a l c imm s := rfl
theorem exec_stRel q0 a l c imm (s : State) : exec (.stRel q0 a l c imm) s = execStRel q0 a l c imm s := rfl
theorem exec_fenAcq l c (s : State) : exec (.fenAcq l c) s = execFenAcq l c s := rfl
theorem exec_fenRel l c (s : State) : exec (.fenRel l c) s = execFenRel l c s := rfl
theorem exec_amoAdd q d a l b c w (s : State) : exec (.amoAdd q d a l b c w) s = execAmoAdd q d a l b c w s := rfl
theorem exec_amoMin q d a l b c w (s : State) : exec (.amoMin q d a l b c w) s = execAmoMin q d a l b c w s := rfl
theorem exec_amoMax q d a l b c w (s : State) : exec (.amoMax q d a l b c w) s = execAmoMax q d a l b c w s := rfl
theorem exec_amoAnd q d a l b c w (s : State) : exec (.amoAnd q d a l b c w) s = execAmoAnd q d a l b c w s := rfl
theorem exec_amoOr q d a l b c w (s : State) : exec (.amoOr q d a l b c w) s = execAmoOr q d a l b c w s := rfl
theorem exec_amoXor q d a l b c w (s : State) : exec (.amoXor q d a l b c w) s = execAmoXor q d a l b c w s := rfl
theorem exec_amoXchg q d a l b c w (s : State) : exec (.amoXchg q d a l b c w) s = execAmoXchg q d a l b c w s := rfl
theorem exec_amoCas q d a l b c w (s : State) : exec (.amoCas q d a l b c w) s = execAmoCas q d a l b c w s := rfl
theorem exec_blkt t (s : State) : exec (.blkt t) s = execBlkt t s := rfl
theorem exec_ublkt t (s : State) : exec (.ublkt t) s = execUblkt t s := rfl
theorem exec_send d a t (s : State) : exec (.send d a t) s = execSend d a t s := rfl
theorem exec_sendBo d a b (s : State) : exec (.sendBo d a b) s = execSendBo d a b s := rfl
theorem exec_boset a t b (s : State) : exec (.boset a t b) s = execBoset a t b s := rfl
theorem exec_bosetClr a t b (s : State) : exec (.bosetClr a t b) s = execBosetClr a t b s := rfl
theorem exec_boarm b (s : State) : exec (.boarm b) s = execBoarm b s := rfl
theorem exec_spawn p r imm (s : State) : exec (.spawn p r imm) s = execSpawn p r imm s := rfl
theorem exec_join t (s : State) : exec (.join t) s = execJoin t s := rfl
theorem exec_rfwd a (s : State) : exec (.rfwd a) s = execRfwd a s := rfl
theorem exec_rfwdRet a (s : State) : exec (.rfwdRet a) s = execRfwdRet a s := rfl
theorem exec_strm a t n (s : State) : exec (.strm a t n) s = execStrm a t n s := rfl
theorem exec_strmTemplate a t p n (s : State) : exec (.strmTemplate a t p n) s = execStrmTemplate a t p n s := rfl
theorem exec_sbar r t m (s : State) : exec (.sbar r t m) s = execSbar r t m s := rfl
theorem exec_cfgl t d c m (s : State) : exec (.cfgl t d c m) s = execCfgl t d c m s := rfl
theorem exec_cfgbank t m b (s : State) : exec (.cfgbank t m b) s = execCfgbank t m b s := rfl
theorem exec_ctsw a (s : State) : exec (.ctsw a) s = execCtsw a s := rfl
theorem exec_eqw a n (s : State) : exec (.eqw a n) s = execEqw a n s := rfl
theorem exec_eqwPort a n (s : State) : exec (.eqwPort a n) s = execEqwPort a n s := rfl
theorem exec_copy a t n (s : State) : exec (.copy a t n) s = execCopy a t n s := rfl
theorem exec_publ a t n (s : State) : exec (.publ a t n) s = execPubl a t n s := rfl
theorem exec_mv a t n (s : State) : exec (.mv a t n) s = execMv a t n s := rfl
theorem exec_scout a t n (s : State) : exec (.scout a t n) s = execScout a t n s := rfl
theorem exec_attn a t n (s : State) : exec (.attn a t n) s = execAttn a t n s := rfl
theorem exec_iredGatherSum a t n (s : State) : exec (.iredGatherSum a t n) s = execIredGatherSum a t n s := rfl
theorem exec_iredGatherMax a t n (s : State) : exec (.iredGatherMax a t n) s = execIredGatherMax a t n s := rfl
theorem exec_iredAtomic a t n (s : State) : exec (.iredAtomic a t n) s = execIredAtomic a t n s := rfl
theorem exec_collTri a t n (s : State) : exec (.collTri a t n) s = execCollTri a t n s := rfl
theorem exec_collSum a t n (s : State) : exec (.collSum a t n) s = execCollSum a t n s := rfl
theorem exec_collMax a t n (s : State) : exec (.collMax a t n) s = execCollMax a t n s := rfl
theorem exec_collGath a t n (s : State) : exec (.collGath a t n) s = execCollGath a t n s := rfl
theorem exec_collSmp a t n (s : State) : exec (.collSmp a t n) s = execCollSmp a t n s := rfl
theorem exec_sample a t n (s : State) : exec (.sample a t n) s = execSample a t n s := rfl
theorem exec_wbuild a t n (s : State) : exec (.wbuild a t n) s = execWbuild a t n s := rfl
theorem exec_wswitch a t n (s : State) : exec (.wswitch a t n) s = execWswitch a t n s := rfl
theorem exec_promo a t n (s : State) : exec (.promo a t n) s = execPromo a t n s := rfl
theorem exec_promoDemote a t n (s : State) : exec (.promoDemote a t n) s = execPromoDemote a t n s := rfl
theorem exec_tnow d (s : State) : exec (.tnow d) s = execTnow d s := rfl
theorem exec_thold a t (s : State) : exec (.thold a t) s = execThold a t s := rfl
theorem exec_csrr d c (s : State) : exec (.csrr d c) s = execCsrr d c s := rfl
theorem exec_csrw a c (s : State) : exec (.csrw a c) s = execCsrw a c s := rfl
theorem exec_sysc a t c (s : State) : exec (.sysc a t c) s = execSysc a t c s := rfl
theorem exec_eret a (s : State) : exec (.eret a) s = execEret a s := rfl
theorem exec_eretAbort a (s : State) : exec (.eretAbort a) s = execEretAbort a s := rfl
theorem exec_trap c (s : State) : exec (.trap c) s = execTrap c s := rfl
theorem exec_halt (s : State) : exec .halt s = execHalt s := rfl
theorem exec_lcugoWrite a body (s : State) : exec (.lcugoWrite a body) s = execLcugoWrite a body s := rfl
theorem exec_csweeptWrite a (s : State) : exec (.csweeptWrite a) s = execCsweeptWrite a s := rfl
theorem exec_cteWrite a ag e (s : State) : exec (.cteWrite a ag e) s = execCteWrite a ag e s := rfl
theorem exec_cellAdd f (s : State) : exec (.cellAdd f) s = execCellAdd f s := rfl
theorem exec_cellSub f (s : State) : exec (.cellSub f) s = execCellSub f s := rfl
theorem exec_cellMul f (s : State) : exec (.cellMul f) s = execCellMul f s := rfl
theorem exec_cellMulh f (s : State) : exec (.cellMulh f) s = execCellMulh f s := rfl
theorem exec_cellAnd f (s : State) : exec (.cellAnd f) s = execCellAnd f s := rfl
theorem exec_cellOr f (s : State) : exec (.cellOr f) s = execCellOr f s := rfl
theorem exec_cellXor f (s : State) : exec (.cellXor f) s = execCellXor f s := rfl
theorem exec_cellAndn f (s : State) : exec (.cellAndn f) s = execCellAndn f s := rfl
theorem exec_cellShl f (s : State) : exec (.cellShl f) s = execCellShl f s := rfl
theorem exec_cellShr f (s : State) : exec (.cellShr f) s = execCellShr f s := rfl
theorem exec_cellSar f (s : State) : exec (.cellSar f) s = execCellSar f s := rfl
theorem exec_cellRot f (s : State) : exec (.cellRot f) s = execCellRot f s := rfl
theorem exec_cellMin f (s : State) : exec (.cellMin f) s = execCellMin f s := rfl
theorem exec_cellMax f (s : State) : exec (.cellMax f) s = execCellMax f s := rfl
theorem exec_minu f (s : State) : exec (.minu f) s = execMinu f s := rfl
theorem exec_maxu f (s : State) : exec (.maxu f) s = execMaxu f s := rfl
theorem exec_cellClz f (s : State) : exec (.cellClz f) s = execCellClz f s := rfl
theorem exec_cellPopc f (s : State) : exec (.cellPopc f) s = execCellPopc f s := rfl
theorem exec_bperm f (s : State) : exec (.bperm f) s = execBperm f s := rfl
theorem exec_pack f (s : State) : exec (.pack f) s = execPack f s := rfl
theorem exec_sel n f (s : State) : exec (.sel n f) s = execSel n f s := rfl
theorem exec_ceq f (s : State) : exec (.ceq f) s = execCeq f s := rfl
theorem exec_cne f (s : State) : exec (.cne f) s = execCne f s := rfl
theorem exec_clt f (s : State) : exec (.clt f) s = execClt f s := rfl
theorem exec_cle f (s : State) : exec (.cle f) s = execCle f s := rfl
theorem exec_cltu f (s : State) : exec (.cltu f) s = execCltu f s := rfl
theorem exec_cleu f (s : State) : exec (.cleu f) s = execCleu f s := rfl
theorem exec_fadd f (s : State) : exec (.fadd f) s = execFadd f s := rfl
theorem exec_fsub f (s : State) : exec (.fsub f) s = execFsub f s := rfl
theorem exec_fmul f (s : State) : exec (.fmul f) s = execFmul f s := rfl
theorem exec_fma f (s : State) : exec (.fma f) s = execFma f s := rfl
theorem exec_fms f (s : State) : exec (.fms f) s = execFms f s := rfl
theorem exec_fmin f (s : State) : exec (.fmin f) s = execFmin f s := rfl
theorem exec_fmax f (s : State) : exec (.fmax f) s = execFmax f s := rfl
theorem exec_famn f (s : State) : exec (.famn f) s = execFamn f s := rfl
theorem exec_fabs f (s : State) : exec (.fabs f) s = execFabs f s := rfl
theorem exec_fneg f (s : State) : exec (.fneg f) s = execFneg f s := rfl
theorem exec_frcp f (s : State) : exec (.frcp f) s = execFrcp f s := rfl
theorem exec_frsq f (s : State) : exec (.frsq f) s = execFrsq f s := rfl
theorem exec_fexp2 f (s : State) : exec (.fexp2 f) s = execFexp2 f s := rfl
theorem exec_flog2 f (s : State) : exec (.flog2 f) s = execFlog2 f s := rfl
theorem exec_frnd f (s : State) : exec (.frnd f) s = execFrnd f s := rfl
theorem exec_fceq f (s : State) : exec (.fceq f) s = execFceq f s := rfl
theorem exec_fclt f (s : State) : exec (.fclt f) s = execFclt f s := rfl
theorem exec_fcle f (s : State) : exec (.fcle f) s = execFcle f s := rfl
theorem exec_fcun f (s : State) : exec (.fcun f) s = execFcun f s := rfl
theorem exec_fcvti f (s : State) : exec (.fcvti f) s = execFcvti f s := rfl
theorem exec_icvtf f (s : State) : exec (.icvtf f) s = execIcvtf f s := rfl
theorem exec_ucvtf f (s : State) : exec (.ucvtf f) s = execUcvtf f s := rfl
theorem exec_lshl f (s : State) : exec (.lshl f) s = execLshl f s := rfl
theorem exec_lshr f (s : State) : exec (.lshr f) s = execLshr f s := rfl
theorem exec_lbc f (s : State) : exec (.lbc f) s = execLbc f s := rfl
theorem exec_lredAdd f (s : State) : exec (.lredAdd f) s = execLredAdd f s := rfl
theorem exec_lredMin f (s : State) : exec (.lredMin f) s = execLredMin f s := rfl
theorem exec_lredMax f (s : State) : exec (.lredMax f) s = execLredMax f s := rfl
theorem exec_lredFadd f (s : State) : exec (.lredFadd f) s = execLredFadd f s := rfl
theorem exec_lredFmin f (s : State) : exec (.lredFmin f) s = execLredFmin f s := rfl
theorem exec_lredFmax f (s : State) : exec (.lredFmax f) s = execLredFmax f s := rfl
theorem exec_scanAdd f (s : State) : exec (.scanAdd f) s = execScanAdd f s := rfl
theorem exec_scanMax f (s : State) : exec (.scanMax f) s = execScanMax f s := rfl
theorem exec_scanFadd f (s : State) : exec (.scanFadd f) s = execScanFadd f s := rfl
theorem exec_scanFmax f (s : State) : exec (.scanFmax f) s = execScanFmax f s := rfl
theorem exec_qapp f (s : State) : exec (.qapp f) s = execQapp f s := rfl
theorem exec_mov f (s : State) : exec (.mov f) s = execMov f s := rfl
theorem exec_lit f (s : State) : exec (.lit f) s = execLit f s := rfl
theorem exec_steer f (s : State) : exec (.steer f) s = execSteer f s := rfl
theorem exec_steerCtl f (s : State) : exec (.steerCtl f) s = execSteerCtl f s := rfl
theorem exec_merge f (s : State) : exec (.merge f) s = execMerge f s := rfl
theorem exec_ctok f (s : State) : exec (.ctok f) s = execCtok f s := rfl
theorem exec_crec f (s : State) : exec (.crec f) s = execCrec f s := rfl
theorem exec_drop f (s : State) : exec (.drop f) s = execDrop f s := rfl
theorem exec_tag f (s : State) : exec (.tag f) s = execTag f s := rfl
theorem exec_done f (s : State) : exec (.done f) s = execDone f s := rfl
theorem exec_ldsI f (s : State) : exec (.ldsI f) s = execLdsI f s := rfl
theorem exec_ldsF f (s : State) : exec (.ldsF f) s = execLdsF f s := rfl
theorem exec_stsI f (s : State) : exec (.stsI f) s = execStsI f s := rfl
theorem exec_stsF f (s : State) : exec (.stsF f) s = execStsF f s := rfl
theorem exec_updAdd f (s : State) : exec (.updAdd f) s = execUpdAdd f s := rfl
theorem exec_updFadd f (s : State) : exec (.updFadd f) s = execUpdFadd f s := rfl
theorem exec_updMin f (s : State) : exec (.updMin f) s = execUpdMin f s := rfl
theorem exec_updMax f (s : State) : exec (.updMax f) s = execUpdMax f s := rfl
theorem exec_updOr f (s : State) : exec (.updOr f) s = execUpdOr f s := rfl
theorem exec_updTas f (s : State) : exec (.updTas f) s = execUpdTas f s := rfl
theorem exec_own f (s : State) : exec (.own f) s = execOwn f s := rfl
theorem exec_ordt f (s : State) : exec (.ordt f) s = execOrdt f s := rfl
theorem exec_sysm f (s : State) : exec (.sysm f) s = execSysm f s := rfl
theorem exec_sysmOff f (s : State) : exec (.sysmOff f) s = execSysmOff f s := rfl
theorem exec_ldsw f (s : State) : exec (.ldsw f) s = execLdsw f s := rfl
theorem exec_pswp f (s : State) : exec (.pswp f) s = execPswp f s := rfl
theorem exec_scl f (s : State) : exec (.scl f) s = execScl f s := rfl
theorem exec_tmrg f (s : State) : exec (.tmrg f) s = execTmrg f s := rfl
theorem exec_ecmd f (s : State) : exec (.ecmd f) s = execEcmd f s := rfl
theorem exec_csweep f (s : State) : exec (.csweep f) s = execCsweep f s := rfl
theorem exec_cellTrap f (s : State) : exec (.cellTrap f) s = execCellTrap f s := rfl
theorem exec_cellHalt f (s : State) : exec (.cellHalt f) s = execCellHalt f s := rfl
theorem exec_flgr f (s : State) : exec (.flgr f) s = execFlgr f s := rfl
theorem exec_flgc f (s : State) : exec (.flgc f) s = execFlgc f s := rfl
theorem exec_register e (s : State) : exec (.register e) s = execRegister e s := rfl
theorem exec_place e (s : State) : exec (.place e) s = execPlace e s := rfl
theorem exec_inject e (s : State) : exec (.inject e) s = execInject e s := rfl
theorem exec_wbuildCommand e (s : State) : exec (.wbuildCommand e) s = execWbuildCommand e s := rfl
theorem exec_wswitchCommand e (s : State) : exec (.wswitchCommand e) s = execWswitchCommand e s := rfl
theorem exec_copyCommand e (s : State) : exec (.copyCommand e) s = execCopyCommand e s := rfl
theorem exec_timed e (s : State) : exec (.timed e) s = execTimed e s := rfl
theorem exec_queryTileStates e (s : State) : exec (.queryTileStates e) s = execQueryTileStates e s := rfl
theorem exec_queryPlacement e (s : State) : exec (.queryPlacement e) s = execQueryPlacement e s := rfl
theorem exec_queryRcbUsage e (s : State) : exec (.queryRcbUsage e) s = execQueryRcbUsage e s := rfl
theorem exec_queryTime e (s : State) : exec (.queryTime e) s = execQueryTime e s := rfl
theorem exec_unplace e (s : State) : exec (.unplace e) s = execUnplace e s := rfl
theorem exec_sqDoorbell (s : State) : exec .sqDoorbell s = execSqDoorbell s := rfl
theorem exec_cqDoorbell (s : State) : exec .cqDoorbell s = execCqDoorbell s := rfl
theorem exec_queueDescriptorWrite (s : State) : exec .queueDescriptorWrite s = execQueueDescriptorWrite s := rfl
theorem exec_invreqTranslation (s : State) : exec .invreqTranslation s = execInvreqTranslation s := rfl
theorem exec_invreqHandle (s : State) : exec .invreqHandle s = execInvreqHandle s := rfl
theorem exec_invreqBoth (s : State) : exec .invreqBoth s = execInvreqBoth s := rfl
theorem exec_vsrootWrite (s : State) : exec .vsrootWrite s = execVsrootWrite s := rfl
theorem exec_hsrootWrite (s : State) : exec .hsrootWrite s = execHsrootWrite s := rfl
theorem exec_windowDescriptorWrite (s : State) : exec .windowDescriptorWrite s = execWindowDescriptorWrite s := rfl
theorem exec_victlWrite (s : State) : exec .victlWrite s = execVictlWrite s := rfl
theorem exec_domctlRelease (s : State) : exec .domctlRelease s = execDomctlRelease s := rfl
theorem exec_domctlResume (s : State) : exec .domctlResume s = execDomctlResume s := rfl
theorem exec_domctlAbort (s : State) : exec .domctlAbort s = execDomctlAbort s := rfl
theorem exec_tilecmdWithdraw (s : State) : exec .tilecmdWithdraw s = execTilecmdWithdraw s := rfl
theorem exec_tilecmdAdmit (s : State) : exec .tilecmdAdmit s = execTilecmdAdmit s := rfl
theorem exec_tilecmdRestart (s : State) : exec .tilecmdRestart s = execTilecmdRestart s := rfl
theorem exec_tadjSlew (s : State) : exec .tadjSlew s = execTadjSlew s := rfl
theorem exec_tadjStep (s : State) : exec .tadjStep s = execTadjStep s := rfl
theorem exec_attestation (s : State) : exec .attestation s = execAttestation s := rfl
theorem exec_lnkctlWrite (s : State) : exec .lnkctlWrite s = execLnkctlWrite s := rfl
theorem exec_fwctlStart (s : State) : exec .fwctlStart s = execFwctlStart s := rfl
theorem exec_fwctlCommit (s : State) : exec .fwctlCommit s = execFwctlCommit s := rfl
theorem exec_fwctlRevert (s : State) : exec .fwctlRevert s = execFwctlRevert s := rfl
theorem exec_registerWrite (s : State) : exec .registerWrite s = execRegisterWrite s := rfl
theorem exec_codeTableApply tile ag (s : State) : exec (.codeTableApply tile ag) s = execCodeTableApply tile ag s := rfl
theorem exec_taskLaunch tile tag (s : State) : exec (.taskLaunch tile tag) s = execTaskLaunch tile tag s := rfl
theorem exec_tholdExpiry tile idx (s : State) : exec (.tholdExpiry tile idx) s = execTholdExpiry tile idx s := rfl
theorem exec_syscReply idx (s : State) : exec (.syscReply idx) s = execSyscReply idx s := rfl
theorem exec_hamperRecordArrival idx (s : State) : exec (.hamperRecordArrival idx) s = execHamperRecordArrival idx s := rfl
theorem exec_hamperAdmit pk (s : State) : exec (.hamperAdmit pk) s = execHamperAdmit pk s := rfl
theorem exec_hamperTimeout pk (s : State) : exec (.hamperTimeout pk) s = execHamperTimeout pk s := rfl
theorem exec_draftGroupTimeout pk seqSlot (s : State) : exec (.draftGroupTimeout pk seqSlot) s = execDraftGroupTimeout pk seqSlot s := rfl
theorem exec_hamperFire pk (s : State) : exec (.hamperFire pk) s = execHamperFire pk s := rfl
theorem exec_rotationSlot die (s : State) : exec (.rotationSlot die) s = execRotationSlot die s := rfl
theorem exec_routeTagDelivery idx (s : State) : exec (.routeTagDelivery idx) s = execRouteTagDelivery idx s := rfl
theorem exec_hamperStarved pk idx (s : State) : exec (.hamperStarved pk idx) s = execHamperStarved pk idx s := rfl
theorem exec_schedulerEvaluation anchor (s : State) : exec (.schedulerEvaluation anchor) s = execSchedulerEvaluation anchor s := rfl
theorem exec_preemption anchor (s : State) : exec (.preemption anchor) s = execPreemption anchor s := rfl
theorem exec_scaleLatch tile cell latch (s : State) : exec (.scaleLatch tile cell latch) s = execScaleLatch tile cell latch s := rfl
theorem exec_systolicBeat tile cell (s : State) : exec (.systolicBeat tile cell) s = execSystolicBeat tile cell s := rfl
theorem exec_ownerUpdateApply tile cell (s : State) : exec (.ownerUpdateApply tile cell) s = execOwnerUpdateApply tile cell s := rfl
theorem exec_orderingTokenEmit tile cell idx (s : State) : exec (.orderingTokenEmit tile cell idx) s = execOrderingTokenEmit tile cell idx s := rfl
theorem exec_spillRingRefill tile cell dir (s : State) : exec (.spillRingRefill tile cell dir) s = execSpillRingRefill tile cell dir s := rfl
theorem exec_cellSwitch tile cell (s : State) : exec (.cellSwitch tile cell) s = execCellSwitch tile cell s := rfl
theorem exec_lcuRelease tile slot body (s : State) : exec (.lcuRelease tile slot body) s = execLcuRelease tile slot body s := rfl
theorem exec_drainStall tile cell (s : State) : exec (.drainStall tile cell) s = execDrainStall tile cell s := rfl
theorem exec_regionStall anchor (s : State) : exec (.regionStall anchor) s = execRegionStall anchor s := rfl
theorem exec_streamStart tile ag (s : State) : exec (.streamStart tile ag) s = execStreamStart tile ag s := rfl
theorem exec_streamTransfer tile ag (s : State) : exec (.streamTransfer tile ag) s = execStreamTransfer tile ag s := rfl
theorem exec_streamCompletion tile ag (s : State) : exec (.streamCompletion tile ag) s = execStreamCompletion tile ag s := rfl
theorem exec_commandStart tile slot q (s : State) : exec (.commandStart tile slot q) s = execCommandStart tile slot q s := rfl
theorem exec_commandCompletion id (s : State) : exec (.commandCompletion id) s = execCommandCompletion id s := rfl
theorem exec_pageTimeout id (s : State) : exec (.pageTimeout id) s = execPageTimeout id s := rfl
theorem exec_collectiveResult id (s : State) : exec (.collectiveResult id) s = execCollectiveResult id s := rfl
theorem exec_collectiveTimeout id (s : State) : exec (.collectiveTimeout id) s = execCollectiveTimeout id s := rfl
theorem exec_wswitchDrained id (s : State) : exec (.wswitchDrained id) s = execWswitchDrained id s := rfl
theorem exec_switchWaiting id (s : State) : exec (.switchWaiting id) s = execSwitchWaiting id s := rfl
theorem exec_engineFailed stack channel (s : State) : exec (.engineFailed stack channel) s = execEngineFailed stack channel s := rfl
theorem exec_bankTransitionComplete tile bank (s : State) : exec (.bankTransitionComplete tile bank) s = execBankTransitionComplete tile bank s := rfl
theorem exec_cfglComplete tile (s : State) : exec (.cfglComplete tile) s = execCfglComplete tile s := rfl
theorem exec_timedLaunch idx (s : State) : exec (.timedLaunch idx) s = execTimedLaunch idx s := rfl
theorem exec_commandService vi (s : State) : exec (.commandService vi) s = execCommandService vi s := rfl
theorem exec_msixMessage vi vec (s : State) : exec (.msixMessage vi vec) s = execMsixMessage vi vec s := rfl
theorem exec_invalidationComplete vi (s : State) : exec (.invalidationComplete vi) s = execInvalidationComplete vi s := rfl
theorem exec_bar2Access r (s : State) : exec (.bar2Access r) s = execBar2Access r s := rfl
theorem exec_completionFlagForward port vi (s : State) : exec (.completionFlagForward port vi) s = execCompletionFlagForward port vi s := rfl
theorem exec_ackLost port vi (s : State) : exec (.ackLost port vi) s = execAckLost port vi s := rfl
theorem exec_hostReadTimeout vi sq (s : State) : exec (.hostReadTimeout vi sq) s = execHostReadTimeout vi sq s := rfl
theorem exec_hostPortDown port (s : State) : exec (.hostPortDown port) s = execHostPortDown port s := rfl
theorem exec_linkTrained port (s : State) : exec (.linkTrained port) s = execLinkTrained port s := rfl
theorem exec_linkTrainingLost port (s : State) : exec (.linkTrainingLost port) s = execLinkTrainingLost port s := rfl
theorem exec_flitDrop port pkg (s : State) : exec (.flitDrop port pkg) s = execFlitDrop port pkg s := rfl
theorem exec_remoteTimeout port pkg (s : State) : exec (.remoteTimeout port pkg) s = execRemoteTimeout port pkg s := rfl
theorem exec_atticLinkDown link (s : State) : exec (.atticLinkDown link) s = execAtticLinkDown link s := rfl
theorem exec_ptpMessage m (s : State) : exec (.ptpMessage m) s = execPtpMessage m s := rfl
theorem exec_timeSourceLost (s : State) : exec .timeSourceLost s = execTimeSourceLost s := rfl
theorem exec_timeRelock off (s : State) : exec (.timeRelock off) s = execTimeRelock off s := rfl
theorem exec_throttle watts (s : State) : exec (.throttle watts) s = execThrottle watts s := rfl
theorem exec_powerStateChange vi d3 (s : State) : exec (.powerStateChange vi d3) s = execPowerStateChange vi d3 s := rfl
theorem exec_boot (s : State) : exec .boot s = execBoot s := rfl
theorem exec_selfTest failed (s : State) : exec (.selfTest failed) s = execSelfTest failed s := rfl
theorem exec_canaryWindowEnd (s : State) : exec .canaryWindowEnd s = execCanaryWindowEnd s := rfl
theorem exec_heartbeatLost (s : State) : exec .heartbeatLost s = execHeartbeatLost s := rfl
theorem exec_canaryCommandHung (s : State) : exec .canaryCommandHung s = execCanaryCommandHung s := rfl
theorem exec_standbyAssertion (s : State) : exec .standbyAssertion s = execStandbyAssertion s := rfl
theorem exec_complexTakeover (s : State) : exec .complexTakeover s = execComplexTakeover s := rfl
theorem exec_standbyImageChecked (s : State) : exec .standbyImageChecked s = execStandbyImageChecked s := rfl
theorem exec_powerBelowCap watts (s : State) : exec (.powerBelowCap watts) s = execPowerBelowCap watts s := rfl
theorem exec_rotationSliceDelivery die (s : State) : exec (.rotationSliceDelivery die) s = execRotationSliceDelivery die s := rfl
theorem exec_collectiveContribution id idx (s : State) : exec (.collectiveContribution id idx) s = execCollectiveContribution id idx s := rfl

end Sys2Proof.Machine
end

