-- ==== Sys2Proof/Laws/Map.lean ====
section
/-! SUPPORT. What the operations of keyed collections do, said once. -/

namespace Sys2Proof

theorem find_insertKey_self {α : Type} (k : Nat) (v : α) (l : List (Nat × α)) :
    (insertKey k v l).find? (fun p => p.1 == k) = some (k, v) := by
  induction l with
  | nil => simp [insertKey]
  | cons p ps ih =>
    unfold insertKey
    split
    · simp
    · split
      · simp
      · next h => rw [List.find?_cons_of_neg (by simpa using fun e => h e.symm)]; exact ih

theorem find_insertKey_ne {α : Type} {k j : Nat} (h : j ≠ k) (v : α) (l : List (Nat × α)) :
    (insertKey k v l).find? (fun p => p.1 == j) = l.find? (fun p => p.1 == j) := by
  induction l with
  | nil => simp [insertKey, Ne.symm h]
  | cons p ps ih =>
    unfold insertKey
    split
    · rw [List.find?_cons_of_neg (by simpa using Ne.symm h)]
    · split
      · next e =>
        rw [List.find?_cons_of_neg (by simpa using Ne.symm h),
          List.find?_cons_of_neg (by simpa [← e] using Ne.symm h)]
      · rw [List.find?_cons, List.find?_cons, ih]

/-- A key just set holds its value. -/
@[simp] theorem KMap.find?_set_self {α : Type} (m : KMap α) (k : Nat) (v : α) : (m.set k v).find? k = some v := by
  simp [KMap.find?, KMap.set, find_insertKey_self]

/-- Setting a key leaves every other key alone. -/
@[simp] theorem KMap.find?_set_ne {α : Type} (m : KMap α) {k j : Nat} (h : j ≠ k) (v : α) :
    (m.set k v).find? j = m.find? j := by
  simp [KMap.find?, KMap.set, find_insertKey_ne h]

@[simp] theorem KMap.getD_set_self {α : Type} (m : KMap α) (k : Nat) (v d : α) : (m.set k v).getD k d = v := by
  simp [KMap.getD]

@[simp] theorem KMap.getD_set_ne {α : Type} (m : KMap α) {k j : Nat} (h : j ≠ k) (v d : α) :
    (m.set k v).getD j d = m.getD j d := by
  simp [KMap.getD, h]

@[simp] theorem KMap.getD_upd_self {α : Type} (m : KMap α) (k : Nat) (d : α) (f : α → α) (e : α) :
    (m.upd k d f).getD k e = f (m.getD k d) := by
  simp [KMap.upd]

@[simp] theorem KMap.getD_upd_ne {α : Type} (m : KMap α) {k j : Nat} (h : j ≠ k) (d : α) (f : α → α) (e : α) :
    (m.upd k d f).getD j e = m.getD j e := by
  simp [KMap.upd, h]

end Sys2Proof
end

