-- ==== Sys2Proof/Laws/Memory.lean ====
section
/-! SUPPORT. Byte memory: a read after a write, and the canonical form, which every memory operation keeps. -/

namespace Sys2Proof.Machine

theorem cellsWf_mono {lo hi : Nat} (h : lo ≤ hi) {l : List Host.Cell} (w : cellsWf hi l = true) : cellsWf lo l = true := by
  cases l with
  | nil => rfl
  | cons p ps =>
    simp only [cellsWf, Bool.and_eq_true, decide_eq_true_eq] at w ⊢
    exact ⟨⟨Nat.le_trans h w.1.1, w.1.2⟩, w.2⟩

theorem putCell_wf {lo a : Nat} (b : Byte) (ha : lo ≤ a) {l : List Host.Cell} (w : cellsWf lo l = true) :
    cellsWf lo (putCell a b l) = true := by
  induction l generalizing lo with
  | nil => unfold putCell; split <;> simp_all [cellsWf]
  | cons p ps ih =>
    have w' := w
    simp only [cellsWf, Bool.and_eq_true, decide_eq_true_eq] at w
    unfold putCell
    split
    · next hlt =>
      split
      · exact w'
      · next hb => simp only [cellsWf, Bool.and_eq_true, decide_eq_true_eq]; exact ⟨⟨ha, by simpa using hb⟩, ⟨hlt, w.1.2⟩, w.2⟩
    · split
      · next he =>
        split
        · exact cellsWf_mono (Nat.le_succ_of_le w.1.1) w.2
        · next hb =>
          simp only [cellsWf, Bool.and_eq_true, decide_eq_true_eq]
          exact ⟨⟨ha, by simpa using hb⟩, he ▸ w.2⟩
      · simp only [cellsWf, Bool.and_eq_true, decide_eq_true_eq]
        exact ⟨w.1, ih (by omega) w.2⟩

theorem filter_wf {lo : Nat} (q : Host.Cell → Bool) {l : List Host.Cell} (w : cellsWf lo l = true) :
    cellsWf lo (l.filter q) = true := by
  induction l generalizing lo with
  | nil => rfl
  | cons p ps ih =>
    simp only [cellsWf, Bool.and_eq_true, decide_eq_true_eq] at w
    by_cases h : q p
    · simp only [List.filter_cons, h, if_true, cellsWf, Bool.and_eq_true, decide_eq_true_eq]
      exact ⟨w.1, ih w.2⟩
    · simp only [List.filter_cons, h, Bool.false_eq_true, if_false]
      exact ih (cellsWf_mono (Nat.le_succ_of_le w.1.1) w.2)

/-- Writing one byte keeps the canonical form. -/
theorem Memory.set_wf {m : Memory} (a : Nat) (b : Byte) (h : m.wf = true) : (m.set a b).wf = true :=
  putCell_wf b (Nat.zero_le a) h

/-- Writing bytes keeps the canonical form. -/
theorem Memory.setAll_wf {m : Memory} (l : List (Nat × Byte)) (h : m.wf = true) : (m.setAll l).wf = true := by
  induction l generalizing m with
  | nil => exact h
  | cons p ps ih => exact ih (Memory.set_wf p.1 p.2 h)

/-- Writing consecutive bytes keeps the canonical form. -/
theorem Memory.setN_wf {m : Memory} (a : Nat) (l : List Byte) (h : m.wf = true) : (m.setN a l).wf = true :=
  Memory.setAll_wf _ h

/-- Clearing a range keeps the canonical form. -/
theorem Memory.clear_wf {m : Memory} (lo hi : Nat) (h : m.wf = true) : (m.clear lo hi).wf = true := filter_wf _ h

theorem getCell_above {lo a : Nat} {l : List Host.Cell} (w : cellsWf lo l = true) (h : a < lo) : getCell l a = 0 := by
  induction l generalizing lo with
  | nil => rfl
  | cons p ps ih =>
    simp only [cellsWf, Bool.and_eq_true, decide_eq_true_eq] at w
    simp only [getCell]
    rw [if_neg (by omega)]
    exact ih w.2 (by omega)

theorem getCell_putCell_self {lo a : Nat} (b : Byte) {l : List Host.Cell} (w : cellsWf lo l = true) :
    getCell (putCell a b l) a = b := by
  induction l generalizing lo with
  | nil => unfold putCell; split <;> simp_all [getCell]
  | cons p ps ih =>
    have w' := w
    simp only [cellsWf, Bool.and_eq_true, decide_eq_true_eq] at w
    unfold putCell
    split
    · next hlt =>
      split
      · next hb => rw [hb, getCell, if_neg (by omega)]; exact getCell_above w.2 (by omega)
      · simp [getCell]
    · split
      · next he =>
        split
        · next hb => rw [hb]; exact getCell_above w.2 (by omega)
        · simp [getCell]
      · next h1 h2 => rw [getCell, if_neg (fun e => h2 e.symm)]; exact ih w.2

theorem getCell_putCell_ne {a k : Nat} (h : k ≠ a) (b : Byte) (l : List Host.Cell) :
    getCell (putCell a b l) k = getCell l k := by
  induction l with
  | nil => unfold putCell; split <;> simp [getCell, Ne.symm h]
  | cons p ps ih =>
    unfold putCell
    split
    · split
      · rfl
      · simp [getCell, Ne.symm h]
    · split
      · next he =>
        have hp : p.1 ≠ k := fun e => h (e ▸ he.symm)
        split <;> simp [getCell, Ne.symm h, hp]
      · simp [getCell, ih]

/-- A byte just written reads as written. -/
theorem Memory.get_set_self {m : Memory} (a : Nat) (b : Byte) (h : m.wf = true) : (m.set a b).get a = b :=
  getCell_putCell_self b h

/-- A write leaves every other byte alone. -/
theorem Memory.get_set_ne (m : Memory) {a k : Nat} (h : k ≠ a) (b : Byte) : (m.set a b).get k = m.get k :=
  getCell_putCell_ne h b m.cells

/-- Writes leave every key that none of them names alone. -/
theorem Memory.get_setAll_ne (m : Memory) {k : Nat} {l : List (Nat × Byte)} (h : ∀ p ∈ l, p.1 ≠ k) :
    (m.setAll l).get k = m.get k := by
  induction l generalizing m with
  | nil => rfl
  | cons p ps ih =>
    have hp : k ≠ p.1 := fun e => h p (List.mem_cons_self ..) e.symm
    exact (ih (m.set p.1 p.2) (fun q hq => h q (List.mem_cons_of_mem _ hq))).trans (Memory.get_set_ne m hp p.2)

/-- A write of keys leaves the bytes of all other keys alone. -/
theorem State.byte_writeKeys (s : State) {ks : List Nat} (b : List Byte) {k : Nat} (h : k ∉ ks) :
    (s.writeKeys ks b).mem.get k = s.mem.get k := by
  refine Memory.get_setAll_ne s.mem (fun p hp e => h ?_)
  exact e ▸ (List.of_mem_zip hp).1

/-- A write of keys keeps the canonical form. -/
theorem State.writeKeys_wf {s : State} (ks : List Nat) (b : List Byte) (h : s.mem.wf = true) :
    (s.writeKeys ks b).mem.wf = true := Memory.setAll_wf _ h

/-- Clearing a bank keeps the canonical form. -/
theorem State.clearBank_wf {s : State} (t b : Nat) (h : s.mem.wf = true) : (s.clearBank t b).mem.wf = true :=
  Memory.clear_wf _ _ h

/-- The reset memory is canonical: it lists nothing. -/
theorem State.reset_wf : State.reset.mem.wf = true := rfl

end Sys2Proof.Machine
end

