-- ==== Sys2Proof/Laws/State.lean ====
section
/-! SUPPORT. What the named updates of the state leave alone, field by field, and what they set. -/

namespace Sys2Proof.Machine

/-! ### setTile -/

@[simp] theorem State.setTile_clk (s : State) (t : Nat) (x : Tile) : (s.setTile t x).clk = s.clk := rfl
@[simp] theorem State.setTile_sched (s : State) (t : Nat) (x : Tile) : (s.setTile t x).sched = s.sched := rfl
@[simp] theorem State.setTile_mem (s : State) (t : Nat) (x : Tile) : (s.setTile t x).mem = s.mem := rfl
@[simp] theorem State.setTile_bad (s : State) (t : Nat) (x : Tile) : (s.setTile t x).bad = s.bad := rfl
@[simp] theorem State.setTile_dieBad (s : State) (t : Nat) (x : Tile) : (s.setTile t x).dieBad = s.dieBad := rfl
@[simp] theorem State.setTile_die (s : State) (t : Nat) (x : Tile) : (s.setTile t x).die = s.die := rfl
@[simp] theorem State.setTile_tags (s : State) (t : Nat) (x : Tile) : (s.setTile t x).tags = s.tags := rfl
@[simp] theorem State.setTile_places (s : State) (t : Nat) (x : Tile) : (s.setTile t x).places = s.places := rfl
@[simp] theorem State.setTile_regions (s : State) (t : Nat) (x : Tile) : (s.setTile t x).regions = s.regions := rfl
@[simp] theorem State.setTile_rots (s : State) (t : Nat) (x : Tile) : (s.setTile t x).rots = s.rots := rfl
@[simp] theorem State.setTile_ops (s : State) (t : Nat) (x : Tile) : (s.setTile t x).ops = s.ops := rfl
@[simp] theorem State.setTile_rgs (s : State) (t : Nat) (x : Tile) : (s.setTile t x).rgs = s.rgs := rfl
@[simp] theorem State.setTile_net (s : State) (t : Nat) (x : Tile) : (s.setTile t x).net = s.net := rfl
@[simp] theorem State.setTile_stages (s : State) (t : Nat) (x : Tile) : (s.setTile t x).stages = s.stages := rfl
@[simp] theorem State.setTile_cmds (s : State) (t : Nat) (x : Tile) : (s.setTile t x).cmds = s.cmds := rfl
@[simp] theorem State.setTile_pool (s : State) (t : Nat) (x : Tile) : (s.setTile t x).pool = s.pool := rfl
@[simp] theorem State.setTile_syscs (s : State) (t : Nat) (x : Tile) : (s.setTile t x).syscs = s.syscs := rfl
@[simp] theorem State.setTile_vis (s : State) (t : Nat) (x : Tile) : (s.setTile t x).vis = s.vis := rfl
@[simp] theorem State.setTile_jobs (s : State) (t : Nat) (x : Tile) : (s.setTile t x).jobs = s.jobs := rfl
@[simp] theorem State.setTile_fe (s : State) (t : Nat) (x : Tile) : (s.setTile t x).fe = s.fe := rfl
@[simp] theorem State.setTile_dev (s : State) (t : Nat) (x : Tile) : (s.setTile t x).dev = s.dev := rfl
@[simp] theorem State.setTile_freed (s : State) (t : Nat) (x : Tile) : (s.setTile t x).freed = s.freed := rfl
@[simp] theorem State.setTile_copy (s : State) (t : Nat) (x : Tile) : (s.setTile t x).copy = s.copy := rfl
@[simp] theorem State.setTile_outs (s : State) (t : Nat) (x : Tile) : (s.setTile t x).outs = s.outs := rfl

/-! ### updTile -/

@[simp] theorem State.updTile_clk (s : State) (t : Nat) (f : Tile → Tile) : (s.updTile t f).clk = s.clk := rfl
@[simp] theorem State.updTile_sched (s : State) (t : Nat) (f : Tile → Tile) : (s.updTile t f).sched = s.sched := rfl
@[simp] theorem State.updTile_mem (s : State) (t : Nat) (f : Tile → Tile) : (s.updTile t f).mem = s.mem := rfl
@[simp] theorem State.updTile_bad (s : State) (t : Nat) (f : Tile → Tile) : (s.updTile t f).bad = s.bad := rfl
@[simp] theorem State.updTile_dieBad (s : State) (t : Nat) (f : Tile → Tile) : (s.updTile t f).dieBad = s.dieBad := rfl
@[simp] theorem State.updTile_die (s : State) (t : Nat) (f : Tile → Tile) : (s.updTile t f).die = s.die := rfl
@[simp] theorem State.updTile_tags (s : State) (t : Nat) (f : Tile → Tile) : (s.updTile t f).tags = s.tags := rfl
@[simp] theorem State.updTile_places (s : State) (t : Nat) (f : Tile → Tile) : (s.updTile t f).places = s.places := rfl
@[simp] theorem State.updTile_regions (s : State) (t : Nat) (f : Tile → Tile) : (s.updTile t f).regions = s.regions := rfl
@[simp] theorem State.updTile_rots (s : State) (t : Nat) (f : Tile → Tile) : (s.updTile t f).rots = s.rots := rfl
@[simp] theorem State.updTile_ops (s : State) (t : Nat) (f : Tile → Tile) : (s.updTile t f).ops = s.ops := rfl
@[simp] theorem State.updTile_rgs (s : State) (t : Nat) (f : Tile → Tile) : (s.updTile t f).rgs = s.rgs := rfl
@[simp] theorem State.updTile_net (s : State) (t : Nat) (f : Tile → Tile) : (s.updTile t f).net = s.net := rfl
@[simp] theorem State.updTile_stages (s : State) (t : Nat) (f : Tile → Tile) : (s.updTile t f).stages = s.stages := rfl
@[simp] theorem State.updTile_cmds (s : State) (t : Nat) (f : Tile → Tile) : (s.updTile t f).cmds = s.cmds := rfl
@[simp] theorem State.updTile_pool (s : State) (t : Nat) (f : Tile → Tile) : (s.updTile t f).pool = s.pool := rfl
@[simp] theorem State.updTile_syscs (s : State) (t : Nat) (f : Tile → Tile) : (s.updTile t f).syscs = s.syscs := rfl
@[simp] theorem State.updTile_vis (s : State) (t : Nat) (f : Tile → Tile) : (s.updTile t f).vis = s.vis := rfl
@[simp] theorem State.updTile_jobs (s : State) (t : Nat) (f : Tile → Tile) : (s.updTile t f).jobs = s.jobs := rfl
@[simp] theorem State.updTile_fe (s : State) (t : Nat) (f : Tile → Tile) : (s.updTile t f).fe = s.fe := rfl
@[simp] theorem State.updTile_dev (s : State) (t : Nat) (f : Tile → Tile) : (s.updTile t f).dev = s.dev := rfl
@[simp] theorem State.updTile_freed (s : State) (t : Nat) (f : Tile → Tile) : (s.updTile t f).freed = s.freed := rfl
@[simp] theorem State.updTile_copy (s : State) (t : Nat) (f : Tile → Tile) : (s.updTile t f).copy = s.copy := rfl
@[simp] theorem State.updTile_outs (s : State) (t : Nat) (f : Tile → Tile) : (s.updTile t f).outs = s.outs := rfl

/-! ### updCore -/

@[simp] theorem State.updCore_clk (s : State) (t : Nat) (f : Core → Core) : (s.updCore t f).clk = s.clk := rfl
@[simp] theorem State.updCore_sched (s : State) (t : Nat) (f : Core → Core) : (s.updCore t f).sched = s.sched := rfl
@[simp] theorem State.updCore_mem (s : State) (t : Nat) (f : Core → Core) : (s.updCore t f).mem = s.mem := rfl
@[simp] theorem State.updCore_bad (s : State) (t : Nat) (f : Core → Core) : (s.updCore t f).bad = s.bad := rfl
@[simp] theorem State.updCore_dieBad (s : State) (t : Nat) (f : Core → Core) : (s.updCore t f).dieBad = s.dieBad := rfl
@[simp] theorem State.updCore_die (s : State) (t : Nat) (f : Core → Core) : (s.updCore t f).die = s.die := rfl
@[simp] theorem State.updCore_tags (s : State) (t : Nat) (f : Core → Core) : (s.updCore t f).tags = s.tags := rfl
@[simp] theorem State.updCore_places (s : State) (t : Nat) (f : Core → Core) : (s.updCore t f).places = s.places := rfl
@[simp] theorem State.updCore_regions (s : State) (t : Nat) (f : Core → Core) : (s.updCore t f).regions = s.regions := rfl
@[simp] theorem State.updCore_rots (s : State) (t : Nat) (f : Core → Core) : (s.updCore t f).rots = s.rots := rfl
@[simp] theorem State.updCore_ops (s : State) (t : Nat) (f : Core → Core) : (s.updCore t f).ops = s.ops := rfl
@[simp] theorem State.updCore_rgs (s : State) (t : Nat) (f : Core → Core) : (s.updCore t f).rgs = s.rgs := rfl
@[simp] theorem State.updCore_net (s : State) (t : Nat) (f : Core → Core) : (s.updCore t f).net = s.net := rfl
@[simp] theorem State.updCore_stages (s : State) (t : Nat) (f : Core → Core) : (s.updCore t f).stages = s.stages := rfl
@[simp] theorem State.updCore_cmds (s : State) (t : Nat) (f : Core → Core) : (s.updCore t f).cmds = s.cmds := rfl
@[simp] theorem State.updCore_pool (s : State) (t : Nat) (f : Core → Core) : (s.updCore t f).pool = s.pool := rfl
@[simp] theorem State.updCore_syscs (s : State) (t : Nat) (f : Core → Core) : (s.updCore t f).syscs = s.syscs := rfl
@[simp] theorem State.updCore_vis (s : State) (t : Nat) (f : Core → Core) : (s.updCore t f).vis = s.vis := rfl
@[simp] theorem State.updCore_jobs (s : State) (t : Nat) (f : Core → Core) : (s.updCore t f).jobs = s.jobs := rfl
@[simp] theorem State.updCore_fe (s : State) (t : Nat) (f : Core → Core) : (s.updCore t f).fe = s.fe := rfl
@[simp] theorem State.updCore_dev (s : State) (t : Nat) (f : Core → Core) : (s.updCore t f).dev = s.dev := rfl
@[simp] theorem State.updCore_freed (s : State) (t : Nat) (f : Core → Core) : (s.updCore t f).freed = s.freed := rfl
@[simp] theorem State.updCore_copy (s : State) (t : Nat) (f : Core → Core) : (s.updCore t f).copy = s.copy := rfl
@[simp] theorem State.updCore_outs (s : State) (t : Nat) (f : Core → Core) : (s.updCore t f).outs = s.outs := rfl

/-! ### updCell -/

@[simp] theorem State.updCell_clk (s : State) (t c : Nat) (f : Cell → Cell) : (s.updCell t c f).clk = s.clk := rfl
@[simp] theorem State.updCell_sched (s : State) (t c : Nat) (f : Cell → Cell) : (s.updCell t c f).sched = s.sched := rfl
@[simp] theorem State.updCell_mem (s : State) (t c : Nat) (f : Cell → Cell) : (s.updCell t c f).mem = s.mem := rfl
@[simp] theorem State.updCell_bad (s : State) (t c : Nat) (f : Cell → Cell) : (s.updCell t c f).bad = s.bad := rfl
@[simp] theorem State.updCell_dieBad (s : State) (t c : Nat) (f : Cell → Cell) : (s.updCell t c f).dieBad = s.dieBad := rfl
@[simp] theorem State.updCell_die (s : State) (t c : Nat) (f : Cell → Cell) : (s.updCell t c f).die = s.die := rfl
@[simp] theorem State.updCell_tags (s : State) (t c : Nat) (f : Cell → Cell) : (s.updCell t c f).tags = s.tags := rfl
@[simp] theorem State.updCell_places (s : State) (t c : Nat) (f : Cell → Cell) : (s.updCell t c f).places = s.places := rfl
@[simp] theorem State.updCell_regions (s : State) (t c : Nat) (f : Cell → Cell) : (s.updCell t c f).regions = s.regions := rfl
@[simp] theorem State.updCell_rots (s : State) (t c : Nat) (f : Cell → Cell) : (s.updCell t c f).rots = s.rots := rfl
@[simp] theorem State.updCell_ops (s : State) (t c : Nat) (f : Cell → Cell) : (s.updCell t c f).ops = s.ops := rfl
@[simp] theorem State.updCell_rgs (s : State) (t c : Nat) (f : Cell → Cell) : (s.updCell t c f).rgs = s.rgs := rfl
@[simp] theorem State.updCell_net (s : State) (t c : Nat) (f : Cell → Cell) : (s.updCell t c f).net = s.net := rfl
@[simp] theorem State.updCell_stages (s : State) (t c : Nat) (f : Cell → Cell) : (s.updCell t c f).stages = s.stages := rfl
@[simp] theorem State.updCell_cmds (s : State) (t c : Nat) (f : Cell → Cell) : (s.updCell t c f).cmds = s.cmds := rfl
@[simp] theorem State.updCell_pool (s : State) (t c : Nat) (f : Cell → Cell) : (s.updCell t c f).pool = s.pool := rfl
@[simp] theorem State.updCell_syscs (s : State) (t c : Nat) (f : Cell → Cell) : (s.updCell t c f).syscs = s.syscs := rfl
@[simp] theorem State.updCell_vis (s : State) (t c : Nat) (f : Cell → Cell) : (s.updCell t c f).vis = s.vis := rfl
@[simp] theorem State.updCell_jobs (s : State) (t c : Nat) (f : Cell → Cell) : (s.updCell t c f).jobs = s.jobs := rfl
@[simp] theorem State.updCell_fe (s : State) (t c : Nat) (f : Cell → Cell) : (s.updCell t c f).fe = s.fe := rfl
@[simp] theorem State.updCell_dev (s : State) (t c : Nat) (f : Cell → Cell) : (s.updCell t c f).dev = s.dev := rfl
@[simp] theorem State.updCell_freed (s : State) (t c : Nat) (f : Cell → Cell) : (s.updCell t c f).freed = s.freed := rfl
@[simp] theorem State.updCell_copy (s : State) (t c : Nat) (f : Cell → Cell) : (s.updCell t c f).copy = s.copy := rfl
@[simp] theorem State.updCell_outs (s : State) (t c : Nat) (f : Cell → Cell) : (s.updCell t c f).outs = s.outs := rfl

/-! ### updAg -/

@[simp] theorem State.updAg_clk (s : State) (t a : Nat) (f : Ag → Ag) : (s.updAg t a f).clk = s.clk := rfl
@[simp] theorem State.updAg_sched (s : State) (t a : Nat) (f : Ag → Ag) : (s.updAg t a f).sched = s.sched := rfl
@[simp] theorem State.updAg_mem (s : State) (t a : Nat) (f : Ag → Ag) : (s.updAg t a f).mem = s.mem := rfl
@[simp] theorem State.updAg_bad (s : State) (t a : Nat) (f : Ag → Ag) : (s.updAg t a f).bad = s.bad := rfl
@[simp] theorem State.updAg_dieBad (s : State) (t a : Nat) (f : Ag → Ag) : (s.updAg t a f).dieBad = s.dieBad := rfl
@[simp] theorem State.updAg_die (s : State) (t a : Nat) (f : Ag → Ag) : (s.updAg t a f).die = s.die := rfl
@[simp] theorem State.updAg_tags (s : State) (t a : Nat) (f : Ag → Ag) : (s.updAg t a f).tags = s.tags := rfl
@[simp] theorem State.updAg_places (s : State) (t a : Nat) (f : Ag → Ag) : (s.updAg t a f).places = s.places := rfl
@[simp] theorem State.updAg_regions (s : State) (t a : Nat) (f : Ag → Ag) : (s.updAg t a f).regions = s.regions := rfl
@[simp] theorem State.updAg_rots (s : State) (t a : Nat) (f : Ag → Ag) : (s.updAg t a f).rots = s.rots := rfl
@[simp] theorem State.updAg_ops (s : State) (t a : Nat) (f : Ag → Ag) : (s.updAg t a f).ops = s.ops := rfl
@[simp] theorem State.updAg_rgs (s : State) (t a : Nat) (f : Ag → Ag) : (s.updAg t a f).rgs = s.rgs := rfl
@[simp] theorem State.updAg_net (s : State) (t a : Nat) (f : Ag → Ag) : (s.updAg t a f).net = s.net := rfl
@[simp] theorem State.updAg_stages (s : State) (t a : Nat) (f : Ag → Ag) : (s.updAg t a f).stages = s.stages := rfl
@[simp] theorem State.updAg_cmds (s : State) (t a : Nat) (f : Ag → Ag) : (s.updAg t a f).cmds = s.cmds := rfl
@[simp] theorem State.updAg_pool (s : State) (t a : Nat) (f : Ag → Ag) : (s.updAg t a f).pool = s.pool := rfl
@[simp] theorem State.updAg_syscs (s : State) (t a : Nat) (f : Ag → Ag) : (s.updAg t a f).syscs = s.syscs := rfl
@[simp] theorem State.updAg_vis (s : State) (t a : Nat) (f : Ag → Ag) : (s.updAg t a f).vis = s.vis := rfl
@[simp] theorem State.updAg_jobs (s : State) (t a : Nat) (f : Ag → Ag) : (s.updAg t a f).jobs = s.jobs := rfl
@[simp] theorem State.updAg_fe (s : State) (t a : Nat) (f : Ag → Ag) : (s.updAg t a f).fe = s.fe := rfl
@[simp] theorem State.updAg_dev (s : State) (t a : Nat) (f : Ag → Ag) : (s.updAg t a f).dev = s.dev := rfl
@[simp] theorem State.updAg_freed (s : State) (t a : Nat) (f : Ag → Ag) : (s.updAg t a f).freed = s.freed := rfl
@[simp] theorem State.updAg_copy (s : State) (t a : Nat) (f : Ag → Ag) : (s.updAg t a f).copy = s.copy := rfl
@[simp] theorem State.updAg_outs (s : State) (t a : Nat) (f : Ag → Ag) : (s.updAg t a f).outs = s.outs := rfl

/-! ### updBank -/

@[simp] theorem State.updBank_clk (s : State) (t b : Nat) (f : Bank → Bank) : (s.updBank t b f).clk = s.clk := rfl
@[simp] theorem State.updBank_sched (s : State) (t b : Nat) (f : Bank → Bank) : (s.updBank t b f).sched = s.sched := rfl
@[simp] theorem State.updBank_mem (s : State) (t b : Nat) (f : Bank → Bank) : (s.updBank t b f).mem = s.mem := rfl
@[simp] theorem State.updBank_bad (s : State) (t b : Nat) (f : Bank → Bank) : (s.updBank t b f).bad = s.bad := rfl
@[simp] theorem State.updBank_dieBad (s : State) (t b : Nat) (f : Bank → Bank) : (s.updBank t b f).dieBad = s.dieBad := rfl
@[simp] theorem State.updBank_die (s : State) (t b : Nat) (f : Bank → Bank) : (s.updBank t b f).die = s.die := rfl
@[simp] theorem State.updBank_tags (s : State) (t b : Nat) (f : Bank → Bank) : (s.updBank t b f).tags = s.tags := rfl
@[simp] theorem State.updBank_places (s : State) (t b : Nat) (f : Bank → Bank) : (s.updBank t b f).places = s.places := rfl
@[simp] theorem State.updBank_regions (s : State) (t b : Nat) (f : Bank → Bank) : (s.updBank t b f).regions = s.regions := rfl
@[simp] theorem State.updBank_rots (s : State) (t b : Nat) (f : Bank → Bank) : (s.updBank t b f).rots = s.rots := rfl
@[simp] theorem State.updBank_ops (s : State) (t b : Nat) (f : Bank → Bank) : (s.updBank t b f).ops = s.ops := rfl
@[simp] theorem State.updBank_rgs (s : State) (t b : Nat) (f : Bank → Bank) : (s.updBank t b f).rgs = s.rgs := rfl
@[simp] theorem State.updBank_net (s : State) (t b : Nat) (f : Bank → Bank) : (s.updBank t b f).net = s.net := rfl
@[simp] theorem State.updBank_stages (s : State) (t b : Nat) (f : Bank → Bank) : (s.updBank t b f).stages = s.stages := rfl
@[simp] theorem State.updBank_cmds (s : State) (t b : Nat) (f : Bank → Bank) : (s.updBank t b f).cmds = s.cmds := rfl
@[simp] theorem State.updBank_pool (s : State) (t b : Nat) (f : Bank → Bank) : (s.updBank t b f).pool = s.pool := rfl
@[simp] theorem State.updBank_syscs (s : State) (t b : Nat) (f : Bank → Bank) : (s.updBank t b f).syscs = s.syscs := rfl
@[simp] theorem State.updBank_vis (s : State) (t b : Nat) (f : Bank → Bank) : (s.updBank t b f).vis = s.vis := rfl
@[simp] theorem State.updBank_jobs (s : State) (t b : Nat) (f : Bank → Bank) : (s.updBank t b f).jobs = s.jobs := rfl
@[simp] theorem State.updBank_fe (s : State) (t b : Nat) (f : Bank → Bank) : (s.updBank t b f).fe = s.fe := rfl
@[simp] theorem State.updBank_dev (s : State) (t b : Nat) (f : Bank → Bank) : (s.updBank t b f).dev = s.dev := rfl
@[simp] theorem State.updBank_freed (s : State) (t b : Nat) (f : Bank → Bank) : (s.updBank t b f).freed = s.freed := rfl
@[simp] theorem State.updBank_copy (s : State) (t b : Nat) (f : Bank → Bank) : (s.updBank t b f).copy = s.copy := rfl
@[simp] theorem State.updBank_outs (s : State) (t b : Nat) (f : Bank → Bank) : (s.updBank t b f).outs = s.outs := rfl

/-! ### updOpr -/

@[simp] theorem State.updOpr_clk (s : State) (t n : Nat) (f : OpRegs → OpRegs) : (s.updOpr t n f).clk = s.clk := rfl
@[simp] theorem State.updOpr_sched (s : State) (t n : Nat) (f : OpRegs → OpRegs) : (s.updOpr t n f).sched = s.sched := rfl
@[simp] theorem State.updOpr_mem (s : State) (t n : Nat) (f : OpRegs → OpRegs) : (s.updOpr t n f).mem = s.mem := rfl
@[simp] theorem State.updOpr_bad (s : State) (t n : Nat) (f : OpRegs → OpRegs) : (s.updOpr t n f).bad = s.bad := rfl
@[simp] theorem State.updOpr_dieBad (s : State) (t n : Nat) (f : OpRegs → OpRegs) : (s.updOpr t n f).dieBad = s.dieBad := rfl
@[simp] theorem State.updOpr_die (s : State) (t n : Nat) (f : OpRegs → OpRegs) : (s.updOpr t n f).die = s.die := rfl
@[simp] theorem State.updOpr_tags (s : State) (t n : Nat) (f : OpRegs → OpRegs) : (s.updOpr t n f).tags = s.tags := rfl
@[simp] theorem State.updOpr_places (s : State) (t n : Nat) (f : OpRegs → OpRegs) : (s.updOpr t n f).places = s.places := rfl
@[simp] theorem State.updOpr_regions (s : State) (t n : Nat) (f : OpRegs → OpRegs) : (s.updOpr t n f).regions = s.regions := rfl
@[simp] theorem State.updOpr_rots (s : State) (t n : Nat) (f : OpRegs → OpRegs) : (s.updOpr t n f).rots = s.rots := rfl
@[simp] theorem State.updOpr_ops (s : State) (t n : Nat) (f : OpRegs → OpRegs) : (s.updOpr t n f).ops = s.ops := rfl
@[simp] theorem State.updOpr_rgs (s : State) (t n : Nat) (f : OpRegs → OpRegs) : (s.updOpr t n f).rgs = s.rgs := rfl
@[simp] theorem State.updOpr_net (s : State) (t n : Nat) (f : OpRegs → OpRegs) : (s.updOpr t n f).net = s.net := rfl
@[simp] theorem State.updOpr_stages (s : State) (t n : Nat) (f : OpRegs → OpRegs) : (s.updOpr t n f).stages = s.stages := rfl
@[simp] theorem State.updOpr_cmds (s : State) (t n : Nat) (f : OpRegs → OpRegs) : (s.updOpr t n f).cmds = s.cmds := rfl
@[simp] theorem State.updOpr_pool (s : State) (t n : Nat) (f : OpRegs → OpRegs) : (s.updOpr t n f).pool = s.pool := rfl
@[simp] theorem State.updOpr_syscs (s : State) (t n : Nat) (f : OpRegs → OpRegs) : (s.updOpr t n f).syscs = s.syscs := rfl
@[simp] theorem State.updOpr_vis (s : State) (t n : Nat) (f : OpRegs → OpRegs) : (s.updOpr t n f).vis = s.vis := rfl
@[simp] theorem State.updOpr_jobs (s : State) (t n : Nat) (f : OpRegs → OpRegs) : (s.updOpr t n f).jobs = s.jobs := rfl
@[simp] theorem State.updOpr_fe (s : State) (t n : Nat) (f : OpRegs → OpRegs) : (s.updOpr t n f).fe = s.fe := rfl
@[simp] theorem State.updOpr_dev (s : State) (t n : Nat) (f : OpRegs → OpRegs) : (s.updOpr t n f).dev = s.dev := rfl
@[simp] theorem State.updOpr_freed (s : State) (t n : Nat) (f : OpRegs → OpRegs) : (s.updOpr t n f).freed = s.freed := rfl
@[simp] theorem State.updOpr_copy (s : State) (t n : Nat) (f : OpRegs → OpRegs) : (s.updOpr t n f).copy = s.copy := rfl
@[simp] theorem State.updOpr_outs (s : State) (t n : Nat) (f : OpRegs → OpRegs) : (s.updOpr t n f).outs = s.outs := rfl

/-! ### setRun -/

@[simp] theorem State.setRun_clk (s : State) (t : Nat) (r : BlockRun) : (s.setRun t r).clk = s.clk := rfl
@[simp] theorem State.setRun_sched (s : State) (t : Nat) (r : BlockRun) : (s.setRun t r).sched = s.sched := rfl
@[simp] theorem State.setRun_mem (s : State) (t : Nat) (r : BlockRun) : (s.setRun t r).mem = s.mem := rfl
@[simp] theorem State.setRun_bad (s : State) (t : Nat) (r : BlockRun) : (s.setRun t r).bad = s.bad := rfl
@[simp] theorem State.setRun_dieBad (s : State) (t : Nat) (r : BlockRun) : (s.setRun t r).dieBad = s.dieBad := rfl
@[simp] theorem State.setRun_die (s : State) (t : Nat) (r : BlockRun) : (s.setRun t r).die = s.die := rfl
@[simp] theorem State.setRun_tags (s : State) (t : Nat) (r : BlockRun) : (s.setRun t r).tags = s.tags := rfl
@[simp] theorem State.setRun_places (s : State) (t : Nat) (r : BlockRun) : (s.setRun t r).places = s.places := rfl
@[simp] theorem State.setRun_regions (s : State) (t : Nat) (r : BlockRun) : (s.setRun t r).regions = s.regions := rfl
@[simp] theorem State.setRun_rots (s : State) (t : Nat) (r : BlockRun) : (s.setRun t r).rots = s.rots := rfl
@[simp] theorem State.setRun_ops (s : State) (t : Nat) (r : BlockRun) : (s.setRun t r).ops = s.ops := rfl
@[simp] theorem State.setRun_rgs (s : State) (t : Nat) (r : BlockRun) : (s.setRun t r).rgs = s.rgs := rfl
@[simp] theorem State.setRun_net (s : State) (t : Nat) (r : BlockRun) : (s.setRun t r).net = s.net := rfl
@[simp] theorem State.setRun_stages (s : State) (t : Nat) (r : BlockRun) : (s.setRun t r).stages = s.stages := rfl
@[simp] theorem State.setRun_cmds (s : State) (t : Nat) (r : BlockRun) : (s.setRun t r).cmds = s.cmds := rfl
@[simp] theorem State.setRun_pool (s : State) (t : Nat) (r : BlockRun) : (s.setRun t r).pool = s.pool := rfl
@[simp] theorem State.setRun_syscs (s : State) (t : Nat) (r : BlockRun) : (s.setRun t r).syscs = s.syscs := rfl
@[simp] theorem State.setRun_vis (s : State) (t : Nat) (r : BlockRun) : (s.setRun t r).vis = s.vis := rfl
@[simp] theorem State.setRun_jobs (s : State) (t : Nat) (r : BlockRun) : (s.setRun t r).jobs = s.jobs := rfl
@[simp] theorem State.setRun_fe (s : State) (t : Nat) (r : BlockRun) : (s.setRun t r).fe = s.fe := rfl
@[simp] theorem State.setRun_dev (s : State) (t : Nat) (r : BlockRun) : (s.setRun t r).dev = s.dev := rfl
@[simp] theorem State.setRun_freed (s : State) (t : Nat) (r : BlockRun) : (s.setRun t r).freed = s.freed := rfl
@[simp] theorem State.setRun_copy (s : State) (t : Nat) (r : BlockRun) : (s.setRun t r).copy = s.copy := rfl
@[simp] theorem State.setRun_outs (s : State) (t : Nat) (r : BlockRun) : (s.setRun t r).outs = s.outs := rfl

/-! ### updVi -/

@[simp] theorem State.updVi_clk (s : State) (v : Nat) (f : Vi → Vi) : (s.updVi v f).clk = s.clk := rfl
@[simp] theorem State.updVi_sched (s : State) (v : Nat) (f : Vi → Vi) : (s.updVi v f).sched = s.sched := rfl
@[simp] theorem State.updVi_mem (s : State) (v : Nat) (f : Vi → Vi) : (s.updVi v f).mem = s.mem := rfl
@[simp] theorem State.updVi_bad (s : State) (v : Nat) (f : Vi → Vi) : (s.updVi v f).bad = s.bad := rfl
@[simp] theorem State.updVi_dieBad (s : State) (v : Nat) (f : Vi → Vi) : (s.updVi v f).dieBad = s.dieBad := rfl
@[simp] theorem State.updVi_die (s : State) (v : Nat) (f : Vi → Vi) : (s.updVi v f).die = s.die := rfl
@[simp] theorem State.updVi_tags (s : State) (v : Nat) (f : Vi → Vi) : (s.updVi v f).tags = s.tags := rfl
@[simp] theorem State.updVi_tiles (s : State) (v : Nat) (f : Vi → Vi) : (s.updVi v f).tiles = s.tiles := rfl
@[simp] theorem State.updVi_places (s : State) (v : Nat) (f : Vi → Vi) : (s.updVi v f).places = s.places := rfl
@[simp] theorem State.updVi_regions (s : State) (v : Nat) (f : Vi → Vi) : (s.updVi v f).regions = s.regions := rfl
@[simp] theorem State.updVi_rots (s : State) (v : Nat) (f : Vi → Vi) : (s.updVi v f).rots = s.rots := rfl
@[simp] theorem State.updVi_ops (s : State) (v : Nat) (f : Vi → Vi) : (s.updVi v f).ops = s.ops := rfl
@[simp] theorem State.updVi_rgs (s : State) (v : Nat) (f : Vi → Vi) : (s.updVi v f).rgs = s.rgs := rfl
@[simp] theorem State.updVi_net (s : State) (v : Nat) (f : Vi → Vi) : (s.updVi v f).net = s.net := rfl
@[simp] theorem State.updVi_stages (s : State) (v : Nat) (f : Vi → Vi) : (s.updVi v f).stages = s.stages := rfl
@[simp] theorem State.updVi_cmds (s : State) (v : Nat) (f : Vi → Vi) : (s.updVi v f).cmds = s.cmds := rfl
@[simp] theorem State.updVi_pool (s : State) (v : Nat) (f : Vi → Vi) : (s.updVi v f).pool = s.pool := rfl
@[simp] theorem State.updVi_syscs (s : State) (v : Nat) (f : Vi → Vi) : (s.updVi v f).syscs = s.syscs := rfl
@[simp] theorem State.updVi_jobs (s : State) (v : Nat) (f : Vi → Vi) : (s.updVi v f).jobs = s.jobs := rfl
@[simp] theorem State.updVi_fe (s : State) (v : Nat) (f : Vi → Vi) : (s.updVi v f).fe = s.fe := rfl
@[simp] theorem State.updVi_dev (s : State) (v : Nat) (f : Vi → Vi) : (s.updVi v f).dev = s.dev := rfl
@[simp] theorem State.updVi_freed (s : State) (v : Nat) (f : Vi → Vi) : (s.updVi v f).freed = s.freed := rfl
@[simp] theorem State.updVi_copy (s : State) (v : Nat) (f : Vi → Vi) : (s.updVi v f).copy = s.copy := rfl
@[simp] theorem State.updVi_outs (s : State) (v : Nat) (f : Vi → Vi) : (s.updVi v f).outs = s.outs := rfl

/-! ### updJob -/

@[simp] theorem State.updJob_clk (s : State) (k : Nat) (f : Job → Job) : (s.updJob k f).clk = s.clk := rfl
@[simp] theorem State.updJob_sched (s : State) (k : Nat) (f : Job → Job) : (s.updJob k f).sched = s.sched := rfl
@[simp] theorem State.updJob_mem (s : State) (k : Nat) (f : Job → Job) : (s.updJob k f).mem = s.mem := rfl
@[simp] theorem State.updJob_bad (s : State) (k : Nat) (f : Job → Job) : (s.updJob k f).bad = s.bad := rfl
@[simp] theorem State.updJob_dieBad (s : State) (k : Nat) (f : Job → Job) : (s.updJob k f).dieBad = s.dieBad := rfl
@[simp] theorem State.updJob_die (s : State) (k : Nat) (f : Job → Job) : (s.updJob k f).die = s.die := rfl
@[simp] theorem State.updJob_tags (s : State) (k : Nat) (f : Job → Job) : (s.updJob k f).tags = s.tags := rfl
@[simp] theorem State.updJob_tiles (s : State) (k : Nat) (f : Job → Job) : (s.updJob k f).tiles = s.tiles := rfl
@[simp] theorem State.updJob_places (s : State) (k : Nat) (f : Job → Job) : (s.updJob k f).places = s.places := rfl
@[simp] theorem State.updJob_regions (s : State) (k : Nat) (f : Job → Job) : (s.updJob k f).regions = s.regions := rfl
@[simp] theorem State.updJob_rots (s : State) (k : Nat) (f : Job → Job) : (s.updJob k f).rots = s.rots := rfl
@[simp] theorem State.updJob_ops (s : State) (k : Nat) (f : Job → Job) : (s.updJob k f).ops = s.ops := rfl
@[simp] theorem State.updJob_rgs (s : State) (k : Nat) (f : Job → Job) : (s.updJob k f).rgs = s.rgs := rfl
@[simp] theorem State.updJob_net (s : State) (k : Nat) (f : Job → Job) : (s.updJob k f).net = s.net := rfl
@[simp] theorem State.updJob_stages (s : State) (k : Nat) (f : Job → Job) : (s.updJob k f).stages = s.stages := rfl
@[simp] theorem State.updJob_cmds (s : State) (k : Nat) (f : Job → Job) : (s.updJob k f).cmds = s.cmds := rfl
@[simp] theorem State.updJob_pool (s : State) (k : Nat) (f : Job → Job) : (s.updJob k f).pool = s.pool := rfl
@[simp] theorem State.updJob_syscs (s : State) (k : Nat) (f : Job → Job) : (s.updJob k f).syscs = s.syscs := rfl
@[simp] theorem State.updJob_vis (s : State) (k : Nat) (f : Job → Job) : (s.updJob k f).vis = s.vis := rfl
@[simp] theorem State.updJob_fe (s : State) (k : Nat) (f : Job → Job) : (s.updJob k f).fe = s.fe := rfl
@[simp] theorem State.updJob_dev (s : State) (k : Nat) (f : Job → Job) : (s.updJob k f).dev = s.dev := rfl
@[simp] theorem State.updJob_freed (s : State) (k : Nat) (f : Job → Job) : (s.updJob k f).freed = s.freed := rfl
@[simp] theorem State.updJob_copy (s : State) (k : Nat) (f : Job → Job) : (s.updJob k f).copy = s.copy := rfl
@[simp] theorem State.updJob_outs (s : State) (k : Nat) (f : Job → Job) : (s.updJob k f).outs = s.outs := rfl

/-! ### updRegion -/

@[simp] theorem State.updRegion_clk (s : State) (a : Nat) (f : Region → Region) : (s.updRegion a f).clk = s.clk := rfl
@[simp] theorem State.updRegion_sched (s : State) (a : Nat) (f : Region → Region) : (s.updRegion a f).sched = s.sched := rfl
@[simp] theorem State.updRegion_mem (s : State) (a : Nat) (f : Region → Region) : (s.updRegion a f).mem = s.mem := rfl
@[simp] theorem State.updRegion_bad (s : State) (a : Nat) (f : Region → Region) : (s.updRegion a f).bad = s.bad := rfl
@[simp] theorem State.updRegion_dieBad (s : State) (a : Nat) (f : Region → Region) : (s.updRegion a f).dieBad = s.dieBad := rfl
@[simp] theorem State.updRegion_die (s : State) (a : Nat) (f : Region → Region) : (s.updRegion a f).die = s.die := rfl
@[simp] theorem State.updRegion_tags (s : State) (a : Nat) (f : Region → Region) : (s.updRegion a f).tags = s.tags := rfl
@[simp] theorem State.updRegion_tiles (s : State) (a : Nat) (f : Region → Region) : (s.updRegion a f).tiles = s.tiles := rfl
@[simp] theorem State.updRegion_places (s : State) (a : Nat) (f : Region → Region) : (s.updRegion a f).places = s.places := rfl
@[simp] theorem State.updRegion_rots (s : State) (a : Nat) (f : Region → Region) : (s.updRegion a f).rots = s.rots := rfl
@[simp] theorem State.updRegion_ops (s : State) (a : Nat) (f : Region → Region) : (s.updRegion a f).ops = s.ops := rfl
@[simp] theorem State.updRegion_rgs (s : State) (a : Nat) (f : Region → Region) : (s.updRegion a f).rgs = s.rgs := rfl
@[simp] theorem State.updRegion_net (s : State) (a : Nat) (f : Region → Region) : (s.updRegion a f).net = s.net := rfl
@[simp] theorem State.updRegion_stages (s : State) (a : Nat) (f : Region → Region) : (s.updRegion a f).stages = s.stages := rfl
@[simp] theorem State.updRegion_cmds (s : State) (a : Nat) (f : Region → Region) : (s.updRegion a f).cmds = s.cmds := rfl
@[simp] theorem State.updRegion_pool (s : State) (a : Nat) (f : Region → Region) : (s.updRegion a f).pool = s.pool := rfl
@[simp] theorem State.updRegion_syscs (s : State) (a : Nat) (f : Region → Region) : (s.updRegion a f).syscs = s.syscs := rfl
@[simp] theorem State.updRegion_vis (s : State) (a : Nat) (f : Region → Region) : (s.updRegion a f).vis = s.vis := rfl
@[simp] theorem State.updRegion_jobs (s : State) (a : Nat) (f : Region → Region) : (s.updRegion a f).jobs = s.jobs := rfl
@[simp] theorem State.updRegion_fe (s : State) (a : Nat) (f : Region → Region) : (s.updRegion a f).fe = s.fe := rfl
@[simp] theorem State.updRegion_dev (s : State) (a : Nat) (f : Region → Region) : (s.updRegion a f).dev = s.dev := rfl
@[simp] theorem State.updRegion_freed (s : State) (a : Nat) (f : Region → Region) : (s.updRegion a f).freed = s.freed := rfl
@[simp] theorem State.updRegion_copy (s : State) (a : Nat) (f : Region → Region) : (s.updRegion a f).copy = s.copy := rfl
@[simp] theorem State.updRegion_outs (s : State) (a : Nat) (f : Region → Region) : (s.updRegion a f).outs = s.outs := rfl

/-! ### updStage -/

@[simp] theorem State.updStage_clk (s : State) (k : Nat) (f : Stage → Stage) : (s.updStage k f).clk = s.clk := rfl
@[simp] theorem State.updStage_sched (s : State) (k : Nat) (f : Stage → Stage) : (s.updStage k f).sched = s.sched := rfl
@[simp] theorem State.updStage_mem (s : State) (k : Nat) (f : Stage → Stage) : (s.updStage k f).mem = s.mem := rfl
@[simp] theorem State.updStage_bad (s : State) (k : Nat) (f : Stage → Stage) : (s.updStage k f).bad = s.bad := rfl
@[simp] theorem State.updStage_dieBad (s : State) (k : Nat) (f : Stage → Stage) : (s.updStage k f).dieBad = s.dieBad := rfl
@[simp] theorem State.updStage_die (s : State) (k : Nat) (f : Stage → Stage) : (s.updStage k f).die = s.die := rfl
@[simp] theorem State.updStage_tags (s : State) (k : Nat) (f : Stage → Stage) : (s.updStage k f).tags = s.tags := rfl
@[simp] theorem State.updStage_tiles (s : State) (k : Nat) (f : Stage → Stage) : (s.updStage k f).tiles = s.tiles := rfl
@[simp] theorem State.updStage_places (s : State) (k : Nat) (f : Stage → Stage) : (s.updStage k f).places = s.places := rfl
@[simp] theorem State.updStage_regions (s : State) (k : Nat) (f : Stage → Stage) : (s.updStage k f).regions = s.regions := rfl
@[simp] theorem State.updStage_rots (s : State) (k : Nat) (f : Stage → Stage) : (s.updStage k f).rots = s.rots := rfl
@[simp] theorem State.updStage_ops (s : State) (k : Nat) (f : Stage → Stage) : (s.updStage k f).ops = s.ops := rfl
@[simp] theorem State.updStage_rgs (s : State) (k : Nat) (f : Stage → Stage) : (s.updStage k f).rgs = s.rgs := rfl
@[simp] theorem State.updStage_net (s : State) (k : Nat) (f : Stage → Stage) : (s.updStage k f).net = s.net := rfl
@[simp] theorem State.updStage_cmds (s : State) (k : Nat) (f : Stage → Stage) : (s.updStage k f).cmds = s.cmds := rfl
@[simp] theorem State.updStage_pool (s : State) (k : Nat) (f : Stage → Stage) : (s.updStage k f).pool = s.pool := rfl
@[simp] theorem State.updStage_syscs (s : State) (k : Nat) (f : Stage → Stage) : (s.updStage k f).syscs = s.syscs := rfl
@[simp] theorem State.updStage_vis (s : State) (k : Nat) (f : Stage → Stage) : (s.updStage k f).vis = s.vis := rfl
@[simp] theorem State.updStage_jobs (s : State) (k : Nat) (f : Stage → Stage) : (s.updStage k f).jobs = s.jobs := rfl
@[simp] theorem State.updStage_fe (s : State) (k : Nat) (f : Stage → Stage) : (s.updStage k f).fe = s.fe := rfl
@[simp] theorem State.updStage_dev (s : State) (k : Nat) (f : Stage → Stage) : (s.updStage k f).dev = s.dev := rfl
@[simp] theorem State.updStage_freed (s : State) (k : Nat) (f : Stage → Stage) : (s.updStage k f).freed = s.freed := rfl
@[simp] theorem State.updStage_copy (s : State) (k : Nat) (f : Stage → Stage) : (s.updStage k f).copy = s.copy := rfl
@[simp] theorem State.updStage_outs (s : State) (k : Nat) (f : Stage → Stage) : (s.updStage k f).outs = s.outs := rfl

/-! ### updDev -/

@[simp] theorem State.updDev_clk (s : State) (f : Dev → Dev) : (s.updDev f).clk = s.clk := rfl
@[simp] theorem State.updDev_sched (s : State) (f : Dev → Dev) : (s.updDev f).sched = s.sched := rfl
@[simp] theorem State.updDev_mem (s : State) (f : Dev → Dev) : (s.updDev f).mem = s.mem := rfl
@[simp] theorem State.updDev_bad (s : State) (f : Dev → Dev) : (s.updDev f).bad = s.bad := rfl
@[simp] theorem State.updDev_dieBad (s : State) (f : Dev → Dev) : (s.updDev f).dieBad = s.dieBad := rfl
@[simp] theorem State.updDev_die (s : State) (f : Dev → Dev) : (s.updDev f).die = s.die := rfl
@[simp] theorem State.updDev_tags (s : State) (f : Dev → Dev) : (s.updDev f).tags = s.tags := rfl
@[simp] theorem State.updDev_tiles (s : State) (f : Dev → Dev) : (s.updDev f).tiles = s.tiles := rfl
@[simp] theorem State.updDev_places (s : State) (f : Dev → Dev) : (s.updDev f).places = s.places := rfl
@[simp] theorem State.updDev_regions (s : State) (f : Dev → Dev) : (s.updDev f).regions = s.regions := rfl
@[simp] theorem State.updDev_rots (s : State) (f : Dev → Dev) : (s.updDev f).rots = s.rots := rfl
@[simp] theorem State.updDev_ops (s : State) (f : Dev → Dev) : (s.updDev f).ops = s.ops := rfl
@[simp] theorem State.updDev_rgs (s : State) (f : Dev → Dev) : (s.updDev f).rgs = s.rgs := rfl
@[simp] theorem State.updDev_net (s : State) (f : Dev → Dev) : (s.updDev f).net = s.net := rfl
@[simp] theorem State.updDev_stages (s : State) (f : Dev → Dev) : (s.updDev f).stages = s.stages := rfl
@[simp] theorem State.updDev_cmds (s : State) (f : Dev → Dev) : (s.updDev f).cmds = s.cmds := rfl
@[simp] theorem State.updDev_pool (s : State) (f : Dev → Dev) : (s.updDev f).pool = s.pool := rfl
@[simp] theorem State.updDev_syscs (s : State) (f : Dev → Dev) : (s.updDev f).syscs = s.syscs := rfl
@[simp] theorem State.updDev_vis (s : State) (f : Dev → Dev) : (s.updDev f).vis = s.vis := rfl
@[simp] theorem State.updDev_jobs (s : State) (f : Dev → Dev) : (s.updDev f).jobs = s.jobs := rfl
@[simp] theorem State.updDev_fe (s : State) (f : Dev → Dev) : (s.updDev f).fe = s.fe := rfl
@[simp] theorem State.updDev_freed (s : State) (f : Dev → Dev) : (s.updDev f).freed = s.freed := rfl
@[simp] theorem State.updDev_copy (s : State) (f : Dev → Dev) : (s.updDev f).copy = s.copy := rfl
@[simp] theorem State.updDev_outs (s : State) (f : Dev → Dev) : (s.updDev f).outs = s.outs := rfl

/-! ### updRg -/

@[simp] theorem State.updRg_clk (s : State) (k : Nat) (f : RowGroup → RowGroup) : (s.updRg k f).clk = s.clk := by
  unfold State.updRg; split <;> rfl
@[simp] theorem State.updRg_sched (s : State) (k : Nat) (f : RowGroup → RowGroup) : (s.updRg k f).sched = s.sched := by
  unfold State.updRg; split <;> rfl
@[simp] theorem State.updRg_mem (s : State) (k : Nat) (f : RowGroup → RowGroup) : (s.updRg k f).mem = s.mem := by
  unfold State.updRg; split <;> rfl
@[simp] theorem State.updRg_bad (s : State) (k : Nat) (f : RowGroup → RowGroup) : (s.updRg k f).bad = s.bad := by
  unfold State.updRg; split <;> rfl
@[simp] theorem State.updRg_dieBad (s : State) (k : Nat) (f : RowGroup → RowGroup) : (s.updRg k f).dieBad = s.dieBad := by
  unfold State.updRg; split <;> rfl
@[simp] theorem State.updRg_die (s : State) (k : Nat) (f : RowGroup → RowGroup) : (s.updRg k f).die = s.die := by
  unfold State.updRg; split <;> rfl
@[simp] theorem State.updRg_tags (s : State) (k : Nat) (f : RowGroup → RowGroup) : (s.updRg k f).tags = s.tags := by
  unfold State.updRg; split <;> rfl
@[simp] theorem State.updRg_tiles (s : State) (k : Nat) (f : RowGroup → RowGroup) : (s.updRg k f).tiles = s.tiles := by
  unfold State.updRg; split <;> rfl
@[simp] theorem State.updRg_places (s : State) (k : Nat) (f : RowGroup → RowGroup) : (s.updRg k f).places = s.places := by
  unfold State.updRg; split <;> rfl
@[simp] theorem State.updRg_regions (s : State) (k : Nat) (f : RowGroup → RowGroup) : (s.updRg k f).regions = s.regions := by
  unfold State.updRg; split <;> rfl
@[simp] theorem State.updRg_rots (s : State) (k : Nat) (f : RowGroup → RowGroup) : (s.updRg k f).rots = s.rots := by
  unfold State.updRg; split <;> rfl
@[simp] theorem State.updRg_ops (s : State) (k : Nat) (f : RowGroup → RowGroup) : (s.updRg k f).ops = s.ops := by
  unfold State.updRg; split <;> rfl
@[simp] theorem State.updRg_net (s : State) (k : Nat) (f : RowGroup → RowGroup) : (s.updRg k f).net = s.net := by
  unfold State.updRg; split <;> rfl
@[simp] theorem State.updRg_stages (s : State) (k : Nat) (f : RowGroup → RowGroup) : (s.updRg k f).stages = s.stages := by
  unfold State.updRg; split <;> rfl
@[simp] theorem State.updRg_cmds (s : State) (k : Nat) (f : RowGroup → RowGroup) : (s.updRg k f).cmds = s.cmds := by
  unfold State.updRg; split <;> rfl
@[simp] theorem State.updRg_pool (s : State) (k : Nat) (f : RowGroup → RowGroup) : (s.updRg k f).pool = s.pool := by
  unfold State.updRg; split <;> rfl
@[simp] theorem State.updRg_syscs (s : State) (k : Nat) (f : RowGroup → RowGroup) : (s.updRg k f).syscs = s.syscs := by
  unfold State.updRg; split <;> rfl
@[simp] theorem State.updRg_vis (s : State) (k : Nat) (f : RowGroup → RowGroup) : (s.updRg k f).vis = s.vis := by
  unfold State.updRg; split <;> rfl
@[simp] theorem State.updRg_jobs (s : State) (k : Nat) (f : RowGroup → RowGroup) : (s.updRg k f).jobs = s.jobs := by
  unfold State.updRg; split <;> rfl
@[simp] theorem State.updRg_fe (s : State) (k : Nat) (f : RowGroup → RowGroup) : (s.updRg k f).fe = s.fe := by
  unfold State.updRg; split <;> rfl
@[simp] theorem State.updRg_dev (s : State) (k : Nat) (f : RowGroup → RowGroup) : (s.updRg k f).dev = s.dev := by
  unfold State.updRg; split <;> rfl
@[simp] theorem State.updRg_freed (s : State) (k : Nat) (f : RowGroup → RowGroup) : (s.updRg k f).freed = s.freed := by
  unfold State.updRg; split <;> rfl
@[simp] theorem State.updRg_copy (s : State) (k : Nat) (f : RowGroup → RowGroup) : (s.updRg k f).copy = s.copy := by
  unfold State.updRg; split <;> rfl
@[simp] theorem State.updRg_outs (s : State) (k : Nat) (f : RowGroup → RowGroup) : (s.updRg k f).outs = s.outs := by
  unfold State.updRg; split <;> rfl

/-! ### updPlace -/

@[simp] theorem State.updPlace_clk (s : State) (k : Nat) (f : Placement → Placement) : (s.updPlace k f).clk = s.clk := by
  unfold State.updPlace; split <;> rfl
@[simp] theorem State.updPlace_sched (s : State) (k : Nat) (f : Placement → Placement) : (s.updPlace k f).sched = s.sched := by
  unfold State.updPlace; split <;> rfl
@[simp] theorem State.updPlace_mem (s : State) (k : Nat) (f : Placement → Placement) : (s.updPlace k f).mem = s.mem := by
  unfold State.updPlace; split <;> rfl
@[simp] theorem State.updPlace_bad (s : State) (k : Nat) (f : Placement → Placement) : (s.updPlace k f).bad = s.bad := by
  unfold State.updPlace; split <;> rfl
@[simp] theorem State.updPlace_dieBad (s : State) (k : Nat) (f : Placement → Placement) : (s.updPlace k f).dieBad = s.dieBad := by
  unfold State.updPlace; split <;> rfl
@[simp] theorem State.updPlace_die (s : State) (k : Nat) (f : Placement → Placement) : (s.updPlace k f).die = s.die := by
  unfold State.updPlace; split <;> rfl
@[simp] theorem State.updPlace_tags (s : State) (k : Nat) (f : Placement → Placement) : (s.updPlace k f).tags = s.tags := by
  unfold State.updPlace; split <;> rfl
@[simp] theorem State.updPlace_tiles (s : State) (k : Nat) (f : Placement → Placement) : (s.updPlace k f).tiles = s.tiles := by
  unfold State.updPlace; split <;> rfl
@[simp] theorem State.updPlace_regions (s : State) (k : Nat) (f : Placement → Placement) : (s.updPlace k f).regions = s.regions := by
  unfold State.updPlace; split <;> rfl
@[simp] theorem State.updPlace_rots (s : State) (k : Nat) (f : Placement → Placement) : (s.updPlace k f).rots = s.rots := by
  unfold State.updPlace; split <;> rfl
@[simp] theorem State.updPlace_ops (s : State) (k : Nat) (f : Placement → Placement) : (s.updPlace k f).ops = s.ops := by
  unfold State.updPlace; split <;> rfl
@[simp] theorem State.updPlace_rgs (s : State) (k : Nat) (f : Placement → Placement) : (s.updPlace k f).rgs = s.rgs := by
  unfold State.updPlace; split <;> rfl
@[simp] theorem State.updPlace_net (s : State) (k : Nat) (f : Placement → Placement) : (s.updPlace k f).net = s.net := by
  unfold State.updPlace; split <;> rfl
@[simp] theorem State.updPlace_stages (s : State) (k : Nat) (f : Placement → Placement) : (s.updPlace k f).stages = s.stages := by
  unfold State.updPlace; split <;> rfl
@[simp] theorem State.updPlace_cmds (s : State) (k : Nat) (f : Placement → Placement) : (s.updPlace k f).cmds = s.cmds := by
  unfold State.updPlace; split <;> rfl
@[simp] theorem State.updPlace_pool (s : State) (k : Nat) (f : Placement → Placement) : (s.updPlace k f).pool = s.pool := by
  unfold State.updPlace; split <;> rfl
@[simp] theorem State.updPlace_syscs (s : State) (k : Nat) (f : Placement → Placement) : (s.updPlace k f).syscs = s.syscs := by
  unfold State.updPlace; split <;> rfl
@[simp] theorem State.updPlace_vis (s : State) (k : Nat) (f : Placement → Placement) : (s.updPlace k f).vis = s.vis := by
  unfold State.updPlace; split <;> rfl
@[simp] theorem State.updPlace_jobs (s : State) (k : Nat) (f : Placement → Placement) : (s.updPlace k f).jobs = s.jobs := by
  unfold State.updPlace; split <;> rfl
@[simp] theorem State.updPlace_fe (s : State) (k : Nat) (f : Placement → Placement) : (s.updPlace k f).fe = s.fe := by
  unfold State.updPlace; split <;> rfl
@[simp] theorem State.updPlace_dev (s : State) (k : Nat) (f : Placement → Placement) : (s.updPlace k f).dev = s.dev := by
  unfold State.updPlace; split <;> rfl
@[simp] theorem State.updPlace_freed (s : State) (k : Nat) (f : Placement → Placement) : (s.updPlace k f).freed = s.freed := by
  unfold State.updPlace; split <;> rfl
@[simp] theorem State.updPlace_copy (s : State) (k : Nat) (f : Placement → Placement) : (s.updPlace k f).copy = s.copy := by
  unfold State.updPlace; split <;> rfl
@[simp] theorem State.updPlace_outs (s : State) (k : Nat) (f : Placement → Placement) : (s.updPlace k f).outs = s.outs := by
  unfold State.updPlace; split <;> rfl

/-! ### What they set -/

@[simp] theorem State.tile_setTile_self (s : State) (t : Nat) (x : Tile) : (s.setTile t x).tile t = x := by
  simp [State.tile, State.setTile]

@[simp] theorem State.tile_setTile_ne (s : State) {t u : Nat} (h : u ≠ t) (x : Tile) : (s.setTile t x).tile u = s.tile u := by
  simp [State.tile, State.setTile, h]

@[simp] theorem State.tile_updTile_self (s : State) (t : Nat) (f : Tile → Tile) : (s.updTile t f).tile t = f (s.tile t) := by
  simp [State.updTile]

@[simp] theorem State.tile_updTile_ne (s : State) {t u : Nat} (h : u ≠ t) (f : Tile → Tile) :
    (s.updTile t f).tile u = s.tile u := by
  simp [State.updTile, h]

@[simp] theorem State.tile_updCore_self (s : State) (t : Nat) (f : Core → Core) :
    (s.updCore t f).tile t = { s.tile t with core := f (s.core t) } := by
  simp [State.updCore, State.core]

@[simp] theorem State.tile_updCore_ne (s : State) {t u : Nat} (h : u ≠ t) (f : Core → Core) :
    (s.updCore t f).tile u = s.tile u := by
  simp [State.updCore, h]

@[simp] theorem State.core_updCore_self (s : State) (t : Nat) (f : Core → Core) : (s.updCore t f).core t = f (s.core t) := by
  simp [State.core, State.updCore]

@[simp] theorem State.core_setRun_self (s : State) (t : Nat) (r : BlockRun) :
    (s.setRun t r).core t = { s.core t with run := some r } := by
  simp [State.setRun]

@[simp] theorem State.tile_setRun_ne (s : State) {t u : Nat} (h : u ≠ t) (r : BlockRun) : (s.setRun t r).tile u = s.tile u := by
  simp [State.setRun, h]

@[simp] theorem State.cellAt_updCell_self (s : State) (t c : Nat) (f : Cell → Cell) :
    (s.updCell t c f).cellAt t c = f (s.cellAt t c) := by
  simp [State.cellAt, State.updCell, Tile.cell]

@[simp] theorem State.cellAt_updCell_ne (s : State) (t : Nat) {c d : Nat} (h : d ≠ c) (f : Cell → Cell) :
    (s.updCell t c f).cellAt t d = s.cellAt t d := by
  simp [State.cellAt, State.updCell, Tile.cell, h]

@[simp] theorem State.core_updCell (s : State) (t c u : Nat) (f : Cell → Cell) : (s.updCell t c f).core u = s.core u := by
  by_cases h : u = t
  · subst h; simp [State.core, State.updCell]
  · simp [State.core, State.updCell, h]

@[simp] theorem State.vi_updVi_self (s : State) (v : Nat) (f : Vi → Vi) : (s.updVi v f).vi v = f (s.vi v) := by
  simp [State.vi, State.updVi]

@[simp] theorem State.vi_updVi_ne (s : State) {v u : Nat} (h : u ≠ v) (f : Vi → Vi) : (s.updVi v f).vi u = s.vi u := by
  simp [State.vi, State.updVi, h]

@[simp] theorem State.region_updRegion_self (s : State) (a : Nat) (f : Region → Region) :
    (s.updRegion a f).region a = f (s.region a) := by
  simp [State.region, State.updRegion]

@[simp] theorem State.dev_updDev (s : State) (f : Dev → Dev) : (s.updDev f).dev = f s.dev := rfl

end Sys2Proof.Machine
end

