-- ==== Sys2Proof/Laws/Words.lean ====
section
/-! SUPPORT. What the shared operations of tile-core words answer while a block runs. -/

namespace Sys2Proof.Machine

/-- While block r runs in the focused core, a meaning is what it does with r. -/
theorem withRun_runs {s : State} {t : Nat} {r : BlockRun} (h : s.Runs t r) (f : Nat → BlockRun → Out) :
    withRun s f = f t r := by
  obtain ⟨h1, h2⟩ := h
  unfold withRun; rw [h1, h2]

theorem putReg_mayWrite {s : State} {t : Nat} {r : BlockRun} {d : Nat} (hm : r.mayWrite d) (v : Word) :
    s.putReg t r d v = s.ranTo t (r.wrote d v) := by
  unfold State.putReg; rw [hm]; rfl

theorem putReg_again {s : State} {t : Nat} {r : BlockRun} {d : Nat} (h1 : r.writeMask.getLsbD d = true)
    (h2 : r.written.getLsbD d = true) (v : Word) : s.putReg t r d v = s.blockTrap t r 1 0 0x3F r.word 0 := by
  unfold State.putReg; rw [h1, h2]; rfl

theorem regOp_runs {s : State} {t : Nat} {r : BlockRun} {d : Nat} (h : s.Runs t r) (hm : r.mayWrite d) (a b : Nat)
    (f : Word → Word → Word) : regOp d a b f s = .next (s.ranTo t (r.wrote d (f (r.reg a) (r.reg b)))) := by
  unfold regOp; rw [withRun_runs h, putReg_mayWrite hm]

theorem immOp_runs {s : State} {t : Nat} {r : BlockRun} {d : Nat} (h : s.Runs t r) (hm : r.mayWrite d) (a i : Nat)
    (f : Word → Word → Word) : immOp d a i f s = .next (s.ranTo t (r.wrote d (f (r.reg a) (r.imm i)))) := by
  unfold immOp; rw [withRun_runs h, putReg_mayWrite hm]

theorem heldOp_runs {s : State} {t : Nat} {r : BlockRun} (h : s.Runs t r) (e : BlockRun → Effect) :
    heldOp e s = .next (s.holdEffect t r (e r)) := by
  unfold heldOp; rw [withRun_runs h]

theorem produce_mayProduce {s : State} {t : Nat} {r : BlockRun} {l : Nat} (hm : r.mayProduce l) (k : BlockRun → State) :
    s.produce t r l k = k { r with produced := r.produced ||| BitVec.ofNat 32 (2 ^ l) } := by
  unfold State.produce; rw [hm]; rfl

theorem produce_again {s : State} {t : Nat} {r : BlockRun} {l : Nat} (h1 : r.storeMask.getLsbD l = true)
    (h2 : r.produced.getLsbD l = true) (k : BlockRun → State) : s.produce t r l k = s.blockTrap t r 1 0 l r.word 0 := by
  unfold State.produce; rw [h1, h2]; rfl

theorem markReg_mayWrite {s : State} {t : Nat} {r : BlockRun} {d : Nat} (hm : r.mayWrite d) :
    s.markReg t r d = s.advance t { r with written := r.written ||| BitVec.ofNat 32 (2 ^ d) } := by
  unfold State.markReg; rw [hm]; rfl

/-- A slot that is ready performs its instruction. -/
theorem fire_ready {s : State} {op : Nat} {f : CellF} (h : s.slotReady (s.firing op f) = true)
    (act : State → Firing → State) : fire op f act s = .next (act s (s.firing op f)) := by
  unfold fire; simp only [h, if_true]

/-- A slot that is not ready waits. -/
theorem fire_waits {s : State} {op : Nat} {f : CellF} (h : s.slotReady (s.firing op f) = false)
    (act : State → Firing → State) : fire op f act s = .next (s.noteRings (s.firing op f)) := by
  unfold fire; simp [h]

end Sys2Proof.Machine
end

