-- ==== Sys2Proof/Tests/Slice0.lean ====
section
/-! SUPPORT. Tests and witnesses: words of the spec decoded, ill-formed terms refused, one step of instructions on small
states, and for each obligation with hypotheses a state and operands that meet them. -/

set_option linter.unusedVariables false
set_option maxRecDepth 8000
set_option Elab.async false

namespace Sys2Proof.Tests

open Sys2Proof Sys2Proof.Machine

/-! ### Helpers -/

/-- The state an outcome answers with; the reset state where it answers none. -/
def after (o : Out) : State := match o with
  | .next s => s
  | _ => State.reset

/-- The failure of a check, 0 where it passes. -/
def failed {α : Type} (r : Except Fail α) : Nat := match r with
  | .ok _ => 0
  | .error e => e.code

/-- A block of four words, all LSIDs and registers masked, with the g registers given. -/
def blk (g : List Word) : BlockRun :=
  { inst := 0, base := 0, pos := 0, len := 4, storeMask := 0xFFFFFFFF, writeMask := 0xFFFFFFFF, g := KMap.ofList g }

/-- The machine with one 1 x 1 operator of VI 0 placed and loaded on tile 0, whose core executes block r. -/
def on (r : BlockRun) : State := (State.reset.withCoreWord 0).setRun 0 r

/-- Register d after one word in a block with the registers given. -/
def wrote (i : Instr) (g : List Word) (d : Nat) : Word :=
  (((after (exec i (on (blk g)))).core 0).run.map (fun r => r.reg d)).getD 0xDEAD

/-- The block after one word. -/
def ran (i : Instr) (r : BlockRun) : BlockRun := ((after (exec i (on r))).core 0).run.getD (blk [])

/-! ### Decoding: words written out from the spec's encodings -/

/-- Words of R165, R174 and the worked programs, and words laid out by the formats of R164 and the map of R167. -/
theorem test_decode_core :
    decodeCore 0 0x01190A00 = .ok (.add 3 4 5) ∧ decodeCore 0 0x1A190A03 = .ok (.adds 3 4 5 3) ∧
    decodeCore 0 0x20213FF8 = .ok (.addi 4 4 0x3FF8) ∧ decodeCore 0 0x3D48D159 = .ok (.pfx 0x48D159) ∧
    decodeCore 0 0x2938389A = .ok (.li 7 0x389A) ∧ decodeCore 0 0x30280000 = .ok (.kld 5 0) ∧
    decodeCore 0 0x31286000 = .ok (.kst 5 12) ∧ decodeCore 0 0x38128002 = .ok (.skip 1 5 2) ∧
    decodeCore 0 0x38228002 = .ok (.skip 2 5 2) ∧ decodeCore 0 0x39000001 = .ok (.exit 0 0 1) ∧
    decodeCore 0 0x3A000000 = .ok .endI ∧ decodeCore 0 0x3B000001 = .ok (.snul 1) := by decide +kernel

theorem test_decode_memory :
    decodeCore 0 0x43190A10 = .ok (.ld 3 4 5 16) ∧ decodeCore 0 0x4C298481 = .ok (.ldAcq 5 6 2 2 1) ∧
    decodeCore 0 0x4D398682 = .ok (.stRel 7 6 3 2 2) ∧ decodeCore 0 0x63298873 = .ok (.amoAdd 3 5 6 4 7 1 1) ∧
    decodeCore 0 0x7C4242A0 = .ok (.amoCas 0 8 9 1 10 0 0) := by decide +kernel

/-- Format IS: rd [23:19], ra [18:14], route tag [13:8], operand object [7:0]. -/
theorem test_decode_system :
    decodeCore 0 0x83010903 = .ok (.boset 4 9 3) ∧ decodeCore 0 0x84000003 = .ok (.boarm 3) ∧
    decodeCore 0 0xA0020502 = .ok (.mv 8 5 2) ∧ decodeCore 0 0x99028300 = .ok (.copy 10 3 0) := by decide +kernel

/-- IRED and PROMO: command word 0 tells the rows apart. -/
theorem test_decode_by_command_word :
    decodeCore 0 0xA3000000 = .ok (.iredGatherSum 0 0 0) ∧ decodeCore 0 0xAC000000 = .ok (.promo 0 0 0) := by
  decide +kernel

/-- The two slots of R174, and slots laid out by R149 and R150. -/
theorem test_decode_slots :
    decodeSlot 0x324411F080004100 =
      .ok (.fmul { srcA := 8, srcB := 16, dstA := 8, dstB := 31, tagAct := 0, trig := 0x80004100 }) ∧
    decodeSlot 0x3042D3F0831249BA =
      .ok (.fadd { srcA := 8, srcB := 11, dstA := 9, dstB := 31, tagAct := 0, trig := 0x831249BA }) ∧
    decodeSlot 0x3344C42080004100 =
      .ok (.fma { srcA := 8, srcB := 19, dstA := 2, dstB := 2, tagAct := 0, trig := 0x80004100 }) ∧
    decodeSlot 0x1A2143F080000000 =
      .ok (.sel 2 { srcA := 4, srcB := 5, dstA := 1, dstB := 31, tagAct := 0, trig := 0x80000000 }) ∧
    decodeSlot 0x221C21F080000000 =
      .ok (.clt { srcA := 3, srcB := 16, dstA := 16, dstB := 31, tagAct := 0, trig := 0x80000000 }) ∧
    decodeSlot 0x81FF4BF080000000 =
      .ok (.lit { srcA := 31, srcB := 29, dstA := 5, dstB := 31, tagAct := 0, trig := 0x80000000 }) := by decide +kernel

theorem test_decode_slots_flow :
    decodeSlot 0x8043D3F080004100 =
      .ok (.mov { srcA := 8, srcB := 15, dstA := 9, dstB := 31, tagAct := 0, trig := 0x80004100 }) ∧
    decodeSlot 0x840BEBF080000000 =
      .ok (.ctok { srcA := 1, srcB := 15, dstA := 21, dstB := 31, tagAct := 0, trig := 0x80000000 }) ∧
    decodeSlot 0x900905F080000000 =
      .ok (.ldsI { srcA := 1, srcB := 4, dstA := 2, dstB := 31, tagAct := 0, trig := 0x80000000 }) ∧
    decodeSlot 0x990899F080000000 =
      .ok (.updTas { srcA := 1, srcB := 2, dstA := 12, dstB := 31, tagAct := 0, trig := 0x80000000 }) ∧
    decodeSlot 0x9AA3FFF080000000 =
      .ok (.own { srcA := 20, srcB := 15, dstA := 31, dstB := 31, tagAct := 0, trig := 0x80000000 }) ∧
    decodeSlot 0x9B7BD1F080000000 =
      .ok (.ordt { srcA := 15, srcB := 15, dstA := 8, dstB := 31, tagAct := 0, trig := 0x80000000 }) ∧
    decodeSlot 0xA442D5F080024900 =
      .ok (.tmrg { srcA := 8, srcB := 11, dstA := 10, dstB := 31, tagAct := 0, trig := 0x80024900 }) ∧
    decodeSlot 0x70154DF082200000 =
      .ok (.qapp { srcA := 2, srcB := 21, dstA := 6, dstB := 31, tagAct := 0, trig := 0x82200000 }) := by decide +kernel

/-- Reserved words and slots are refused by name: a reserved opcode, an unused field, a reserved condition, an unused
slot, reserved trigger bits, a head named and not needed. -/
theorem test_decode_refuses :
    decodeCore 0 0x00000000 = .error .reservedOpcode ∧ decodeCore 0 0x50000000 = .error .reservedOpcode ∧
    decodeCore 0 0x01190A01 = .error .unusedField ∧ decodeCore 0 0x38700001 = .error .badOperand ∧
    decodeCore 0 0x3A000001 = .error .unusedField ∧ decodeSlot 0x324411F000004100 = .error .unusedSlot ∧
    decodeSlot 0x324411F090004100 = .error .triggerReserved ∧ decodeSlot 0x324411F080000000 = .error .missingNeed ∧
    decodeSlot 0x000011F080004100 = .error .reservedOpcode := by decide +kernel

/-- Submission entries and register writes: the row that op, kind, offset and value choose. -/
theorem test_decode_host :
    decodeRegWrite 0 0x1000 5 = .sqDoorbell ∧ decodeRegWrite 0 0x1080 5 = .cqDoorbell ∧
    decodeRegWrite 3 0x100 0 = .queueDescriptorWrite ∧ decodeRegWrite 0 0x4000 900 = .registerWrite := by decide +kernel

/-! ### Well-formedness: each check refuses an ill-formed term -/

theorem test_wf_accepts :
    WellFormed (.add 31 31 31) ∧ WellFormed (.skip 6 31 32767) ∧ WellFormed (.pfx 0xFFFFFF) ∧
    WellFormed (.fmul { srcA := 8, srcB := 16, dstA := 8, dstB := 31, tagAct := 0, trig := 0x80004100 }) := by
  decide +kernel

theorem test_wf_refuses_core :
    ¬WellFormed (.add 32 0 0) ∧ ¬WellFormed (.addi 0 0 16384) ∧ ¬WellFormed (.shli 0 0 64) ∧ ¬WellFormed (.kld 0 160) ∧
    ¬WellFormed (.skip 7 0 1) ∧ ¬WellFormed (.skip 0 1 1) ∧ ¬WellFormed (.skip 1 0 0) ∧ ¬WellFormed (.snul 32) ∧
    ¬WellFormed (.adds 0 0 0 4) := by decide +kernel

/-- A slot of ADD with one field out of place in each line. -/
theorem test_wf_refuses_slots :
    let f : CellF := { srcA := 0, srcB := 1, dstA := 2, dstB := 31, tagAct := 0, trig := 0x80000000 }
    WellFormed (.cellAdd f) ∧ ¬WellFormed (.cellAdd { f with srcA := 32 }) ∧ ¬WellFormed (.cellAdd { f with trig := 0 }) ∧
    ¬WellFormed (.cellAdd { f with trig := 0x90000000 }) ∧ ¬WellFormed (.cellAdd { f with dstB := 2 }) ∧
    ¬WellFormed (.cellAdd { f with trig := 0x80000100 }) ∧ ¬WellFormed (.cellAdd { f with srcA := 8 }) ∧
    ¬WellFormed (.cellAdd { f with trig := 0x80000020 }) ∧ ¬WellFormed (.cellAdd { f with trig := 0x80100000 }) ∧
    ¬WellFormed (.cellAdd { f with tagAct := 1 }) ∧ ¬WellFormed (.sel 4 f) ∧ ¬WellFormed (.steer { f with srcB := 4 }) ∧
    ¬WellFormed (.scl { f with srcA := 9, srcB := 9 }) := by decide +kernel

/-! ### One word of a tile core: expected values from the rules by hand -/

theorem test_add_sub_mul :
    wrote (.add 3 1 2) [0, 0xFFFFFFFFFFFFFFFF, 2] 3 = 1 ∧ wrote (.sub 3 1 2) [0, 1, 2] 3 = 0xFFFFFFFFFFFFFFFF ∧
    wrote (.mul 3 1 2) [0, 0x8000000000000001, 3] 3 = 0x8000000000000003 ∧
    wrote (.mulh 3 1 2) [0, 0xFFFFFFFFFFFFFFFF, 2] 3 = 0xFFFFFFFFFFFFFFFF ∧
    wrote (.mulhu 3 1 2) [0, 0xFFFFFFFFFFFFFFFF, 2] 3 = 1 := by decide +kernel

/-- Division (R237): by zero, the most negative number by -1, and the sign of the remainder. -/
theorem test_divide :
    wrote (.div 3 1 2) [0, 7, 0] 3 = 0xFFFFFFFFFFFFFFFF ∧ wrote (.rem 3 1 2) [0, 7, 0] 3 = 7 ∧
    wrote (.div 3 1 2) [0, 0x8000000000000000, 0xFFFFFFFFFFFFFFFF] 3 = 0x8000000000000000 ∧
    wrote (.rem 3 1 2) [0, 0x8000000000000000, 0xFFFFFFFFFFFFFFFF] 3 = 0 ∧
    wrote (.div 3 1 2) [0, 0xFFFFFFFFFFFFFFF9, 2] 3 = 0xFFFFFFFFFFFFFFFD ∧
    wrote (.rem 3 1 2) [0, 0xFFFFFFFFFFFFFFF9, 2] 3 = 0xFFFFFFFFFFFFFFFF ∧
    wrote (.divu 3 1 2) [0, 0xFFFFFFFFFFFFFFF9, 2] 3 = 0x7FFFFFFFFFFFFFFC ∧
    wrote (.remu 3 1 2) [0, 0xFFFFFFFFFFFFFFF9, 2] 3 = 1 := by decide +kernel

theorem test_bitwise :
    wrote (.and 3 1 2) [0, 12, 10] 3 = 8 ∧ wrote (.or 3 1 2) [0, 12, 10] 3 = 14 ∧ wrote (.xor 3 1 2) [0, 12, 10] 3 = 6 ∧
    wrote (.andn 3 1 2) [0, 12, 10] 3 = 4 := by decide +kernel

/-- Counts of 64 and more leave no bit but the sign; ROT takes the count modulo 64 (R237). -/
theorem test_shifts :
    wrote (.shl 3 1 2) [0, 3, 63] 3 = 0x8000000000000000 ∧ wrote (.shl 3 1 2) [0, 3, 64] 3 = 0 ∧
    wrote (.shr 3 1 2) [0, 0x8000000000000000, 63] 3 = 1 ∧
    wrote (.sar 3 1 2) [0, 0x8000000000000000, 200] 3 = 0xFFFFFFFFFFFFFFFF ∧
    wrote (.rot 3 1 2) [0, 0x8000000000000001, 65] 3 = 3 ∧ wrote (.shli 3 1 63) [0, 3] 3 = 0x8000000000000000 ∧
    wrote (.shri 3 1 63) [0, 0x8000000000000000] 3 = 1 ∧
    wrote (.sari 3 1 63) [0, 0x8000000000000000] 3 = 0xFFFFFFFFFFFFFFFF := by decide +kernel

theorem test_counts_and_scale :
    wrote (.clz 3 1) [0, 0] 3 = 64 ∧ wrote (.clz 3 1) [0, 1] 3 = 63 ∧ wrote (.popc 3 1) [0, 0xF0F0] 3 = 8 ∧
    wrote (.adds 3 1 2 3) [0, 5, 7] 3 = 61 := by decide +kernel

theorem test_compares :
    wrote (.cseq 3 1 2) [0, 5, 5] 3 = 1 ∧ wrote (.csne 3 1 2) [0, 5, 5] 3 = 0 ∧
    wrote (.cslt 3 1 2) [0, 0xFFFFFFFFFFFFFFFF, 0] 3 = 1 ∧ wrote (.csltu 3 1 2) [0, 0xFFFFFFFFFFFFFFFF, 0] 3 = 0 ∧
    wrote (.csle 3 1 2) [0, 5, 5] 3 = 1 ∧ wrote (.csleu 3 1 2) [0, 6, 5] 3 = 0 ∧
    wrote (.min 3 1 2) [0, 0xFFFFFFFFFFFFFFFF, 0] 3 = 0xFFFFFFFFFFFFFFFF ∧
    wrote (.max 3 1 2) [0, 0xFFFFFFFFFFFFFFFF, 0] 3 = 0 := by decide +kernel

/-- Immediates are sign-extended; the example of R165 with its prefix and without it. -/
theorem test_immediates :
    wrote (.addi 3 1 0x3FFF) [0, 5] 3 = 4 ∧ wrote (.andi 3 1 0x3FFE) [0, 7] 3 = 6 ∧ wrote (.ori 3 1 6) [0, 9] 3 = 15 ∧
    wrote (.xori 3 1 0x3FFF) [0, 0] 3 = 0xFFFFFFFFFFFFFFFF ∧ wrote (.cslti 3 1 0x2000) [0, 0] 3 = 0 ∧
    wrote (.cseqi 3 1 0x3FFF) [0, 0xFFFFFFFFFFFFFFFF] 3 = 1 ∧
    wrote (.li 7 0x389A) [0] 7 = 0xFFFFFFFFFFFFF89A ∧
    (ran (.li 7 0x389A) { blk [0] with pfx := some 0x48D159 }).reg 7 = 0x123456789A := by decide +kernel

/-- A write to a masked register marks it; a second one traps (R236). -/
theorem test_register_marks :
    (ran (.add 3 1 2) (blk [0, 1, 2])).written = 8 ∧ (ran (.add 3 1 2) (blk [0, 1, 2])).pos = 1 ∧
    ((after (exec (.add 3 1 2) (on { blk [0, 1, 2] with written := 8 }))).core 0).run = none ∧
    (((after (exec (.add 3 1 2) (on { blk [0, 1, 2] with written := 8 }))).core 0).insts.find? 0).map (·.status) =
      some .trapped := by decide +kernel

/-- SKIP passes over n words when its condition holds; a prefix waits; SNUL and GNUL count as produced. -/
theorem test_block_words :
    (ran (.skip 3 1 2) (blk [0, 0x8000000000000000])).pos = 3 ∧ (ran (.skip 5 1 2) (blk [0, 0])).pos = 1 ∧
    (ran (.skip 4 1 2) (blk [0, 0])).pos = 3 ∧ (ran (.skip 6 1 2) (blk [0, 1])).pos = 1 ∧
    (ran (.pfx 5) (blk [0])).pfx = some 5 ∧ (ran (.snul 31) (blk [0])).produced = 0x80000000 ∧
    (ran (.gnul 4) (blk [0])).written = 16 := by decide +kernel

/-- EXIT with masks met moves the instance to its target with the block's registers, backwards too (R169); END removes
it; a mask that is not met traps with code 2 (R236). -/
theorem test_exits :
    let r : BlockRun := { blk [0, 9] with base := 40, pos := 2, storeMask := 0, writeMask := 0 }
    let e := after (exec (.exit 0 0 0x7FFB) (on r))
    (e.core 0).run = none ∧ ((e.core 0).insts.find? 0).map (fun i => (i.block, i.g.getD 1 0)) = some (40, 9) ∧
    ((after (exec .endI (on r))).core 0).insts.find? 0 = none ∧
    (((after (exec .endI (on (blk [0])))).core 0).insts.find? 0).map (·.status) = some .trapped := by decide +kernel

/-- Bank 0 of tile 0 in SCRATCH mode, with bytes at offset 0. -/
def scratch (b : List Byte) (s : State) : State :=
  (s.updBank 0 0 (fun x => { x with mode := .scratch })).writeKeys (keysFrom (tileKey 0 0) b.length) b

/-- Register d after one word over a tile store with bytes. -/
def loaded (b : List Byte) (i : Instr) (g : List Word) (d : Nat) : Word :=
  (((after (exec i (scratch b (on (blk g))))).core 0).run.map (fun r => r.reg d)).getD 0xDEAD

/-- Own-tile window addresses (R106): all ones in tile_sel. -/
theorem test_loads :
    loaded [0x80, 0xFF, 1, 2, 3, 4, 5, 0x86] (.ldB 3 1 0 0) [0, 0xFE000000FFE00000] 3 = 0xFFFFFFFFFFFFFF80 ∧
    loaded [0x80, 0xFF, 1, 2, 3, 4, 5, 0x86] (.ldBu 3 1 0 1) [0, 0xFE000000FFE00000] 3 = 0xFF ∧
    loaded [0x80, 0xFF, 1, 2, 3, 4, 5, 0x86] (.ldH 3 1 0 0) [0, 0xFE000000FFE00000] 3 = 0xFFFFFFFFFFFFFF80 ∧
    loaded [0x80, 0xFF, 1, 2, 3, 4, 5, 0x86] (.ldHu 3 1 0 0x1FE) [0, 0xFE000000FFE00004] 3 = 0x0201 ∧
    loaded [0x80, 0xFF, 1, 2, 3, 4, 5, 0x86] (.ldW 3 1 0 4) [0, 0xFE000000FFE00000] 3 = 0xFFFFFFFF86050403 ∧
    loaded [0x80, 0xFF, 1, 2, 3, 4, 5, 0x86] (.ldWu 3 1 0 4) [0, 0xFE000000FFE00000] 3 = 0x86050403 ∧
    loaded [0x80, 0xFF, 1, 2, 3, 4, 5, 0x86] (.ld 3 1 0 0) [0, 0xFE000000FFE00000] 3 = 0x860504030201FF80 ∧
    loaded [0x80, 0xFF, 1, 2, 3, 4, 5, 0x86] (.ldAcq 3 1 0 2 0x3F) [0, 0xFE000000FFE00008] 3 = 0x860504030201FF80 := by
  decide +kernel

/-- Accesses that fail: misaligned 0x13, a bank in CACHE mode 0x12, past the store 0x11, a reserved form 0x10, no window
0x14 (R412). -/
theorem test_access_codes :
    let s := scratch [] (on (blk [0]))
    let code (a : Word) (n : Nat) : Nat := failed (s.coreAccess 0 (blk [0]) a n true false).1
    code 0xFE000000FFE00004 8 = 0x13 ∧ code 0xFE000000FFE20000 8 = 0x12 ∧ code 0xFE000000FFF80000 8 = 0x11 ∧
    code 0x0200000000000000 8 = 0x10 ∧ code 0x0000000000010000 8 = 0x14 ∧ code 0xFE000000FFE1FFF8 8 = 0 := by decide +kernel

/-- A store is held with its LSID; at commit its bytes stand in the tile store, low byte first. -/
theorem test_stores :
    let s := scratch [] (on (blk [0, 0xFE000000FFE00010, 0x1122334455667788]))
    let held (i : Instr) : List PStore := (((after (exec i s)).core 0).run.map (·.stores)).getD []
    held (.stB 2 1 5 0) = [.store 5 0 (2 ^ 60 + 16) 1 0x1122334455667788 none 0xFE000000FFE00010] ∧
    held (.stH 2 1 5 2) = [.store 5 0 (2 ^ 60 + 18) 2 0x1122334455667788 none 0xFE000000FFE00012] ∧
    held (.stW 2 1 5 4) = [.store 5 0 (2 ^ 60 + 20) 4 0x1122334455667788 none 0xFE000000FFE00014] ∧
    held (.st 2 1 5 8) = [.store 5 0 (2 ^ 60 + 24) 8 0x1122334455667788 none 0xFE000000FFE00018] ∧
    held (.stRel 2 1 5 1 1) = [.store 5 0 (2 ^ 60 + 24) 8 0x1122334455667788 (some 1) 0xFE000000FFE00018] := by decide +kernel

theorem test_store_commits :
    let r : BlockRun := { blk [0] with storeMask := 0, writeMask := 0, stores := [.store 0 0 (2 ^ 60 + 16) 4 0xAABBCCDD none 0] }
    let s := after (exec .endI (scratch [] (on r)))
    [s.byteAt (2 ^ 60 + 15), s.byteAt (2 ^ 60 + 16), s.byteAt (2 ^ 60 + 19), s.byteAt (2 ^ 60 + 20)] =
      [0, 0xDD, 0xAA, 0] := by decide +kernel

/-- A load sees an earlier-LSID store of its own block, and not one of an equal or later LSID (R53). -/
theorem test_forwarding :
    let st : List PStore := [.store 3 0 (2 ^ 60) 1 0x55 none 0]
    let s (l : Nat) : State := scratch [1] (on { blk [0, 0xFE000000FFE00000] with stores := st })
    (((after (exec (.ldBu 3 1 4 0) (s 4))).core 0).run.map (fun r => r.reg 3)) = some 0x55 ∧
    (((after (exec (.ldBu 3 1 3 0) (s 3))).core 0).run.map (fun r => r.reg 3)) = some 1 := by decide +kernel

/-- AMO: the new value in memory and the old one, sign-extended, in rd (R245). -/
theorem test_atomics :
    let run (op : AmoOp) (w : Nat) (rb old : Word) : Nat × Word :=
      let s := scratch [0xFE, 0xFF, 0xFF, 0xFF] (on (blk [0]))
      let u := s.performStore 0 0 (.amo 0 0 (2 ^ 60) w op 0 0 4 rb old 0)
      (u.readWord (keysFrom (2 ^ 60) 8), (((u.core 0).insts.find? 0).map (fun i => i.g.getD 4 0)).getD 0)
    run .add 4 3 0 = (1, 0xFFFFFFFFFFFFFFFE) ∧ run .add 8 3 0 = (0x100000001, 0xFFFFFFFE) ∧
    run .min 4 1 0 = (0xFFFFFFFE, 0xFFFFFFFFFFFFFFFE) ∧ run .max 4 1 0 = (1, 0xFFFFFFFFFFFFFFFE) ∧
    run .and 4 0xF 0 = (0xE, 0xFFFFFFFFFFFFFFFE) ∧ run .or 4 1 0 = (0xFFFFFFFF, 0xFFFFFFFFFFFFFFFE) ∧
    run .xor 4 0xFF 0 = (0xFFFFFF01, 0xFFFFFFFFFFFFFFFE) ∧ run .xchg 4 7 0 = (7, 0xFFFFFFFFFFFFFFFE) ∧
    run .cas 4 7 0xFFFFFFFE = (7, 0xFFFFFFFFFFFFFFFE) ∧ run .cas 4 7 0 = (0xFFFFFFFE, 0xFFFFFFFFFFFFFFFE) := by
  decide +kernel

/-- KST is seen by a later KLD of the block and reaches the set at commit (R233, R239). -/
theorem test_uniforms :
    let r := ran (.kst 1 12) (blk [0, 77])
    r.effects = [(0, .kst 12 77)] ∧ (ran (.kld 5 12) r).reg 5 = 77 ∧ (ran (.kmov 3 12) r).effects.getLast? = some (1, .kst 3 77) ∧
    ((((on r).applyEffect 0 0 ((on r).instOf 0 r) (.kst 12 77)).core 0).k.getD 0 {}).getD 12 0 = 77 := by decide +kernel

/-! ### One slot of a cell: expected values from the rules by hand -/

/-- A register-only slot: v0 and v1 to v2. -/
def f0 : CellF := { srcA := 0, srcB := 1, dstA := 2, dstB := 31, tagAct := 0, trig := 0x80000000 }

/-- Cell 0 of tile 0 of the loaded operator, with its v registers and other parts set. -/
def cellS (v : List (List Fw)) (g : Cell → Cell) : State :=
  (State.reset.withSlotWord 0).updCell 0 0 (fun x =>
    g { x with v := KMap.ofList (v.map (fun l => mkLanes (fun i => l.getD i 0))) })

/-- A token of all eight lanes. -/
def tok (l : List Fw) (t : BitVec 2) : Token := mkToken (fun i => l.getD i 0) 0xFF t false

/-- Cell 0 after an instruction. -/
def cellAfter (i : Instr) (s : State) : Cell := (after (exec i s)).cellAt 0 0

/-- Lane 0 of v2 after a slot on lane-0 values. -/
def cell0 (i : Instr) (a b : Fw) : Fw := lane ((cellAfter i (cellS [[a], [b]] id)).v.getD 2 zeroLanes) 0

theorem test_cell_integer :
    cell0 (.cellAdd f0) 0xFFFFFFFF 2 = 1 ∧ cell0 (.cellSub f0) 1 2 = 0xFFFFFFFF ∧ cell0 (.cellMul f0) 0x10001 0x10001 = 0x20001 ∧
    cell0 (.cellMulh f0) 0xFFFFFFFF 2 = 0xFFFFFFFF ∧ cell0 (.cellAnd f0) 12 10 = 8 ∧ cell0 (.cellOr f0) 12 10 = 14 ∧
    cell0 (.cellXor f0) 12 10 = 6 ∧ cell0 (.cellAndn f0) 12 10 = 4 ∧ cell0 (.cellShl f0) 1 31 = 0x80000000 ∧
    cell0 (.cellShl f0) 1 32 = 0 ∧ cell0 (.cellShr f0) 0x80000000 31 = 1 ∧ cell0 (.cellSar f0) 0x80000000 40 = 0xFFFFFFFF ∧
    cell0 (.cellRot f0) 0x80000001 33 = 3 ∧ cell0 (.cellMin f0) 0xFFFFFFFF 0 = 0xFFFFFFFF ∧ cell0 (.cellMax f0) 0xFFFFFFFF 0 = 0 ∧
    cell0 (.minu f0) 0xFFFFFFFF 0 = 0 ∧ cell0 (.maxu f0) 0xFFFFFFFF 0 = 0xFFFFFFFF ∧ cell0 (.cellClz f0) 0 0 = 32 ∧
    cell0 (.cellPopc f0) 0xFF00FF00FF 0 = 16 ∧ cell0 (.pack f0) 0x12345678 0x9ABCDEF0 = 0xDEF05678 := by decide +kernel

/-- BPERM: bytes by index with a zero flag, a sign-extended element, and invalid on a reserved mode (R186). -/
theorem test_bperm :
    cell0 (.bperm f0) 0x44332211 0x80020103 = 0x00332244 ∧ cell0 (.bperm f0) 0x44332281 0x0300000000 = 0xFFFFFF81 ∧
    ((cellAfter (.bperm f0) (cellS [[1], [0x0500000000]] id)).flags.getD 0 0) = 0x10 := by decide +kernel

/-- SEL takes src_a where its predicate is 1 (R188). -/
theorem test_sel :
    lane ((cellAfter (.sel 2 f0) (cellS [[7], [9]] (fun x => { x with q := x.q.set 2 1 }))).v.getD 2 zeroLanes) 0 = 7 ∧
    cell0 (.sel 2 f0) 7 9 = 9 := by decide +kernel

/-- Lane 0 of v2 and the flags of lane 0 after a ternary slot of v0, v1, v3. -/
def cellF3 (i : CellF → Instr) (a b c : Fw) : Fw × BitVec 5 :=
  let x := cellAfter (i { f0 with dstB := 3 }) (cellS [[a], [b], [], [c]] id)
  (lane (x.v.getD 2 zeroLanes) 0, x.flags.getD 0 0)

/-- The same for a binary or unary slot. -/
def cellF2 (i : CellF → Instr) (a b : Fw) : Fw × BitVec 5 :=
  let x := cellAfter (i f0) (cellS [[a], [b]] id)
  (lane (x.v.getD 2 zeroLanes) 0, x.flags.getD 0 0)

/-- The examples of R189 and R191, and special operands of R189. -/
theorem test_cell_float :
    cellF3 .fma 0x3FF8000001 0x3FF8000001 0xBFF8000002 = (0x3C98000000, 0) ∧
    cellF2 .fmul 0x3FF8000001 0x3FF8000001 = (0x3FF8000002, 1) ∧ cellF2 .fadd 0x3FF8000000 0x3FF8000000 = (0x4008000000, 0) ∧
    cellF2 .fsub 0x3FF8000000 0x3FF8000000 = (0, 0) ∧ cellF2 .fadd 0x7FF8000000 0xFFF8000000 = (0x7FFC000000, 0x10) ∧
    cellF2 .fmul 0 0x7FF8000000 = (0x7FFC000000, 0x10) ∧
    cellF3 .fms 0x4008000000 0x3FF8000000 0x3FF8000000 = (0x3FF8000000, 0) ∧
    cellF3 .famn 0x400C000000 0x3FF8000000 0x400A000000 = (0x400A000000, 0) ∧
    cellF3 .famn 0x400C000000 0x3FF8000000 0x4019000000 = (0x4018000000, 0) := by decide +kernel

/-- R190, R192, R193 with its examples, R194, R195, R196 and the examples of R198. -/
theorem test_cell_float_unary :
    cellF2 .fmin 0 0x8000000000 = (0x8000000000, 0) ∧ cellF2 .fmax 0 0x8000000000 = (0, 0) ∧
    cellF2 .fabs 0xBFF8000000 0 = (0x3FF8000000, 0) ∧ cellF2 .fneg 0x3FF8000000 0 = (0xBFF8000000, 0) ∧
    cellF2 .frcp 0x8000000000 0 = (0xFFF8000000, 8) ∧ cellF2 .frsq 0x3FD8000000 0 = (0x4008000000, 0) ∧
    cellF2 .fexp2 0xBFE8000000 0 = (0x3FEB504F33, 1) ∧ cellF2 .flog2 0x4018000000 0 = (0x4008000000, 0) ∧
    cellF2 .frnd 0x3FFC000000 0 = (0x4008000000, 1) ∧ cellF2 .fcvti 0x7FF8000000 0 = (0x7FFFFFFF, 0x10) ∧
    cellF2 .icvtf 0x7FFFFFFF 0 = (0x41E8000000, 1) ∧ cellF2 .ucvtf 0xFFFFFFFF 0 = (0x41F8000000, 1) := by decide +kernel

/-- The worked decodes of R71. -/
theorem test_formats :
    decodeElem 1 false (fun _ => 0) 0xC5A0 = (0xC01B400000, 0) ∧ decodeElem 0 false (fun _ => 0) 1 = (0x36A8000000, 0) ∧
    decodeElem 4 false (fun _ => 0) 0x9C = (0xC05C800000, 0) ∧ decodeElem 4 true (fun _ => 0) 0x9C = (0xFFFFFF9C, 0) := by decide +kernel

/-- The example of R201 and R202, lane shifts over the boundary (R199) and a broadcast (R200). -/
theorem test_cell_lanes :
    let s := cellS [[0x41B8000000, 0x3FF8000000, 0x3FF8000000, 0x3FF8000000], [11, 12, 13, 14, 15, 16, 17, 18]] id
    let at_ (i : CellF → Instr) (k : Nat) : Fw := lane ((cellAfter (i f0) s).v.getD 2 zeroLanes) k
    at_ .lredFadd 7 = 0x41B8000001 ∧ at_ .scanFadd 7 = 0x41B8000000 ∧ at_ .lshl 7 = 11 ∧ at_ .lshl 0 = 0x3FF8000000 ∧
    at_ .lshr 0 = 18 ∧ at_ .lshr 1 = 0x41B8000000 ∧ at_ .lbc 5 = 0x41B8000000 := by decide +kernel

theorem test_cell_reductions :
    let s := cellS [[1, 0xFFFFFFFF, 5, 2]] id
    let at_ (i : CellF → Instr) (k : Nat) : Fw := lane ((cellAfter (i f0) s).v.getD 2 zeroLanes) k
    at_ .lredAdd 0 = 7 ∧ at_ .lredMin 3 = 0xFFFFFFFF ∧ at_ .lredMax 7 = 5 ∧ at_ .scanAdd 1 = 0 ∧ at_ .scanAdd 7 = 7 ∧
    at_ .scanMax 1 = 1 ∧ at_ .scanMax 3 = 5 := by decide +kernel

/-- A compare writes its predicate in the executing lanes (R182). -/
theorem test_cell_compares :
    let q (i : Instr) (a b : Fw) : Bool := ((cellAfter i (cellS [[a], [b]] id)).q.getD 0 0).getLsbD 0
    let p : CellF := { f0 with dstA := 16 }
    q (.clt p) 0xFFFFFFFF 0 = true ∧ q (.cltu p) 0xFFFFFFFF 0 = false ∧ q (.ceq p) 5 5 = true ∧ q (.cne p) 5 5 = false ∧
    q (.cle p) 5 5 = true ∧ q (.cleu p) 6 5 = false ∧ q (.fclt p) 0 0x4008000000 = true ∧ q (.fceq p) 0x8000000000 0 = true := by
  decide +kernel


/-- The outcome is that next state. -/
def goes (o : Out) (t : State) : Bool := match o with
  | .next s => decide (s = t)
  | _ => false

/-- The word answers with v in register d and nothing else changed. -/
def puts (i : Instr) (s : State) (t : Nat) (r : BlockRun) (d : Nat) (v : Word) : Bool :=
  goes (exec i s) (s.ranTo t (r.wrote d v))


/-! ### Witnesses: the tile core -/

/-- A block in which every masked register but 31 and every LSID but 31 has been produced. -/
def late (g : List Word) : BlockRun := { blk g with written := 0x7FFFFFFF, produced := 0x7FFFFFFF }

/-- WordOperations, ImmediateWords, RegisterWordFrame: a block runs, and may write register 31, the last; the clauses of
division by zero, of the most negative number by -1 and of neither; the ends of each immediate and of a prefix. -/
theorem wit_WordOperations :
    let r := late [0, 0x8000000000000000, 0xFFFFFFFFFFFFFFFF, 0, 5]
    let s := on r
    s.Runs 0 r ∧ r.mayWrite 31 ∧ (3 < 4) ∧
    (r.reg 2).toInt = -1 ∧ (r.reg 1).toInt = -2 ^ 63 ∧ r.reg 3 = 0 ∧ r.reg 4 ≠ 0 ∧
    ¬((r.reg 4).toInt = -1 ∧ (r.reg 1).toInt = -2 ^ 63) ∧
    puts (.div 31 1 2) s 0 r 31 0x8000000000000000 ∧ puts (.rem 31 1 2) s 0 r 31 0 ∧
    puts (.adds 31 1 4 3) s 0 r 31 0x8000000000000028 ∧ puts (.clz 31 3) s 0 r 31 64 ∧
    puts (.rot 31 1 2) s 0 r 31 0x4000000000000000 := by
  unfold State.Runs BlockRun.mayWrite; decide +kernel

theorem wit_ImmediateWords :
    let r := { late [0, 7] with pfx := some 0xFFFFFF }
    let s := on r
    s.Runs 0 r ∧ r.mayWrite 31 ∧ 0x3FFF < 2 ^ 14 ∧ (∀ h, r.pfx = some h → h < 2 ^ 24) ∧ 63 < 64 ∧
    extended 14 r.pfx 0x3FFF = -1 ∧ extended 14 (some 0x7FFFFF) 0x3FFF = 2 ^ 37 - 1 ∧
    extended 14 (some 0x800000) 0 = -2 ^ 37 ∧ extended 14 none 0x2000 = -8192 ∧ extended 14 none 0x1FFF = 8191 ∧
    puts (.addi 31 1 0x3FFF) s 0 r 31 6 ∧ puts (.shri 31 1 63) s 0 r 31 0 := by
  refine ⟨?_, ?_, ?_, ?_, ?_⟩
  · unfold State.Runs; decide +kernel
  · unfold BlockRun.mayWrite; decide +kernel
  · decide
  · intro h e; cases e; decide
  · decide +kernel

theorem wit_RegisterWordFrame :
    let r := late [0, 7]
    (on r).Runs 0 r ∧ (Instr.add 31 1 1).regDest = some 31 ∧ (Instr.csrr 31 1).regDest = some 31 ∧ r.mayWrite 31 ∧
    goes (exec (.add 31 1 1) (on r)) ((on r).ranTo 0 (r.wrote 31 14)) ∧
    ((r.wrote 31 14).reg 1 = 7 ∧ (r.wrote 31 14).written = 0xFFFFFFFF) := by
  unfold State.Runs BlockRun.mayWrite; decide +kernel

/-- The machine whose instance 0 has set 255, none. -/
def unset (r : BlockRun) : State :=
  (on r).updCore 0 (fun c => { c with insts := c.insts.set 0 { (on r).instOf 0 r with set := 255 } })

theorem wit_UniformAndNullWords :
    let r := late [0, 7]
    (on r).Runs 0 r ∧ (on r).noSet 0 r = false ∧ r.mayWrite 31 ∧ r.mayProduce 31 ∧ (unset r).Runs 0 r ∧
    (unset r).noSet 0 r = true ∧
    puts (.kld 31 0) (on r) 0 r 31 0 ∧ goes (exec (.kst 1 159) (on r)) ((on r).ranTo 0 (r.held (.kst 159 7))) ∧
    ((on r).ranTo 0 (r.held (.kst 159 7))).uniform 0 (r.held (.kst 159 7)) 159 = 7 ∧
    goes (exec (.kld 31 0) (unset r)) ((unset r).blockTrap 0 r 7 0 0x3F r.word 0) ∧ 1 ≤ 3 := by
  unfold State.Runs BlockRun.mayWrite BlockRun.mayProduce; decide +kernel

/-- BlockControl: each condition at a register value at which it holds and one at which it does not; the longest
distances forward and backward. -/
theorem wit_BlockControl :
    let r := { blk [0, 0, 1, 0x8000000000000000] with storeMask := 0, writeMask := 0, base := 40 }
    (on r).Runs 0 r ∧ 6 ≤ 6 ∧ 2 ^ 15 - 1 < 2 ^ 15 ∧
    goes (exec (.skip 6 2 32767) (on r)) ((on r).ranTo 0 { r with pos := 1 }) ∧
    goes (exec (.skip 6 1 32767) (on r)) ((on r).ranTo 0 { r with pos := 32768 }) ∧
    goes (exec (.exit 3 3 0x4000) (on r)) ((on r).commit 0 r (some (r.word + 0x4000 - 2 ^ 15))) ∧
    goes (exec (.exit 3 3 0x3FFF) (on r)) ((on r).commit 0 r (some (r.word + 0x3FFF))) ∧
    goes (exec (.exit 3 2 0x3FFF) (on r)) ((on r).ranTo 0 { r with pos := 1 }) ∧
    goes (exec .endI (on r)) ((on r).commit 0 r none) := by
  unfold State.Runs; decide +kernel

/-- BlockCommit: an LSID and a register missing, at 0 and at 31; all masks met. -/
theorem wit_BlockCommit :
    let r := late [0, 7]
    let m := { r with produced := 0xFFFFFFFF, written := 0xFFFFFFFF }
    let e := { m with effects := [(0, .kst 3 9)] }
    (31 < 32 ∧ r.storeMask.getLsbD 31 = true ∧ r.produced.getLsbD 31 = false) ∧
    (31 < 32 ∧ r.writeMask.getLsbD 31 = true ∧ r.written.getLsbD 31 = false) ∧ (on r).Runs 0 r ∧
    (on r).commit 0 r (some 5) = (on r).blockTrap 0 r 2 0 0x3F r.word 0 ∧
    (on m).Runs 0 m ∧ m.masksMet ∧ m.stores = [] ∧ m.effects = [] ∧ (unset m).noSet 0 m = true ∧
    ((unset m).core 0).sets.find? ((unset m).instOf 0 m).set = none ∧ (unset m).Runs 0 m ∧
    (((on m).commit 0 m none).core 0).insts.find? 0 = none ∧
    (on e).Runs 0 e ∧ e.masksMet ∧ e.stores = [] ∧ (on e).rfwdLost 0 e = [] := by
  unfold State.Runs BlockRun.masksMet; decide +kernel

/-- BlockCommit: a store to a package that does not answer. -/
theorem wit_BlockCommit_remote :
    let p : PStore := .store 31 0 (2 ^ 51 + 3 * 2 ^ 43) 8 5 none 0x100
    let r : BlockRun := { late [0, 7] with produced := 0xFFFFFFFF, written := 0xFFFFFFFF, stores := [p] }
    let s := on r
    s.Runs 0 r ∧ r.masksMet ∧ r.effects = [] ∧ 2 ^ 51 + 3 * 2 ^ 43 + 8 ≤ 2 ^ 52 ∧
    s.pkgReachable ((2 ^ 51 + 3 * 2 ^ 43) / 2 ^ 43 % 2 ^ 8) = false ∧ s.storeCode 0 p = 0x0D ∧ s.storeCode 0 p ≠ 0 := by
  unfold State.Runs BlockRun.masksMet; decide +kernel

/-- LoadWords, LoadFrame: an access that passes, of each width, and its bytes. -/
theorem wit_LoadWords :
    let r := late [0, 0xFE000000FFE00000]
    let s := scratch [0x80, 0xFF, 1, 2, 3, 4, 5, 0x86] (on r)
    s.Runs 0 r ∧ r.mayWrite 31 ∧ 0x1FF < 2 ^ 9 ∧ r.pfx = none ∧
    (∀ n ∈ [1, 2, 4, 8], s.coreAccess 0 r 0xFE000000FFE00000 n true false = (.ok (keysFrom (tileKey 0 0) n), s) ∧
      s.tileRead 0 (keysFrom (tileKey 0 0) n) = (some (s.mem.getN (tileKey 0 0) n), s)) ∧
    0xFE000000FFE00000 = r.reg 1 + BitVec.ofInt 64 (extended 9 r.pfx 0) ∧ 0x3F < 2 ^ 6 ∧
    goes (exec (.ldB 31 1 0 0) s) (s.ranTo 0 (r.wrote 31 0xFFFFFFFFFFFFFF80)) ∧
    goes (exec (.ldAcq 31 1 0 0 0) s) (s.ranTo 0 (r.wrote 31 0x860504030201FF80)) := by
  unfold State.Runs BlockRun.mayWrite; decide +kernel

/-- The second clause of LoadWords: no store covers the byte, and one of two covers it last. -/
theorem wit_LoadWords_forward :
    let st : List PStore := [.store 1 0 100 8 0x1111111111111111 none 100, .store 2 1 100 8 0x2222222222222222 none 100]
    (∀ ls p a w v rel ea, PStore.store ls p a w v rel ea ∈ st → ¬(ls < 3 ∧ a ≤ 108 ∧ 108 < a + w)) ∧
    forward st 3 108 7 = 7 ∧
    PStore.store 2 1 100 8 0x2222222222222222 none 100 ∈ st ∧ 2 < 3 ∧ 100 ≤ 107 ∧ 107 < 100 + 8 ∧
    (∀ ls p a w v rel ea, PStore.store ls p a w v rel ea ∈ st →
      PStore.store ls p a w v rel ea ≠ .store 2 1 100 8 0x2222222222222222 none 100 → ls < 3 → a ≤ 107 → 107 < a + w → ls < 2) ∧
    forward st 3 107 7 = 0x22 := by
  refine ⟨?_, by decide, by decide, by decide, by decide, by decide, ?_, by decide⟩
  · intro ls p a w v rel ea h
    simp only [List.mem_cons, PStore.store.injEq, List.not_mem_nil, or_false] at h
    omega
  · intro ls p a w v rel ea h hn
    simp only [List.mem_cons, List.not_mem_nil, or_false] at h
    rcases h with h | h
    · cases h; omega
    · exact absurd h hn

/-- StoresAreHeld and StoreCommits: accesses that pass, and a store past the tile cache and one through it. -/
theorem wit_StoresAreHeld :
    let r := late [0, 0xFE000000FFE00000, 0x1122334455667788]
    let s := scratch [] (on r)
    s.Runs 0 r ∧ r.mayProduce 31 ∧
    (∀ n ∈ [1, 2, 4, 8], s.coreAccess 0 r 0xFE000000FFE00000 n false true = (.ok (keysFrom (tileKey 0 0) n), s)) ∧
    0xFE000000FFE00000 = r.reg 1 + BitVec.ofInt 64 (extended 9 r.pfx 0) ∧
    goes (exec (.st 2 1 31 0) s) (s.ranTo 0 (r.stored 31 (.store 31 0 (tileKey 0 0) 8 0x1122334455667788 none 0xFE000000FFE00000))) ∧
    goes (exec (.stRel 2 1 31 3 0) s) (s.ranTo 0 (r.stored 31 (.store 31 0 (tileKey 0 0) 8 0x1122334455667788 (some 3) 0xFE000000FFE00000))) := by
  unfold State.Runs BlockRun.mayProduce; decide +kernel

/-- The outcome is a next state. -/
def answers (o : Out) : Bool := match o with
  | .next _ => true
  | _ => false

/-- FailedAccessTraps: misaligned accesses of every width that has an alignment, a missing window for a byte, and bytes in
error (R419). -/
theorem wit_FailedAccessTraps :
    let r := late [0, 0xFE000000FFE00001, 0x10000, 0xFE000000FFE00000]
    let s := scratch [] (on r)
    let b : State := { s with bad := [granuleOf (tileKey 0 0)] }
    s.Runs 0 r ∧ failed (s.coreAccess 0 r (eaM 2 0 r) 1 true false).1 = 0x14 ∧
    failed (s.coreAccess 0 r (eaM 1 0 r) 8 false true).1 = 0x13 ∧
    failed (s.coreAccess 0 r (r.reg 1) (if 1 = 0 then 4 else 8) true true).1 = 0x13 ∧
    failed (s.coreAccess 0 r (r.reg 1 + BitVec.ofInt 64 (8 * (63 - 64))) 8 true false).1 ≠ 0 ∧
    failed (s.coreAccess 0 r (r.reg 1 + BitVec.ofInt 64 (8 * 0)) 8 false true).1 = 0x13 ∧
    (∀ n ∈ [1, 2, 4, 8], b.coreAccess 0 r (eaM 3 0 r) n true false = (.ok (keysFrom (tileKey 0 0) n), b) ∧
      b.tileRead 0 (keysFrom (tileKey 0 0) n) = (none, b)) ∧ b.Runs 0 r ∧
    (∀ i ∈ [Instr.ldB 31 2 31 0, .st 2 1 31 0, .amoCas 0 31 1 31 0 0 1], answers (exec i s) = true) ∧
    answers (exec (.ldB 31 3 31 0) b) = true := by
  unfold State.Runs; decide +kernel

/-- The machine `on r` whose operator binds tag 5, at priority 1, to a block of one word at word 4 of its task section,
and whose job's routes 0 and 255 lead to its hamper; set 0 is live, for rows 0 and 63 of a group. -/
def grouped (r : BlockRun) : State :=
  let s := on r
  let im : Image := { oneTileImage (KMap.ofList [[0x105, 4, 0, 0] ++ oneBlock [0x3A000000]]) {} with
    oper := 0x010001FE00000000 }
  let g : RowGroup :=
    { rgid := 3, pk := 0, set := 0, tiles := [0], rows := 0x8000000000000001, gone := 0, home := 0, base := 0x10000,
      pay := 0x12000, tileSlot := some 0, wgen := 0, fired := 0 }
  let s : State := { s with
    ops := s.ops.set 0 { vi := 0, job := 0, rcb := 0, image := im }
    rgs := s.rgs.set 0 g
    jobs := s.jobs.set 0 { routes := KMap.ofList [0x00C0000000000000] } }
  let s := s.updJob 0 (fun j => { j with routes := j.routes.set 255 0xFFC0000000000000 })
  s.updCore 0 (fun c => { c with sets := c.sets.set 0 0, k := c.k.set 0 (KMap.ofList [0, 0, 0x8000000000000001]) })

theorem wit_StoreCommits :
    let b := { blk [0] with storeMask := 0x80000000, writeMask := 0, produced := 0x80000000 }
    let r := { b with stores := [.store 31 0 (tileKey 0 0) 8 0x1122334455667788 none 0xFE000000FFE00000] }
    let q := { b with stores := [.store 31 0 4096 1 0x55 none 4096] }
    let s := scratch [] (on r)
    let u := s.commit 0 r (some 5)
    s.Inv ∧ s.Runs 0 r ∧ r.masksMet ∧ r.effects = [] ∧ s.storeCode 0 (.store 31 0 (tileKey 0 0) 8 0x1122334455667788 none 0xFE000000FFE00000) = 0 ∧
    s.viaCache 0 (tileKey 0 0) = false ∧ u.byteAt (tileKey 0 7) = 0x11 ∧ u.byteAt (tileKey 0 8) = 0 ∧
    (on q).Runs 0 q ∧ q.masksMet ∧ (on q).storeCode 0 (.store 31 0 4096 1 0x55 none 4096) = 0 ∧ (on q).viaCache 0 4096 = true ∧
    ((on q).commit 0 q (some 5)).byteAt 4096 = 0 := by
  unfold State.Runs BlockRun.masksMet State.Inv; decide +kernel

theorem wit_AtomicsHeldThenPerformed :
    let r := late [0, 0xFE000000FFE00000, 3]
    let s := scratch [0xFE, 0xFF, 0xFF, 0xFF] (on r)
    let u := s.performStore 0 0 (.amo 31 0 (tileKey 0 0) 4 .min 0 3 31 1 0 0xFE000000FFE00000)
    s.Runs 0 r ∧ r.mayProduce 31 ∧ r.mayWrite 31 ∧
    (∀ w ∈ [0, 1], s.coreAccess 0 r (r.reg 1) (if w = 0 then 4 else 8) true true =
      (.ok (keysFrom (tileKey 0 0) (if w = 0 then 4 else 8)), s)) ∧
    s.amoPlace (keysFrom (tileKey 0 0) 8) = true ∧ s.cachedBad 0 (tileKey 0 0) = false ∧ s.badRead (keysFrom (tileKey 0 0) 8) = false ∧
    goes (exec (.amoCas 3 31 1 31 2 3 0) s) (s.ranTo 0 { r with
      stores := [.amo 31 0 (tileKey 0 0) 4 .cas 3 3 31 3 0 0xFE000000FFE00000], produced := 0xFFFFFFFF, written := 0xFFFFFFFF, pos := 1 }) ∧
    s.Inv ∧ (s.tile 0).lineOf (tileKey 0 0) = none ∧ ((s.core 0).insts.find? 0).isSome = true ∧
    u.readWord (keysFrom (tileKey 0 0) 4) = 0xFFFFFFFE ∧ ((u.core 0).insts.find? 0).map (·.g.getD 31 0) = some 0xFFFFFFFFFFFFFFFE := by
  unfold State.Runs BlockRun.mayWrite BlockRun.mayProduce State.Inv; decide +kernel

/-- EffectWords: each word of the first clause needs a running block; THOLD with seven pending; the selectors of one
tile of the placement and of none, a tag bound and one not bound; a record in SCRATCH without and with a payload; a live
row, the last. -/
theorem wit_EffectWords :
    let r := late [0, 0x7FF, 0, 63, 0xFE000000FFE00000, 0xFE000000FFE00400, 1]
    let s := scratch [0, 0, 0, 0, 0, 0, 0, 0, 0, 0, 0, 0, 0, 0, 0x10, 0] (grouped r)
    let z := scratch [] (grouped r)
    s.Runs 0 r ∧ s.noSet 0 r = false ∧ (s.core 0).tholds.length + 0 < 8 ∧
    goes (exec (.thold 3 5) s) (s.ranTo 0 (r.held (.thold 5 63))) ∧
    goes (exec (.eretAbort 3) s) (s.ranTo 0 (r.held (.eret 31 true))) ∧
    s.tileSel 0 0 ((r.reg 1).toNat % 2 ^ 11) = some 0 ∧ s.tileSel 0 0 ((r.reg 2).toNat % 2 ^ 11) = some 0 ∧
    s.binds 0 0 5 = true ∧ goes (exec (.send 1 3 5) s) (s.ranTo 0 (r.held (.send 0 5 63))) ∧
    s.binds 0 0 6 = false ∧ goes (exec (.send 1 3 6) s) (s.blockTrap 0 r 8 0 0x3F r.word 0) ∧
    s.tileSel 0 0 ((r.reg 6).toNat % 2 ^ 11) = none ∧ goes (exec (.sendBo 6 3 5) s) (s.blockTrap 0 r 8 0 0x3F r.word 0) ∧
    s.ownArray 0 0 (r.reg 4) 128 = some 0 ∧
    leNat ((keysFrom (tileKey 0 (0 + 8)) 8).map (fun k => forward r.stores 32 k (s.mem.get k))) / 2 ^ 52 = 1 ∧
    s.ownArray 0 0 (r.reg 5) (64 * 1) = some 0x400 ∧ goes (exec (.spawn 5 4 255) s) (s.ranTo 0 (r.held (.spawn 255 0 0xFE000000FFE00400))) ∧
    leNat ((keysFrom (tileKey 0 (0 + 8)) 8).map (fun k => forward r.stores 32 k (z.mem.get k))) / 2 ^ 52 = 0 ∧
    goes (exec (.spawn 5 4 255) z) (z.ranTo 0 (r.held (.spawn 255 0 0xFE000000FFE00400))) ∧ fmtAssigned 0 = true ∧ fmtAssigned 15 = false ∧
    (r.reg 3).toNat = 63 ∧ (s.uniform 0 r 2).getLsbD 63 = true ∧ s.setGroup 0 = (s.rgs.find? 0).map (fun g => (0, g)) ∧
    (s.rgs.find? 0).map (fun g => (g.rows.getLsbD 63, g.gone.getLsbD 63)) = some (true, false) ∧
    goes (exec (.rfwdRet 3) s) (s.ranTo 0 (r.held (.rfwd 63 true))) ∧
    (unset r).noSet 0 r = true ∧ goes (exec (.spawn 5 4 255) (unset r)) ((unset r).blockTrap 0 r 7 0 0x3F r.word 0) := by
  unfold State.Runs; decide +kernel

/-- EffectsAtCommit: barriers below and at their target, a loop body that runs and one that does not, a sweep from the
anchor and from elsewhere, a THOLD at the present time and after it, an instance that waits on a trap and one that does
not. -/
theorem wit_EffectsAtCommit :
    let r := blk [0]
    let i := (on r).instOf 0 r
    let s := (on r).updOpr 0 0 (fun o => { o with
      bo := KMap.ofList [{ count := 3, target := 4 }, { count := 4, target := 4, tag := 5 }]
      lcu := KMap.ofList [{ running := true }] })
    let u := s.updCore 0 (fun c => { c with insts := c.insts.set 7 { i with status := .trapped } })
    63 < 64 ∧ 7 < 8 ∧ 511 < 512 ∧ 3 < 4 ∧ 4 ≤ 4 ∧
    (((s.applyEffect 0 0 i (.boarm 0)).tile 0).oprAt 0).bo.getD 0 {} = { count := 3, target := 4, armed := true, set := 0 } ∧
    (((s.applyEffect 0 0 i (.boarm 1)).core 0).arrivals.map (·.kind)) = [5] ∧
    ((s.tile 0).oprAt 0).lcu.getD 0 {} = { running := true } ∧ ((0x100000000 : Word).toNat % 2 ^ 32 = 0) ∧
    keyAnchor i.pk = 0 ∧ keyAnchor i.pk ≠ 1 ∧ (0 : Word).toNat ≤ s.clk.time.toNat ∧ s.clk.time.toNat < (1 : Word).toNat ∧
    (u.core 0).insts.find? 7 = some { i with status := .trapped } ∧ (u.core 0).insts.find? 0 = some i ∧ i.status = .ready ∧
    ((u.applyEffect 0 0 i (.eret 7 true)).core 0).insts.find? 7 = none := by
  decide +kernel

/-- RecordEffectsAtCommit: the issuing set has a group; JOIN with a child under way and with none; a live row with no
status bit set whose successor route is resolved. -/
theorem wit_RecordEffectsAtCommit :
    let r := blk [0]
    let s := scratch [] (grouped r)
    let i := s.instOf 0 r
    let j := s.updRg 0 (fun g => { g with join := 1 })
    (s.setGroup i.set).map Prod.fst = some 0 ∧ (s.places.find? i.pk).isSome = true ∧
    s.routeTo 0 0 255 = some (.hamper 0) ∧ s.spawnOk 0 0 0 0xFE000000FFE00400 = true ∧ (s.applyEffect 0 0 i (.spawn 255 0 0)).net.length = 1 ∧
    (j.rgs.find? 0).map (·.join) = some 1 ∧ ((j.applyEffect 0 0 i (.join 63)).rgs.find? 0).map (·.joinTag) = some (some (0, 63)) ∧
    (s.rgs.find? 0).map (·.join) = some 0 ∧ ((s.applyEffect 0 0 i (.join 63)).core 0).arrivals.map (·.kind) = [7] ∧
    63 < 64 ∧ (∀ g ∈ s.rgs.vals, g.rows.getLsbD 63 = true ∧ g.gone.getLsbD 63 = false ∧ g.pk = 0 ∧
      let w := (s.rowRecord g 63).r.rw
      rwEjected w = false ∧ rwNoAdmissible w = false ∧ rwIncomplete w = false ∧
      s.routeTo (nextHop (s.rowRecord g 63).r 255).2.vi (nextHop (s.rowRecord g 63).r 255).2.job
        (nextHop (s.rowRecord g 63).r 255).1 = some (.hamper 0)) := by
  decide +kernel

/-- A legal INT8 load of one row of eight elements to one cell, as register values: words 0 to 3 (R252). -/
def streamWords : List Word := [0x4000000020000000, 0xFE000000FFE00000, 0x0000010000800000, 0]

/-- Address generator n of tile 0 with its queue full of markers. -/
def fullAg (n : Nat) (s : State) : State :=
  s.updAg 0 n (fun a => { a with queue := (List.range 16).map (fun k => .marker k 0 0 none 0) })

/-- StreamWords: a legal specification with room and with a full queue, and an illegal one. -/
theorem wit_StreamWords :
    let r := late ([0] ++ streamWords)
    let s := on r
    let x : Stream :=
      { id := 0, w0 := r.reg 1, w1 := r.reg 2, w2 := r.reg 3, w3 := r.reg 4, pk := 0, tag := 5, set := 0, tab := 0, entry := none }
    let bad : Stream := { x with w0 := r.reg 0, w1 := r.reg 1, w2 := r.reg 2, w3 := r.reg 3 }
    s.Runs 0 r ∧ specOk x = true ∧ ((s.tile 0).ag 7).queue.length < 16 ∧ 16 ≤ (((fullAg 7 s).tile 0).ag 7).queue.length ∧
    specOk bad = false ∧ (fullAg 7 s).Runs 0 r ∧
    (((after (exec (.strm 1 5 7) s)).tile 0).ag 7).queue = [.stream { x with id := s.sched.ids }] ∧
    goes (exec (.strm 1 5 7) (fullAg 7 s)) (fullAg 7 s) ∧ goes (exec (.strm 0 5 7) s) (s.blockTrap 0 r 5 0 0x3F r.word 0) := by
  unfold State.Runs; decide +kernel

/-- StreamTablesAndBarriers: nothing ahead; an operation held, with room and without; a barrier over a generator with a full queue and over
generators with nothing ahead. -/
theorem wit_StreamTablesAndBarriers :
    let r := late [0, 0x12345]
    let s := on r
    let h (n : Nat) : State := s.updAg 0 7 (fun a => { a with held := List.replicate n .swap })
    s.Runs 0 r ∧ ((s.tile 0).ag 7).held = [] ∧ ((s.tile 0).ag 7).olderStreams = false ∧
    ((((after (exec (.cteWrite 1 7 255) s)).tile 0).ag 7).tab1.getD 255 0) = 0x2345 ∧
    (((h 31).tile 0).ag 7).held ≠ [] ∧ (((h 31).tile 0).ag 7).held.length < 32 ∧ 32 ≤ (((h 32).tile 0).ag 7).held.length ∧
    goes (exec (.ctsw 7) (h 32)) (h 32) ∧ ((((after (exec (.ctsw 7) (h 31))).tile 0).ag 7).held.length = 32) ∧
    (∃ n, n < 8 ∧ bitOf 0x80 n = true ∧ 16 ≤ (((fullAg 7 s).tile 0).ag n).queue.length) ∧
    ((((after (exec (.sbar 1 5 0x80) (fullAg 7 s))).tile 0).ag 7).queue.length = 17) ∧
    (∀ n, n < 8 → bitOf 0x7F n = true → (((fullAg 7 s).tile 0).ag n).queue.length < 16) ∧
    ((after (exec (.sbar 1 5 0x7F) (fullAg 7 s))).core 0).arrivals.map (·.tag) = [5] := by
  unfold State.Runs; decide +kernel

/-- `on r` whose operator has banks 0 and 11. -/
def banked (r : BlockRun) : State := (on r).updPlace 0 (fun p => { p with banks := 0x801 })

/-- ConfigurationWords: no load under way, and one; a bank in transition, one outside the operator's mask, and one inside it. -/
theorem wit_ConfigurationWords :
    let r := late [0]
    let s := banked r
    let q := s.updBank 0 11 (fun b => { b with trans := some { target := .fifo, ready := 0, pk := 0, tag := 0, set := 0 } })
    s.Runs 0 r ∧ (s.tile 0).cfgl = none ∧ (after (exec (.cfgl 5 1 3 15) s)).cellLive 0 63 false = false ∧
    ((after (exec (.cfgl 5 1 3 15) (after (exec (.cfgl 5 1 3 15) s)))).tile 0).cfglWait.length = 1 ∧
    (s.places.find? 0).map (·.banks.getLsbD 11) = some true ∧ (s.places.find? 0).map (·.banks.getLsbD 10) = some false ∧ 2 < 3 ∧
    ((q.tile 0).bank 11).trans.isSome = true ∧ ((s.tile 0).bank 10).trans = none ∧ ((s.tile 0).bank 11).trans = none ∧
    goes (exec (.cfgbank 5 2 11) q) ((q.arrive 0 5 10 1 0 1 0).ranTo 0 { r with pos := 1 }) ∧
    goes (exec (.cfgbank 5 2 10) s) ((s.arrive 0 5 10 2 0 1 0).ranTo 0 { r with pos := 1 }) ∧
    ((((after (exec (.cfgbank 5 2 11) s)).tile 0).bank 11).trans.map (·.ready)) = some 4096 := by
  unfold State.Runs; decide +kernel

/-- EngineCommandWords: a PUBL of no data with room, with a full queue, and under a code of another word. -/
theorem wit_EngineCommandWords :
    let r := late [0, 0x9A00000000000000, 0, 0, 0, 0]
    let eq : Word := 0x1F00000000000000
    let s := (on r).updOpr 0 0 (fun o => { o with eq := o.eq.set 7 eq })
    let f := s.updOpr 0 0 (fun o => { o with queues := o.queues.set 7 { items := List.replicate 16 default } })
    let c (id : Nat) : QCmd := { id := id, w0 := r.reg 1, w1 := 0, w2 := 0, w3 := 0, w4 := 0, by_ := .core 0 5, epoch := 0 }
    s.Runs 0 r ∧ (s.places.find? (s.instOf 0 r).pk).map (fun p => (p.vi, p.job)) = some (0, 0) ∧
    (r.reg 1).toNat / 2 ^ 56 = 0x9A ∧ (r.reg 1).toNat / 2 ^ 38 % 4 ≠ 2 ∧ ((s.tile 0).oprAt 0).eq.getD 7 0 = eq ∧ s.cmdRefusal (c 0) eq 0 0 = 0 ∧
    (s.queueAt 0 0 7).items.length < 16 ∧ 16 ≤ (f.queueAt 0 0 7).items.length ∧ (r.reg 1).toNat / 2 ^ 56 ≠ 0xA0 ∧
    ((after (exec (.publ 1 5 7) s)).queueAt 0 0 7).items = [c s.sched.ids] ∧ goes (exec (.publ 1 5 7) f) f ∧
    goes (exec (.mv 1 5 7) s) (s.blockTrap 0 r 6 0 0x3F r.word 0) := by
  unfold State.Runs; decide +kernel

/-- SystemWords: a running block of a placed operator on tile 0 with a live set. -/
theorem wit_SystemWords :
    let r := late [0]
    let s := (grouped r).updOpr 0 0 (fun o => { o with m := KMap.ofList [], traptag := 0x45 })
    s.Runs 0 r ∧ r.mayWrite 31 ∧ (s.places.find? 0).map (fun p => p.vtOf 0) = some (some 0) ∧ 0 < 2 ^ 11 ∧
    (s.setGroup 0).map (fun g => g.2.join) = some 0 ∧ puts (.csrr 31 0x10) s 0 r 31 0x45 ∧ puts (.csrr 31 2) s 0 r 31 1 ∧
    puts (.csrr 31 0x17F) s 0 r 31 0 ∧ puts (.csrr 31 0xA8) s 0 r 31 0 ∧ 7 < 8 ∧ 0x100 ≤ 0x17F ∧
    goes (exec .halt s) ((s.updCore 0 (fun c => { c with halted := true })).ranTo 0 { r with pos := 1 }) := by
  unfold State.Runs BlockRun.mayWrite; decide +kernel

/-- BlockTraps: TRAPTAG enabled and disabled; a masked register written and a masked LSID produced again; a block past
its last word. -/
theorem wit_BlockTraps :
    let r := { late [0] with written := 0xFFFFFFFF, produced := 0xFFFFFFFF }
    let s := on r
    let e := s.updOpr 0 0 (fun o => { o with traptag := 0x7F })
    let p := { r with pos := 4 }
    let q : State := on p
    s.Runs 0 r ∧ (s.places.find? (s.instOf 0 r).pk).map (·.domain) = some 0 ∧
    s.stuckSectors 0 = [] ∧ (((s.tile 0).oprAt 0).traptag).getLsbD 6 = false ∧ (((e.tile 0).oprAt 0).traptag).getLsbD 6 = true ∧
    ((e.blockTrap 0 r 4 255 0x3F r.word 0).core 0).arrivals.map (fun a => (a.tag, a.kind)) = [(63, 12)] ∧
    ((s.blockTrap 0 r 4 255 0x3F r.word 0).vi 0).held = [0] ∧ (Instr.add 31 0 0).regDest = some 31 ∧
    r.writeMask.getLsbD 31 = true ∧ r.written.getLsbD 31 = true ∧
    goes (exec (.add 31 0 0) s) (s.blockTrap 0 r 1 0 0x3F r.word 0) ∧
    r.storeMask.getLsbD 31 = true ∧ r.produced.getLsbD 31 = true ∧
    goes (exec (.snul 31) s) (s.blockTrap 0 r 1 0 31 r.word 0) ∧
    q.sched.agenda = [.core 0] ∧ (q.core 0).run = some p ∧ p.len ≤ p.pos ∧
    goes (step q) (q.took.blockTrap 0 p 3 0 0x3F (p.base + 2 + p.len) 0) := by
  unfold State.Runs; decide +kernel

/-- StoreCommits: a store through the tile cache that a later load reads, and a release of a dirty line beside it, at the end of
its line; fences of both kinds over a dirty line. -/
theorem wit_StoreCommits_release :
    let l : CacheLine := { line := 65, way := 0, bytes := List.replicate 64 7, dirty := 0x8000000000000000, valid := 2 }
    let b : BlockRun := { blk [0] with storeMask := 0x80000000, writeMask := 0, produced := 0x80000000 }
    let s (x : PStore) : State := (on { b with stores := [x] }).updTile 0 (fun x => { x with cache := [l] })
    let st (rel : Option Nat) : PStore := .store 31 0 4152 8 0x1122334455667788 rel 4152
    let go (x : PStore) : State := (s x).commit 0 { b with stores := [x] } (some 5)
    (∀ x ∈ [st none, st (some 0), st (some 1), .fenRel 0 0 0, .fenAcq 0 0 0, .fenRel 31 0 3, .fenAcq 31 0 3],
      (s x).Inv ∧ (s x).Runs 0 { b with stores := [x] } ∧ ((s x).tile 0).cacheOk ∧ (s x).stuckSectors 0 = []) ∧
    b.masksMet ∧ 4152 / 64 = (4152 + 8 - 1) / 64 ∧ 4152 + 8 ≤ 2 ^ 40 ∧
    (s (st none)).storeCode 0 (st none) = 0 ∧ (s (st (some 1))).storeCode 0 (st (some 1)) = 0 ∧
    (s (st none)).viaCache 0 4152 = true ∧
    ((go (st none)).tileRead 0 (keysFrom 4152 2)).1 = some [0x88, 0x77] ∧ (go (st none)).byteAt 4152 = 0 ∧
    (go (st none)).byteAt 4223 = 0 ∧
    (go (st (some 1))).mem.getN 4158 2 = [0x22, 0x11] ∧ (go (st (some 1))).byteAt 4223 = 7 ∧
    (go (.fenRel 0 0 0)).byteAt 4223 = 0 ∧ (go (.fenRel 31 0 3)).byteAt 4223 = 7 ∧ ((go (.fenRel 31 0 3)).tile 0).cache.length = 1 ∧
    (go (.fenAcq 31 0 3)).byteAt 4223 = 7 ∧ ((go (.fenAcq 31 0 3)).tile 0).cache = [] := by
  unfold State.Runs BlockRun.masksMet State.Inv Tile.cacheOk; decide +kernel

/-- AtomicsHeldThenPerformed: an atomic of each width on the dirty bytes of the tile's own cache, with an acquire and a release. -/
theorem wit_AtomicsHeldThenPerformed_cache :
    let l : CacheLine := { line := 64, way := 0, bytes := List.replicate 64 1, dirty := 0x1FF, valid := 3 }
    let s := (on (blk [0])).updTile 0 (fun x => { x with cache := [l] })
    let u (w : Nat) : State := s.performStore 0 0 (.amo 0 0 4096 w .add 3 1 4 2 0 4096)
    s.Inv ∧ (s.tile 0).cacheOk ∧ s.stuckSectors 0 = [] ∧ 4096 % 8 = 0 ∧ 3 < 4 ∧ s.tileByte 0 4104 = 1 ∧ s.byteAt 4104 = 0 ∧
    (u 4).readWord (keysFrom 4096 4) = 0x01010103 ∧ (u 8).readWord (keysFrom 4096 8) = 0x01010103 + 0x0101010100000000 ∧ (u 8).byteAt 4104 = 1 ∧
    ((u 8).tile 0).cache = [] := by
  unfold State.Inv Tile.cacheOk; decide +kernel

/-- UniformAndNullWords: a register that the block has not written, as the set holds it. BlockCommit: a SPAWN whose record lies
in no SCRATCH bank. -/
theorem wit_UniformAndNullWords_set :
    let r := late [0]
    let s := (on r).updCore 0 (fun c => { c with k := c.k.set 0 (KMap.ofList [0, 9]) })
    let e := { blk [0] with storeMask := 0, writeMask := 0, effects := [(2, .spawn 255 0 0), (3, .spawn 255 0 0)] }
    r.effects = [] ∧ s.noSet 0 r = false ∧ s.uniform 0 r 1 = 9 ∧ puts (.kld 31 1) s 0 r 31 9 ∧
    (on e).Runs 0 e ∧ e.masksMet ∧ e.stores = [] ∧ (on e).justEjected 0 e = false ∧
    (on e).rfwdLost 0 e ++ ((on e).sendFailures 0 e).map (·.pos) = [2, 3] ∧
    (on e).commit 0 e (some 5) = (on e).blockTrap 0 e 8 0 0x3F (e.base + 3 + 2) 0 := by
  unfold State.Runs BlockRun.masksMet; decide +kernel

/-- EffectWords: a ninth THOLD; a row past the last, one not in k2, one that has left, one forwarded by an earlier word, and a set
with no group. -/
theorem wit_EffectWords_traps :
    let r := late [0, 63, 64, 5]
    let s := grouped r
    let q : BlockRun := { r with effects := [(0, .rfwd 63 false)] }
    let full := s.updCore 0 (fun c => { c with tholds := List.replicate 8 { time := 0, tag := 5, set := 0, pk := 0 } })
    let left := s.updRg 0 (fun g => { g with gone := 0x8000000000000000 })
    let none_ : State := { s with rgs := {} }
    s.Runs 0 r ∧ full.Runs 0 r ∧ 8 ≤ (full.core 0).tholds.length + (r.effects.filter (fun e => match e.2 with
        | .thold .. => true
        | _ => false)).length ∧ goes (exec (.thold 1 5) full) (full.blockTrap 0 r 9 0 0x3F r.word 0) ∧ s.noSet 0 r = false ∧
    (r.reg 2).toNat = 64 ∧ goes (exec (.rfwd 2) s) (s.blockTrap 0 r 8 0 0x3F r.word 0) ∧
    (s.uniform 0 r 2).getLsbD 5 = false ∧ goes (exec (.rfwd 3) s) (s.blockTrap 0 r 8 0 0x3F r.word 0) ∧
    (left.setGroup 0).map (fun g => g.2.gone.getLsbD 63) = some true ∧
    goes (exec (.rfwdRet 1) left) (left.blockTrap 0 r 8 0 0x3F r.word 0) ∧
    goes (exec (.rfwd 1) (s.setRun 0 q)) ((s.setRun 0 q).blockTrap 0 q 8 0 0x3F q.word 0) ∧
    none_.setGroup (none_.instOf 0 r).set = none ∧ none_.noSet 0 r = false ∧
    goes (exec (.rfwd 1) none_) (none_.blockTrap 0 r 8 0 0x3F r.word 0) := by
  unfold State.Runs; decide +kernel

/-- EffectsAtCommit: increments of one cycle, a barrier armed and not, below its target and at it, and one whose arrival stands
outside a full arrival store. -/
theorem wit_EffectsAtCommit_barrier :
    let r := blk [0]
    let i := (on r).instOf 0 r
    let b (c t : Nat) (armed : Bool) : State := (on r).updOpr 0 0 (fun o => { o with
      bo := KMap.ofList [{ count := c, raw := c, target := t, armed := armed, tag := 5 }] })
    let bo (s : State) : Barrier := ((s.tile 0).oprAt 0).bo.getD 0 {}
    let a : Arrival := { tag := 5, kind := 5, msg := 0, src := 0, detail := 0, set := 0, cycle := 0 }
    let full (s : State) : State := s.updCore 0 (fun c => { c with arrivals := List.replicate 257 a })
    let go (e : Effect) (s : State) : State := s.applyEffect 0 0 i e
    (bo (go (.sendBo 0 0 0xFFFF) (b 1 9 false))).count = 0xFFFF ∧ (bo (go (.sendBo 0 0 7) (b 1 9 true))).count = 8 ∧
    (bo (go (.sendBo 0 0 20) (b 1 9 true))).count = 12 ∧ ((go (.sendBo 0 0 20) (b 1 9 true)).core 0).arrivals.map (·.kind) = [5] ∧
    (full (b 9 9 true)).sendsHeld 0 (fun a => a.kind == 5 && a.tag == 5 && a.detail == 0) = true ∧
    (bo (go (.sendBo 0 0 20) (full (b 1 9 true)))).count = 21 ∧ (bo (go (.boarm 0) (full (b 9 9 false)))).armed = true ∧
    (b 9 9 false).sendsHeld 0 (fun a => a.kind == 5 && a.tag == 5 && a.detail == 0) = false ∧
    (bo (go (.sendBo 0 0 0xFFFF) (go (.sendBo 0 0 20) (b 0 10 true)))).count = 0xFFF5 := by
  decide +kernel

/-- RecordEffectsAtCommit: a SPAWN that passes and one that does not; a flagged row whose exception route resolves; a row that
retires with its parent's join at 1, and with none. -/
theorem wit_RecordEffectsAtCommit_rows :
    let s := scratch [] (grouped (blk [0]))
    let i := s.instOf 0 (blk [0])
    let put (off : Nat) (w : Word) (s : State) : State := s.writeKeys (keysFrom (tileKey 0 (0x10000 + 63 * 128 + off)) 8) (leBytes 8 w.toNat)
    let row (h1 rw : Word) : State := put 24 rw (put 8 h1 s)
    let rowOf (u : State) (g : RowGroup) : Rec := u.rowRecord g 63
    let flag := row 0 0x10000000000000
    let child := (row (1 * 2 ^ 32) 0).updRg 0 (fun g => { g with join := 0 })
    let two : State := ({ child with rgs := child.rgs.set 1 { rgid := 4, pk := 0, set := 1, tiles := [0], rows := 1, gone := 0, home := 0, base := 0x20000, pay := 0x22000, tileSlot := none, wgen := 0, fired := 0, join := 1, joinTag := some (0, 7) } }).updCore 0
      (fun c => { c with sets := c.sets.set 1 1 })
    s.spawnOk 0 0 0 0 = true ∧ s.spawnOk 0 0 0x20000 0 = false ∧
    (∀ g ∈ flag.rgs.vals, let r := (rowOf flag g).r
      (rwEjected r.rw || rwNoAdmissible r.rw || rwIncomplete r.rw) = true ∧
      flag.routeTo r.vi r.job (if r.excRoute = 0xFF then 0xFE else r.excRoute) = some (.hamper 0)) ∧
    ((flag.applyEffect 0 0 i (.rfwd 63 false)).net.map (fun n => n.body.out)) = [true] ∧
    (∀ g ∈ (row 0xFFF000000000 0).rgs.vals, (rowOf (row 0xFFF000000000 0) g).r.h1.toNat / 2 ^ 36 % 2 ^ 12 = 0xFFF) ∧
    (two.rgs.find? 0).map (fun g => ((rowOf two g).r.h1.toNat / 2 ^ 36 % 2 ^ 12, (rowOf two g).r.h1.toNat / 2 ^ 32 % 2 ^ 4, (rowOf two g).r.vi)) = some (0, 1, 0) ∧
    (two.core 0).sets.find? 1 = some 1 ∧ (two.rgs.find? 1).map (fun g => (g.join, g.joinTag)) = some (1, some (0, 7)) ∧
    ((two.applyEffect 0 0 i (.rfwd 63 true)).core 0).arrivals.map (fun a => (a.tag, a.kind)) = [(7, 7)] := by
  decide +kernel

/-- BlockCommit: an RFWD of a row that may go on, of one with a reserved payload format, and of one in error. -/
theorem wit_BlockCommit_rows :
    let m : BlockRun := { late [0, 7] with produced := 0xFFFFFFFF, written := 0xFFFFFFFF, effects := [(2, .rfwd 63 false)] }
    let s (h1 : Word) : State := (scratch [] (grouped m)).writeKeys (keysFrom (tileKey 0 (0x10000 + 63 * 128 + 8)) 8) (leBytes 8 h1.toNat)
    let bad : State := { s 0 with bad := [granuleOf (tileKey 0 (0x10000 + 63 * 128))] }
    let fails (u : State) : List Nat := (u.sendFailures 0 m).map (·.code)
    let checks (u : State) : List (Option Nat) := (u.rgs.vals.flatMap (fun g => u.places.vals.map (fun p =>
      (u.rfwdFail 0 2 63 g p).map (·.code))))
    (s 0).Runs 0 m ∧ m.masksMet ∧ m.stores = [] ∧ (s 0).justEjected 0 m = false ∧ (s 0).rfwdLost 0 m = [] ∧
    (s 0).badRead (keysFrom (tileKey 0 (0x10000 + 63 * 128)) 128) = false ∧
    checks (s 0) = [none] ∧ checks (s 0xA000000000000) = [some 8] ∧ fails (s 0) = [] ∧ fails (s 0xA000000000000) = [8] ∧
    fails bad = [0x1D] ∧ bad.Runs 0 m ∧ bad.rfwdLost 0 m = [] := by
  unfold State.Runs BlockRun.masksMet; decide +kernel

/-- EffectsAtCommit: an ERET that names an instance of another VI. -/
theorem wit_EffectsAtCommit_eret :
    let s := on (blk [0])
    let i := s.instOf 0 (blk [0])
    let u : State := ({ s with places := s.places.set 1 { onePlacement 1 with slot := 1, vi := 5 } }).updCore 0 (fun c => { c with
      insts := c.insts.set 7 { i with pk := 1, status := .trapped } })
    (u.core 0).insts.find? 7 = some { i with pk := 1, status := .trapped } ∧ u.placeVi 1 ≠ u.placeVi i.pk ∧
    decide (u.applyEffect 0 0 i (.eret 7 true) = u) = true := by
  decide +kernel

/-- SystemWords: an instance whose set has no row group. -/
theorem wit_SystemWords_joinless :
    let r := late [0]
    (on r).Runs 0 r ∧ r.mayWrite 31 ∧ (on r).setGroup ((on r).instOf 0 r).set = none ∧ answers (exec (.csrr 31 3) (on r)) = true := by
  unfold State.Runs BlockRun.mayWrite; decide +kernel

/-! ### Witnesses: cells -/

/-- A slot of an opcode may fire. -/
def mayFire (s : State) (op : Nat) (f : CellF) : Bool := s.slotReady (s.firing op f)

/-- The slot fires with those lanes and no flags. -/
def fires (i : Instr) (op : Nat) (f : CellF) (s : State) (v : Nat → Fw) (fl : Nat → BitVec 5) : Bool :=
  goes (exec i s) (s.fired (s.firing op f) fl (mkToken v (s.firing op f).exec (s.firing op f).tag false))

/-- Every trap of the active context of a cell enabled. -/
def trapping (x : Cell) : Cell := x.setCtx (fun k => { k with r2 := 0x7C00000 })

/-- CellInteger, CellSelectAndCompare, CellFloatWords, CellLaneOperations: slots of registers are ready; a
flag that is raised with its trap clear and with its trap enabled. -/
theorem wit_CellInteger :
    let s := cellS [[0xFFFFFFFF, 1], [31, 32]] id
    (∀ op ∈ (List.range 0x15).filter (fun op => decide (op ≠ 0) && decide (op ≠ 0x13)), mayFire s op f0 = true) ∧
    (∀ l ∈ (s.firing 1 f0).lanes, (0 : BitVec 5) &&& (s.firing 1 f0).x.ctx.trapEn = 0) ∧
    fires (.cellMulh f0) 4 f0 s (fun k => laneOfInt ((s.laneInt 0 k * s.laneInt 1 k).fdiv (2 ^ 32))) (fun _ => 0) ∧
    fires (.cellShl f0) 9 f0 s (fun k => laneOfInt (if s.laneNat 1 k < 32 then s.laneNat 0 k * 2 ^ s.laneNat 1 k else 0))
      (fun _ => 0) ∧
    fires (.cellClz f0) 0x11 f0 s (fun k => laneOfInt (32 - (Nat.size (s.laneNat 0 k) : Int))) (fun _ => 0) := by
  decide +kernel

theorem wit_CellSelectAndCompare :
    let s := cellS [[0x44332211, 2], [0x80020103, 0x0500000000]] (fun x => { x with q := x.q.set 3 1 })
    let z := cellS [[0x44332211, 2], [0x80020103, 0x0500000000]] trapping
    let fl (k : Nat) : BitVec 5 := if (s.laneFw 1 k).toNat / 2 ^ 32 ≤ 4 then 0 else 0x10
    let fr := z.firing 0x13 f0
    3 < 4 ∧ mayFire s 0x1B f0 = true ∧ mayFire s 0x13 f0 = true ∧ mayFire z 0x13 f0 = true ∧
    (∀ l ∈ (s.firing 0x13 f0).lanes, fl l &&& (s.firing 0x13 f0).x.ctx.trapEn = 0) ∧
    (∃ l ∈ fr.lanes, fl l &&& fr.x.ctx.trapEn ≠ 0) ∧ goes (exec (.bperm f0) z) (z.cellTrap fr 1 0 (fr.anyFlag fl) 0) ∧
    fires (.sel 3 f0) 0x1B f0 s (fun k => if k = 0 then s.laneFw 0 k else s.laneFw 1 k) (fun _ => 0) := by
  decide +kernel

theorem wit_CellSelectAndCompare_compares :
    let p : CellF := { f0 with dstA := 16 }
    let s := cellS [[0x7FFA000000, 2], [0x4008000000, 3]] id
    let z := cellS [[0x7FFA000000, 2], [0x4008000000, 3]] trapping
    let fl (k : Nat) : BitVec 5 := if k = 0 then 0x10 else 0
    (∀ op ∈ [0x20, 0x21, 0x22, 0x23, 0x24, 0x25, 0x40, 0x41, 0x42, 0x43], mayFire s op p = true ∧ mayFire z op p = true) ∧
    (∀ l ∈ (s.firing 0x40 p).lanes, fl l &&& (s.firing 0x40 p).x.ctx.trapEn = 0) ∧
    (∃ l ∈ (z.firing 0x40 p).lanes, fl l &&& (z.firing 0x40 p).x.ctx.trapEn ≠ 0) ∧
    goes (exec (.fceq p) s) (s.compared (s.firing 0x40 p) fl (fun k => k ≠ 0)) ∧
    goes (exec (.fceq p) z) (z.cellTrap (z.firing 0x40 p) 1 0 ((z.firing 0x40 p).anyFlag fl) 0) ∧
    goes (exec (.cltu p) s) (s.compared (s.firing 0x24 p) (fun _ => 0) (fun k => k = 1)) := by
  decide +kernel

/-- The second part of CellFloatWords: a signalling and a quiet NaN beside numbers. -/
theorem wit_CellFloatWords :
    let g : CellF := { f0 with dstB := 3 }
    let s := cellS [[0x3FF8000000], [0x4008000000], [], [0x3FF8000000]] id
    (∀ op ∈ [0x30, 0x31, 0x32, 0x35, 0x36, 0x38, 0x39, 0x3A, 0x3B, 0x3C, 0x3D, 0x3E, 0x48, 0x49, 0x4A], mayFire s op f0 = true) ∧
    (∀ op ∈ [0x33, 0x34, 0x37], mayFire s op g = true) ∧
    isNaN 0x7FFA000000 = true ∧ isSNaN 0x7FFA000000 = true ∧ isNaN 0x7FFC000000 = true ∧ isSNaN 0x7FFC000000 = false ∧
    isNaN 0x3FF8000000 = false ∧ fadd .rne 0x7FFA000000 0x3FF8000000 = (0x7FFC000000, 0x10) ∧
    fma .rne true 0x3FF8000000 fwOne 0x7FFC000001 fwOne 0 = (0x7FFC000000, 0) ∧
    (fminmax false 0x7FFC000000 0x3FF8000000).1 = canonFw 0x3FF8000000 ∧ frcp .rne 0x7FFA000000 = (0x7FFC000000, 0x10) ∧
    fneg 0x7FFC000000 = 0x7FFC000000 ∧ 38 < 39 ∧ fneg 0x3FF8000000 = 0xBFF8000000 := by
  decide +kernel

/-- FloatValues: finite values of each sign and zeros of both, infinities and NaNs of both kinds. -/
theorem wit_FloatValues :
    let l : List Fw := [0x3FF8000000, 0x4008000000, 0x400C000000, 0xBFF8000000, 0, 0x8000000000, 0x41E8000000, 0xC1EC000000]
    l.map fwValue = [1, 2, 3, -1, 0, 0, 2147483648, -3221225472] ∧ l.map isNaN = List.replicate 8 false ∧
    fwFinite 0x3FF8000000 ∧ fwFinite 0x400C000000 ∧ fwFinite 0xBFF8000000 ∧ fwFinite 0 ∧ fwFinite 0x8000000000 ∧
    fwFinite 0x41E8000000 ∧ fwFinite 0xC1EC000000 ∧ fwInfinite 0x7FF8000000 ∧ fwInfinite 0xFFF8000000 ∧
    isNaN 0x7FF8000000 = false ∧ isNaN 0x7FFC000000 = true ∧ isSNaN 0x7FFA000000 = true ∧ ¬fwFinite 0x7FFC000000 ∧
    ¬fwInfinite 0x7FFC000000 ∧ (0xFFFFFFFF : Fw).toNat % 2 ^ 32 ≠ 0 := by
  unfold fwFinite fwInfinite; decide +kernel

/-- FloatValues: what the operations give where its clauses part: cancelling terms, a zero product with a zero, an infinity times
zero and times a number, a sum below its bound, a signalling NaN, powers of two, and conversions out of range. -/
theorem wit_FloatValues_results :
    let one : Fw := 0x3FF8000000
    let minus : Fw := 0xBFF8000000
    fadd .rdn one minus = (0x8000000000, 0) ∧ fma .rne false 0 one one one 0x8000000000 = (0, 0) ∧
    fmul .rne 0 one 0x7FF8000000 one = (0x7FFC000000, 0x10) ∧ fmul .rne minus one 0x7FF8000000 one = (0xFFF8000000, 0) ∧
    famn .rne one one 0x400C000000 = (0x4008000000, 0) ∧ famn .rne 0x7FFA000000 one one = (one, 0x10) ∧
    frcp .rne 0x4008000000 = (0x3FE8000000, 0) ∧ (frnd .rne 0x3FF9000000).1 = one ∧ (fexp2 one).1 = 0x4008000000 ∧
    flog2 .rne one = (0, 0) ∧ icvtf .rne 0xFFFFFFFF = (minus, 0) ∧ fcvti .rne 0x41E8000000 = (0x7FFFFFFF, 0x10) := by
  decide +kernel

/-- FloatValues: the hypotheses that speak of real numbers, on the same patterns. -/
theorem wit_FloatValues_real :
    let val (x : Fw) : ℝ := ((fwValue x : ℚ) : ℝ)
    val 0x400C000000 = 3 ∧ val 0xBFF8000000 = -1 ∧ val 0 = 0 ∧ val 0x3FF8000000 = (2 : ℝ) ^ (0 : Int) ∧
    (2 : ℝ) ^ (1 : Int) < val 0x400C000000 ∧ val 0x400C000000 < (2 : ℝ) ^ (1 + 1 : Int) ∧
    val 0x3FF8000000 + val 0x3FF8000000 < val 0x400C000000 := by
  have a : fwValue 0x400C000000 = 3 := by decide +kernel
  have b : fwValue 0xBFF8000000 = -1 := by decide +kernel
  have c : fwValue 0 = 0 := by decide +kernel
  have d : fwValue 0x3FF8000000 = 1 := by decide +kernel
  norm_num [a, b, c, d]

/-- CellLaneOperations: a broadcast and reductions with executing lanes and with none. -/
theorem wit_CellLaneOperations :
    let s := cellS [[1, 2, 3, 4, 5, 6, 7, 8], [9]] id
    let n : CellF := { f0 with trig := 0x81100000 }
    let u := cellS [[0x41B8000000, 0x3FF8000000, 0x3FF8000000, 0x3FF8000000]] trapping
    let fr := u.firing 0x67 f0
    let r := lred readFloat fadd f0 u fr
    (∀ op ∈ [0x60, 0x61, 0x62, 0x64, 0x65, 0x66, 0x67, 0x68, 0x69, 0x6C, 0x6D, 0x6E, 0x6F], mayFire s op f0 = true) ∧
    mayFire s 0x62 n = false ∧ (s.firing 0x64 f0).exec ≠ 0 ∧
    fires (.lshl f0) 0x60 f0 s (fun k => if k = 7 then s.laneFw 1 0 else s.laneFw 0 (k + 1)) (fun _ => 0) ∧
    goes (exec (.lredAdd f0) s) (s.fired (s.firing 0x64 f0) (fun _ => 0) (mkToken (fun _ => 36) 0xFF 0 false)) ∧
    mayFire u 0x67 f0 = true ∧ fr.exec ≠ 0 ∧ r.2 &&& fr.x.ctx.trapEn ≠ 0 ∧
    goes (exec (.lredFadd f0) u) (u.cellTrap fr 1 0 (fr.anyFlag (fun _ => r.2)) 0) := by
  decide +kernel

/-- A token of eight lanes at the head of a channel input of a cell. -/
def inbox (d : Nat) (k : Token) (x : Cell) : Cell := { x with xin := x.xin.set d [k] }

/-- TokenDelivery: a register, local queues, a channel to the next cell and one to an address generator, with room. -/
theorem wit_TokenDelivery :
    let s := cellS [[0]] id
    let k : Token := { tok [1, 2] 3 with valid := 0x81 }
    7 < 8 ∧ 1 < 2 ∧ 3 < 4 ∧ s.link 0 0 1 = .cell 0 1 ∧ s.link 0 0 0 = .ag 0 ∧ s.link 0 63 2 = .ag 5 ∧
    (∀ d ∈ [0, 1, 2, 3], (s.cellAt 0 0).ring.getD d [] = [] ∧ (s.outQueue 0 0 d).length < 4) ∧
    ((s.deliver 0 0 9 k).cellAt 0 1).xin.getD 3 [] = [k] ∧ ((s.deliver 0 0 8 k).cellAt 0 0).agOut.getD 0 [] = [k] ∧
    lane (((s.deliver 0 0 7 k).cellAt 0 0).v.getD 7 zeroLanes) 0 = 1 ∧
    lane (((s.deliver 0 0 7 k).cellAt 0 0).v.getD 7 zeroLanes) 1 = 0 ∧
    ((s.deliver 0 0 13 k).cellAt 0 0).lq.getD 1 [] = [.tok k] := by
  decide +kernel

/-- SlotsThatDoNotFire: a slot that needs a head that is not there; a trap in any firing. -/
theorem wit_SlotsThatDoNotFire :
    let s := cellS [[0]] id
    let f : CellF := { f0 with srcA := 8, trig := 0x80004000 }
    cellParts (.mov f) = some (0x80, f) ∧ s.slotReady (s.firing 0x80 f) = false ∧ goes (exec (.mov f) s) s ∧
    ((s.cellTrap (s.firing 0xC1 f0) 2 7 0 0).cellAt 0 0).trapped = true ∧
    (s.cellTrap (s.firing 0xC1 f0) 2 7 0 0).cellLive 0 0 false = false := by
  decide +kernel

/-- CellFlow: each form ready, with both values of a control token, a predicate that parts the lanes, and none. -/
theorem wit_CellFlow :
    let c (b : Bool) (x : Cell) : Cell := inbox 0 (tok [5, 6] 2) { x with ci := (x.ci.set 0 [b]).set 1 [b], q := x.q.set 3 0xF0 }
    let s (b : Bool) : State := cellS [[1], [2]] (c b)
    let h : CellF := { f0 with srcA := 8, trig := 0x80004100 }
    let st : CellF := { h with srcB := 3, dstA := 8, dstB := 9 }
    let sc : CellF := { h with srcB := 4, dstA := 8, dstB := 9 }
    let mg : CellF := { f0 with srcA := 8, srcB := 1 }
    let n : CellF := { f0 with trig := 0x81100000 }
    mayFire (s true) 0x80 h = true ∧ mayFire (s true) 0x81 { f0 with srcA := 31, srcB := 31, dstB := 0 } = true ∧ 31 < 32 ∧
    mayFire (s true) 0x87 h = true ∧ ((s true).firing 0x87 h).exec ≠ 0 ∧ mayFire (s true) 0x82 st = true ∧
    mayFire (s true) 0x82 sc = true ∧ mayFire (s false) 0x82 sc = true ∧ mayFire (s true) 0x83 mg = true ∧
    mayFire (s false) 0x83 mg = true ∧ mayFire (s true) 0x84 { f0 with srcA := 1, dstA := 21 } = true ∧
    mayFire (s true) 0x85 { f0 with srcA := 1, dstA := 19 } = true ∧ (s false |>.firing 0x85 f0).x.ciHead 1 = some false ∧
    mayFire (s true) 0x86 f0 = true ∧ mayFire (s true) 0x88 { f0 with srcA := 7 } = true ∧
    (((after (exec (.steer st) (s true))).cellAt 0 1).xin.getD 3 []).map (·.valid) = [0x0F] ∧
    (((after (exec (.steer st) (s true))).cellAt 0 0).agOut.getD 0 []).map (·.valid) = [0xF0] ∧
    ((after (exec (.merge mg) (s true))).cellAt 0 0).xin.getD 0 [] = [] ∧
    ((after (exec (.merge mg) (s false))).cellAt 0 0).xin.getD 0 [] = [tok [5, 6] 2] ∧
    lane (((after (exec (.lit { f0 with srcA := 31, srcB := 31, dstB := 0 }) (s true))).cellAt 0 0).v.getD 2 zeroLanes) 7 = 6 := by
  decide +kernel

/-- CellLoadsAndStores: every lane inside a SCRATCH bank; a lane that is misaligned. -/
theorem wit_CellLoadsAndStores :
    let s := scratch [0x80, 0xFF, 3, 4, 5, 6, 7, 8] (cellS [[], [0x1122334455]] id)
    let z := scratch [] (cellS [[0, 1], []] id)
    (∀ op ∈ [0x90, 0x91, 0x92, 0x93], mayFire s op { f0 with srcB := 1 } = true) ∧ s.Inv ∧
    (∀ n ∈ [1, 2, 4, 8], ∀ l ∈ (s.firing 0x90 f0).lanes, s.elementFail 0 (s.laneNat 0 l) n false = none ∧
      s.elementFail 0 (s.laneNat 0 l) n true = none) ∧
    lane ((cellAfter (.ldsI { f0 with srcB := 2 }) s).v.getD 2 zeroLanes) 7 = 0xFFFFFF80 ∧
    lane ((cellAfter (.ldsF f0) s).v.getD 2 zeroLanes) 0 = 0x050403FF80 ∧
    mayFire z 0x93 f0 = true ∧
    (z.firing 0x93 f0).lanes.findSome? (fun l => z.elementFail 0 (z.laneNat 0 l) 8 true) = some (0x13, 1) ∧
    goes (exec (.stsF f0) z) (z.cellTrap (z.firing 0x93 f0) 0x13 0 0 (ownTileAddr 1)) ∧
    (after (exec (.stsI { f0 with dstA := 2 }) s)).byteAt (tileKey 0 3) = 0 := by
  unfold State.Inv; decide +kernel

/-- CellQueueAppend: a queue of two entries in SCRATCH with a tail at its last entry; a reserved descriptor; a misaligned
header, one out of range, one in no SCRATCH bank and one in error; an entry in no SCRATCH bank; no executing lane. -/
theorem wit_CellQueueAppend :
    let q (w : Fw) : State := scratch [1, 0, 0, 0, 0, 0, 0, 0] (cellS [[7, 9], [w]] (fun x => { x with q := x.q.set 0 3 }))
    let f : CellF := { f0 with trig := 0x81100000 }
    let s := q 0x0000400000
    s.Inv ∧ (s.firing 0x70 f).lanes = [0, 1] ∧ mayFire s 0x70 f = true ∧ (s.firing 0x70 f).exec ≠ 0 ∧
    s.scratchRange 0 0 8 = .ok (keysFrom (tileKey 0 0) 8) ∧ s.badRead (keysFrom (tileKey 0 0) 8) = false ∧
    (∀ j, j < 2 → s.scratchFail 0 (8 + 4 * ((1 + j) % 2)) 4 = none) ∧
    (after (exec (.qapp f) s)).readWord (keysFrom (tileKey 0 0) 8) = 3 ∧
    (after (exec (.qapp f) s)).readWord (keysFrom (tileKey 0 12) 4) = 7 ∧
    (after (exec (.qapp f) s)).readWord (keysFrom (tileKey 0 8) 4) = 9 ∧
    mayFire (q 0) 0x70 f = true ∧ goes (exec (.qapp f) (q 0)) ((q 0).cellTrap ((q 0).firing 0x70 f) 3 0 0 0) ∧
    goes (exec (.qapp f) (q 0x4000400004))
      ((q 0x4000400004).cellTrap ((q 0x4000400004).firing 0x70 f) 0x13 0 0 (ownTileAddr 4)) ∧
    goes (exec (.qapp f) (q 0x4000580000))
      ((q 0x4000580000).cellTrap ((q 0x4000580000).firing 0x70 f) 0x11 0 0 (ownTileAddr 0x180000)) ∧
    goes (exec (.qapp f) (q 0x400057FFF8))
      ((q 0x400057FFF8).cellTrap ((q 0x400057FFF8).firing 0x70 f) 0x12 0 0 (ownTileAddr 0x17FFF8)) ∧
    goes (exec (.qapp f) (q 0x400041FFF8))
      ((q 0x400041FFF8).cellTrap ((q 0x400041FFF8).firing 0x70 f) 0x12 0 0 (ownTileAddr 0x20000)) ∧
    (let z : State := { s with bad := [granuleOf (tileKey 0 0)] }
     mayFire z 0x70 f = true ∧ z.Inv ∧
     goes (exec (.qapp f) z) (z.cellTrap (z.firing 0x70 f) 0x1D 0 0 (ownTileAddr 0))) ∧
    (let z := s.updCell 0 0 (inbox 0 { tok [] 0 with valid := 0 })
     let g : CellF := { f0 with srcA := 8, trig := 0x80004100 }
     mayFire z 0x70 g = true ∧ (z.firing 0x70 g).exec = 0 ∧ fires (.qapp g) 0x70 g z (fun _ => 0) (fun _ => 0)) := by
  unfold State.Inv; decide +kernel

/-- CellOwners: an open entry that holds every lane's element, and none; offsets out of range and misaligned; no executing
lane; a claim, a claim of no words and a misaligned one; a release by its cell, by another, of no entry and with reserved
bits; ORDT with nothing open and with a command open. -/
theorem wit_CellOwners :
    let own (c : Nat) (s : State) : State := s.updTile 0 (fun x =>
      { x with owners := x.owners.set 3 { cell := c, base := 0, words := 1, closing := false } })
    let s := own 0 (scratch [] (cellS [[0, 4], [1, 2]] id))
    let f : CellF := { f0 with dstA := 13 }
    let d (w : Fw) : State := scratch [] (cellS [[w]] id)
    let e : CellF := { f0 with dstA := 8 }
    let stops (code op loc : Nat) (i : Instr) (g : CellF) (z : State) : Prop :=
      mayFire z op g = true ∧ goes (exec i z) (z.cellTrap (z.firing op g) code 0 0 (if loc = 0 then 0 else ownTileAddr loc))
    let u (a b : Fw) : State := scratch [] (cellS [[a, b], [1, 2]] id)
    let p : CellF := { f with srcA := 8, trig := 0x80004100 }
    let z := s.updCell 0 0 (inbox 0 { tok [] 0 with valid := 0 })
    stops 0x11 0x94 0x180000 (.updAdd f) f (u 0 0x180000) ∧ stops 0x13 0x95 4 (.updFadd f) f (u 0 4) ∧
    stops 0x07 0x99 0 (.updTas f) f (u 0 4) ∧ stops 0x03 0x9A 0 (.own f0) f0 (d 0x8000000000) ∧
    stops 0x13 0x9A 4 (.own f0) f0 (d 0x8000200004) ∧ stops 0x03 0x9A 0 (.own f0) f0 (d 0x0800000000) ∧
    stops 0x07 0x9A 0 (.own f0) f0 (d 0x6000000000) ∧ mayFire z 0x96 p = true ∧ (z.firing 0x96 p).exec = 0 ∧
    fires (.updMin p) 0x96 p z (fun _ => 0) (fun _ => 0) ∧
    (∀ op ∈ [0x94, 0x95, 0x96, 0x97, 0x98, 0x99], mayFire s op f = true) ∧ (s.firing 0x94 f).exec ≠ 0 ∧
    (∀ l ∈ (s.firing 0x94 f).lanes, s.laneNat 0 l < 0x180000 ∧ s.laneNat 0 l % 4 = 0 ∧
      (s.ownerOf 0 (s.laneNat 0 l) 4).map (fun o => o.2.closing) = some false) ∧
    (cellAfter (.updAdd f) s).updOut.length = 8 ∧ (cellAfter (.updAdd f) s).lq.getD 1 [] = [.reserved s.sched.ids] ∧
    mayFire (d 0xE000200000) 0x9A f0 = true ∧ (d 0xE000200000).claimFail 0 0xE000200000 = 0 ∧
    ((after (exec (.own f0) (d 0xE000200000))).tile 0).owners.find? 3 =
      some { cell := 0, base := 0, words := 1, closing := false } ∧
    ((own 0 (d 0x6000000000)).tile 0).owners.find? 3 = some { cell := 0, base := 0, words := 1, closing := false } ∧
    ((after (exec (.own f0) (own 0 (d 0x6000000000)))).tile 0).owners.find? 3 = none ∧
    ((own 1 (d 0x6000000000)).tile 0).owners.find? 3 = some { cell := 1, base := 0, words := 1, closing := false } ∧
    (cellAfter (.own f0) (own 1 (d 0x6000000000))).trapped = true ∧ mayFire s 0x9B e = true ∧
    ((after (exec (.ordt e) s)).cellAt 0 0).agOut.getD 0 [] = [tok [] 0 |> fun k => { k with valid := 0 }] ∧
    (cellAfter (.ordt e) (s.updCell 0 0 (fun x => { x with ecmds := [5] }))).pendOrdt =
      [{ dsts := [8, 31], tag := 0, waits := [5] }] := by
  decide +kernel

/-- CellMatrix: a legal and a reserved systolic descriptor; a shadow plane with room and without, a scale token; pairs of
tokens of differing tags, of tag 1 without lane 1, of tag 1, of tag 1 with a NaN whose trap is enabled, and of tag 0. -/
theorem wit_CellMatrix :
    let s (w : Fw) : State := cellS [[w]] id
    let ld (n : Nat) (sc : Bool) : State := cellS [] (fun x => inbox 0 { tok [7] 3 with scale := sc } { x with rowCtr := n })
    let h : CellF := { f0 with srcA := 8, dstA := 10, trig := 0x80004100 }
    let t (a b : Token) (g : Cell → Cell) : State := cellS [] (fun x => g (inbox 3 b (inbox 0 a x)))
    let m : CellF := { f0 with srcA := 8, srcB := 11, dstA := 10, trig := 0x80024900 }
    let one := tok [0x4008000000, 0x3FF8000000] 1
    mayFire (s 0xC0FF000000) 0xA0 f0 = true ∧ (0xC0FF000000 : Fw).getLsbD 39 = true ∧
    (0xC0FF000000 : Fw).toNat / 2 ^ 37 % 4 = 2 ∧ (0xC0FF000000 : Fw).toNat / 2 ^ 32 % 8 = 0 ∧
    (0xC0FF000000 : Fw).toNat % 2 ^ 24 = 0 ∧ (cellAfter (.sysm f0) (s 0xC0FF000000)).sys = some 0xC0FF000000 ∧
    (cellAfter (.sysm f0) (s 0xE000000000)).trapped = true ∧ (0xE000000000 : Fw).toNat / 2 ^ 37 % 4 = 3 ∧
    mayFire (ld 31 false) 0xA1 h = true ∧ mayFire (ld 31 true) 0xA1 h = true ∧ mayFire (ld 32 false) 0xA1 h = true ∧
    (cellAfter (.ldsw h) (ld 31 false)).rowCtr = 32 ∧ lane (cellAfter (.ldsw h) (ld 31 true)).planeS.cs 0 = 7 ∧
    ((after (exec (.ldsw h) (ld 32 false))).cellAt 0 8).xin.getD 0 [] = [tok [7] 3] ∧
    mayFire (ld 32 false) 0xA2 f0 = true ∧ mayFire (s 0) 0xA3 { f0 with srcA := 8, srcB := 15, dstA := 0 } = true ∧
    mayFire (t one one id) 0xA4 m = true ∧ (t one one id).slotHead 0 0 8 = some one ∧ (t one one id).slotHead 0 0 11 = some one ∧
    (cellAfter (.tmrg m) (t one (tok [] 0) id)).trapped = true ∧
    (cellAfter (.tmrg m) (t one { one with valid := 1 } id)).trapped = true ∧
    ((mergeHead (lane one.lanes 0) (lane one.lanes 1) (lane one.lanes 0) (lane one.lanes 1)).2 &&&
      ((t one one id).firing 0xA4 m).x.ctx.trapEn = 0) ∧
    (let z := t one (tok [defaultNaN, 0] 1) trapping
     mayFire z 0xA4 m = true ∧ (z.firing 0xA4 m).exec ≠ 0 ∧ (z.firing 0xA4 m).x.ctx.trapEn = 0x1F ∧
     goes (exec (.tmrg m) z) (z.cellTrap (z.firing 0xA4 m) 1 0 flagInvalid 0)) ∧
    (((after (exec (.tmrg m) (t one one id))).cellAt 0 8).xin.getD 0 []).map (fun k => lane k.lanes 1) = [0x4008000000] ∧
    (((after (exec (.tmrg m) (t (tok [fwOne] 0) (tok [fwOne] 0) id))).cellAt 0 8).xin.getD 0 []).map
      (fun k => lane k.lanes 0) = [0x4008000000] := by
  decide +kernel

/-- CellSystem: a command with no port bound, with one and with no executing lane; a sweep from the region's first cell and from another; the
halts, traps and flags. -/
theorem wit_CellSystem :
    let s := cellS [[1, 2]] (fun x => { x with flags := x.flags.set 7 0x1F })
    let p := s.updOpr 0 0 (fun o => { o with ports := o.ports.set 0 7 })
    let other : State := { s with sched := { s.sched with focus := { s.sched.focus with cell := 1 } } }
    (let g : CellF := { f0 with srcA := 8, trig := 0x80004100 }
     let z := s.updCell 0 0 (inbox 0 { tok [] 0 with valid := 0 })
     mayFire z 0xB0 g = true ∧ (z.firing 0xB0 g).exec = 0 ∧
     goes (exec (.ecmd g) z) (z.firedWith (z.firing 0xB0 g) (fun u => u))) ∧
    mayFire s 0xB0 f0 = true ∧ (s.firing 0xB0 f0).exec ≠ 0 ∧ s.portOf 0 0 = none ∧ (cellAfter (.ecmd f0) s).trapped = true ∧
    mayFire p 0xB0 f0 = true ∧ p.portOf 0 0 = some 7 ∧ f0.pop = 0 ∧ (p.firing 0xB0 f0).names 14 = false ∧
    (cellAfter (.ecmd f0) p).er = [.reserved p.sched.ids] ∧
    ((after (exec (.ecmd f0) p)).queueAt 0 0 7).items.map (·.w0) = [0x0000020000000001] ∧
    mayFire s 0xC0 f0 = true ∧ (s.tile 0).anchor = some 0 ∧ ((after (exec (.csweep f0) s)).region 0).sweeps.length = 1 ∧
    mayFire other 0xC0 f0 = true ∧ ((after (exec (.csweep f0) other)).cellAt 0 1).trapped = true ∧
    (∀ op ∈ [0xC1, 0xC2, 0xC3, 0xC4], mayFire s op f0 = true) ∧ (cellAfter (.cellHalt f0) s).halted = true ∧
    (cellAfter (.flgc { f0 with srcA := 3 }) s).flags.getD 7 0 = 0x1C ∧ lane ((cellAfter (.flgr f0) s).v.getD 2 zeroLanes) 7 = 0x1F := by
  decide +kernel

/-! ### Witnesses: submission entries and register writes -/

/-- What an access that passes gives, and the state after it, meet a test. -/
def got {α : Type} (r : Res α × State) (p : α → State → Bool) : Bool := match r with
  | (.ok a, s) => p a s
  | _ => false

/-- Words at a device-physical address. -/
def poke (a : Nat) (w : List Word) (s : State) : State := s.writeKeys (keysFrom a (8 * w.length)) (bytesOf w)

/-- Both stages of VI 0 map the first GiB to itself, and window 0 covers it. -/
def mapped (s : State) : State :=
  poke 0x3000 [0xF] (poke 0x2000 [0x3001] (poke 0x1000 [0x2001] (s.updVi 0 (fun v => { v with
    vsroot := 0x8000000000001000, hsroot := 0x8000000000001000, wind := KMap.ofList [{ w0 := 3, w1 := 0x4000 }] }))))

/-- VI 0 with a tenant RCB 0, a job RCB 1 and an operator RCB 2, and completion queue 0 of two entries in host memory, empty, at its
last entry. -/
def served : State :=
  let rcb (w0 : Word) : Rcb := { w0 := w0, w1 := 0x8C1A400046000000, w2 := 0x0000080138800000, w3 := 0, serial := 1, addr := 0x180000 }
  mapped (State.reset.updVi 0 (fun v => { v with
    rcbs := KMap.ofList [rcb 0, rcb 0x0100100000000000, rcb 0x0200200100000000]
    sq := KMap.ofList [{ w1 := 0x1000000000000000, en := true, busy := true }]
    cq := KMap.ofList [{ w0 := 0x1000, w1 := 0x1005000000000000, en := true, head := 1, tail := 1 }] }))

/-- An entry of VI 0's queue 0, for RCB 1 where its command names one. -/
def entry (op : Nat) (w1 w2 w3 w4 : Word) : Entry :=
  { vi := 0, sq := 0, w0 := wd (op * 2 ^ 56 + (if op = 2 ∨ 6 < op then 0 else 2 ^ 32) + 77), w1 := w1, w2 := w2, w3 := w3, w4 := w4, w5 := 0, w6 := 0, w7 := 0 }

/-- CompletionEntries: a queue in host memory whose last entry is written, so that it wraps, and one that is full. -/
theorem wit_CompletionEntries :
    let f : FeCmd := { e := entry 8 3 0 0 0, wait := .ready, started := 0, sqHead := 9 }
    let s : State := { served with fe := [f] }
    let full := s.updVi 0 (fun v => { v with cq := v.cq.upd 0 {} (fun q => { q with head := 0 }) })
    let q := (s.vi 0).cq.getD 0 {}
    let u := s.feEnd f 8 5
    s.Inv ∧ ((s.vi 0).sq.getD 0 {}).w1.toNat / 2 ^ 56 % 16 = 0 ∧ q.en = true ∧ q.inDevice = false ∧ (q.tail + 1) % q.size = 0 ∧
    u.fe = [] ∧ u.mem.getN (hostKey 0 (q.base + 16)) 16 = bytesOf [0x0000004D00090011, 5] ∧
    ((u.vi 0).cq.getD 0 {}).phase = false ∧ ((u.vi 0).vecPend.find? 5) = some 0 ∧ (q.head + q.size - q.tail - 1) % q.size = 1 ∧
    (0 + q.size - q.tail - 1) % q.size = 0 ∧ (full.feEnd f 8 5).fe.map (·.wait) = [.ended 8 5] := by
  unfold State.Inv; decide +kernel

/-- An image of one tile: an OPER section whose fire tag is 5, and a task for it whose block is one END (R175 to R177). -/
def tinyImage : List Word :=
  [0x200014C44534F, 0x101000000A0, 0xB0F9439, 0, 0, 0, 0, 0, 0x60FFFF0001, 0x20, 0x8000000003, 0x20, 0x100480000000028, 0,
   0, 0, 0x400000005, 0, 0, 0x3A00000000202000]

/-- RegisterEntries: a tenant, a job and an operator RCB that are accepted, with an image that is accepted and one that is
not; an RCB that is refused. -/
theorem wit_RegisterEntries :
    let s (w0 : Word) : State := poke 0x101000 tinyImage
      (poke 0x100000 [w0, 0x8C1A400046000000, 0x0000080138800000, 0, 0, 0, 0, 0] served)
    let e := entry 1 0 0 0x100000 0
    let o := entry 1 0x101000 160 0x100000 0
    let read (w0 : Word) (p : List Word → State → Bool) : Bool := got ((s w0).feRead 0 0x100000 64) (fun b u => p (wordsOf b) u)
    e.w3.toNat % 64 = 0 ∧
    read 0 (fun w u => decide (u.rcbStatus 0 w = 0) && decide ((w.getD 0 0).toNat / 2 ^ 56 % 4 = 0)) ∧
    read 0x0100100000000000 (fun w u => decide (u.rcbStatus 0 w = 0)) ∧
    read 0x0300100000000000 (fun w u => decide (u.rcbStatus 0 w = 1)) ∧
    read 0x0200200100000000 (fun w u => decide (u.rcbStatus 0 w = 0) &&
      got (u.feRead 0 0x101000 160) (fun b _ => match parseImage b with | .ok im => decide (im.w = 1) | .error _ => false) &&
      got (u.feRead 0 0x101000 64) (fun b _ => match parseImage b with | .ok _ => false | .error _ => true)) ∧
    e.w1 = 0 ∧ e.w2 = 0 ∧ e.w4 = 0 ∧ o.w1 ≠ 0 ∧
    (((after (exec (.register e) (s 0x0100100000000000))).rcb 0 1).map (fun r => r.serial)) = some 2 ∧
    (((after (exec (.register o) (s 0x0200200100000000))).ops.find? (2 ^ 30 + 2 * 2 ^ 18 + 2)).map (·.job)) = some 1 := by
  decide +kernel

/-- RegisterEntries: a job RCB with a group table that is accepted, that holds one group twice, that is too long and that cannot
be read. -/
theorem wit_RegisterEntries_groups :
    let s (t : List Word) : State := poke 0x101000 t
      (poke 0x100000 [0x0100100000000000, 0x8C1A400046000000, 0x0000080138800000, 0, 0, 0, 0, 0] served)
    let e (w4 : Word) : Entry := entry 1 0 0 0x100000 w4
    let read (t : List Word) : State := (((s t).feRead 0 0x100000 64).2.feRead 0 0x101000 24).2
    let g : List Word := [1, 0x0007000200000000, 0x00020001]
    let two : List Word := [2, 0x0007000100000000, 1, 0x0007000100000000, 2]
    let is {α : Type} [DecidableEq α] (r : Res α × State) (a : α) (u : State) : Bool := got r (fun x v => decide (x = a) && decide (v = u))
    let groups (u : State) : Option (List Nat) := (u.job 1).groups.find? 7
    (e 0x101000).w4 ≠ 0 ∧ groups (after (exec (.register (e 0x101000)) (s g))) = some [1, 2] ∧
    is ((read two).groupTable 0 0x101000) none (read two) = true ∧
    is ((read [257]).groupTable 0 0x101000) none (read [257]) = true ∧
    got ((read g).groupTable 0 0x40000000) (fun _ _ => true) = false ∧
    (((after (exec (.register (e 0x101000)) (s two))).rcb 0 1).map (·.serial)) = some 1 ∧
    (∀ o ∈ [0, 8, 16, 24], ∀ n ∈ [0, 8, 16, 24], o + n ≤ 24 →
      is ((read g).feRead 0 (0x101000 + wd o) n) (((bytesOf g).drop o).take n) (read g) = true) ∧
    (∀ o ∈ [0, 8], ∀ n ∈ [0, 8], o + n ≤ 8 →
      is ((read [0]).feRead 0 (0x101000 + wd o) n) (((bytesOf [0]).drop o).take n) (read [0]) = true) := by
  decide +kernel

/-- The served machine with the operator of RCB 2 registered. -/
def registered : State :=
  { served with ops := KMap.mk [(0x40080001, { vi := 0, job := 1, rcb := 2, image := oneTileImage {} {} })] }

/-- PlaceEntries: no such operator; one that finds room, and one that no rectangle takes; one placed with nothing waiting,
and with a record in its hamper. -/
theorem wit_PlaceEntries :
    let e := entry 2 0x40080001 0xF000800000000000 0 0
    let bad := entry 2 0x40080001 0xF006000000000000 0 0
    let s := registered
    let op : Operator := { vi := 0, job := 1, rcb := 2, image := oneTileImage {} {} }
    let q (e : Entry) : PlaceReq := { id := e.w1, op := op, vi := 0, banks := e.w2.toNat / 2 ^ 47 % 16, weights := 0 }
    let u := after (exec (.place e) s)
    let pk : Nat := (u.placeOf 0x40080001).elim 0 Prod.fst
    let w := u.updHamper pk (fun h => { h with forming := some { rows := [{ r := recOfBytes [], pay := [] }], tileSlot := 0 } })
    served.ops.find? e.w1.toNat = none ∧ s.ops.find? e.w1.toNat = some op ∧ s.freshId 0 e.w1 op = true ∧
    placeOptsOk e.w2 = true ∧ placeOptsOk bad.w2 = true ∧ s.placeOf e.w1.toNat = none ∧ e.w2.getLsbD 46 = false ∧
    s.routeHeld 0 1 op.image.routes = false ∧
    (s.newId.2.placeWhere e (q e) s.sched.ids).toOption.map (fun r => r.1.slot) = some 0 ∧
    ((s.newId.2.placeWhere bad (q bad) s.sched.ids).toOption.isNone = true) ∧
    (u.placeOf e.w1.toNat).map (fun p => (p.2.vi, u.waitingFor p.1 p.2, u.liveGroups p.1)) = some (0, [], []) ∧
    ((after (exec (.unplace e) u)).placeOf e.w1.toNat) = none ∧
    (w.placeOf e.w1.toNat).map (fun p => (w.waitingFor p.1 p.2).length) = some 1 ∧
    ((after (exec (.unplace e) w)).placeOf e.w1.toNat).isSome = true := by
  decide +kernel

/-- A PLACE of the registered operator, with options. -/
def placing (w2 : Word) : Entry := entry 2 0x40080001 w2 0 0

/-- The registered machine, whose VI 0 has no completion queue. -/
def quiet : State := registered.updVi 0 (fun v => { v with cq := {} })

/-- The entry answers with a status alone. -/
def refuses (i : Instr) (e : Entry) (s : State) (n : Nat) : Bool := goes (exec i s) (s.feFail e n)

/-- PlaceEntries: an operator's identifier of another VI; options that are reserved; an operator placed already, and one whose
class is not 0 with over; a route index that is held. -/
theorem wit_PlaceEntries_statuses :
    let g := placing 0xF000800000000000
    let v : Entry := { g with vi := 3 }
    let s := quiet
    let u := after (exec (.place g) s)
    let op : Operator := { vi := 0, job := 1, rcb := 2, image := { oneTileImage {} {} with routes := [0x09C0000000000000] } }
    let held : State := { s with places := s.places.set 5 { onePlacement 7 with job := 1, routes := [9] }, ops := s.ops.set 0x40080001 op }
    s.freshId 3 g.w1 op = false ∧ refuses (.place v) v s 5 ∧
    placeOptsOk 0xF006800000000000 = false ∧ refuses (.place (placing 0xF006800000000000)) (placing 0xF006800000000000) s 1 ∧
    u.placeOf g.w1 ≠ none ∧ refuses (.place g) g u 6 ∧ (0xF000C00000000000 : Word).getLsbD 46 = true ∧ s.effective 0 op.rcb 5 ≠ 0 ∧
    refuses (.place (placing 0xF000C00000000000)) (placing 0xF000C00000000000) s 6 ∧
    held.routeHeld 0 1 op.image.routes = true ∧ refuses (.place g) g held 4 := by
  decide +kernel

/-- PlaceEntries: more banks than a hamper leaves, no free rectangle, a charge that does not fit, and the first rectangle after two
tiles that are not free. -/
theorem wit_PlaceEntries_search :
    let g := placing 0xF000800000000000
    let all := placing 0xF006000000000000
    let exact := placing 0x0008800000000000
    let s := quiet
    let poor := s.updRcb 0 2 (fun r => { r with tiles := 4095 })
    let busy := (s.updTile 0 (fun x => { x with anchor := some 7 })).updTile 1 (fun x => { x with state := .spare })
    let at_ (s : State) : List (Nat × Nat × Nat × BitVec 12 × BitVec 12) :=
      ((after (exec (.place g) s)).placeOf 0x40080001).toList.map (fun p => (p.2.die, p.2.x, p.2.y, p.2.banks, p.2.hbanks))
    g.w3 = 0 ∧ g.w2.getLsbD 46 = false ∧ g.w2.toNat / 2 ^ 47 % 16 = 1 ∧ refuses (.place all) all s 3 ∧
    refuses (.place exact) exact busy 3 ∧ refuses (.place g) g poor 2 ∧
    (s.rcb 0 2).map (fun r => decide (r.tiles + 1 ≤ s.effective 0 2 0)) = some true ∧
    at_ s = [(0, 0, 0, 1, 0x800)] ∧ at_ busy = [(0, 2, 0, 1, 0x800)] := by
  decide +kernel

/-- The registered machine with operators of its RCB 0 placed on tile 0; a PLACE that would join them. -/
def peopled (im : Image) (l : List Placement) : State :=
  let op : Operator := { vi := 0, job := 1, rcb := 2, image := im }
  { quiet with
    places := l.foldl (fun m p => m.set p.key p) {}
    ops := KMap.mk [(0, op), (1, op), (2, op), (3, op), (0x40080001, op)] }
def joining : Entry := entry 2 0x40080001 0xF000800000000000 1 0

/-- PlaceEntries: a W3 that names no operator, a region of another size, a full one, one whose tags meet, one without banks, and
one that is joined. UNPLACE by another VI. -/
theorem wit_PlaceEntries_join :
    let im : Image := oneTileImage {} {}
    let tagged : Image := oneTileImage (KMap.ofList [[0x105, 4, 0, 0]]) {}
    let p (k : Nat) : Placement := { onePlacement (wd k) with slot := k, order := k }
    let one := peopled im [p 0]
    let wide := peopled im [{ p 0 with w := 2 }]
    let met := peopled tagged [p 0]
    let full := peopled im [p 0, p 1, p 2, p 3]
    let few := peopled im [{ p 0 with banks := 0xFFF }]
    let other := (peopled im [{ p 0 with vi := 5 }]).updVi 5 (fun v => { v with rcbs := (quiet.vi 0).rcbs })
    let id := regIdOf 5 0 0 1
    let f : Entry := { joining with vi := 5, w1 := regIdOf 5 1 2 1 }
    let five : State := { other with
      places := one.places, ops := other.ops.set f.w1.toNat { vi := 5, job := 1, rcb := 2, image := im } }
    joining.w3 ≠ 0 ∧ quiet.placeOf 1 = none ∧ refuses (.place joining) joining quiet 5 ∧
    (one.placeOf 1).map (fun q => (q.1, q.2.vi)) = some (0, 0) ∧ (one.regionOps 0).length = 1 ∧
    (∀ o ∈ wide.regionOps 0, o.2.w ≠ im.w ∨ o.2.h ≠ im.h) ∧ refuses (.place joining) joining wide 6 ∧
    4 ≤ (full.regionOps 0).length ∧ refuses (.place joining) joining full 6 ∧
    (met.regionOps 0).map (fun o => (met.imageOf o.2).map (fun x => (x.tags 0).contains 5)) = [some true] ∧
    virtTiles 1 1 = [0] ∧ refuses (.place joining) joining met 6 ∧
    (∀ b < 12, (few.usedBanks 0 0).getLsbD b = true) ∧ refuses (.place joining) joining few 6 ∧
    ((after (exec (.place joining) one)).placeOf joining.w1).map (fun q => (q.2.anchor, q.2.slot)) = some (0, 1) ∧
    (other.placeOf id).map (fun q => q.2.vi) = some 5 ∧ refuses (.unplace (entry 2 id 0 0 0)) (entry 2 id 0 0 0) other 5 ∧
    refuses (.place { joining with w3 := id }) joining other 6 = false ∧ (five.placeOf f.w3).map (fun q => q.2.vi) = some 0 ∧ refuses (.place f) f five 6 := by
  decide +kernel

/-- CommandEntries: an INJECT of one record over a resolved route; commands that are not refused; a TIMED that holds a
command it may hold, and one that it may not. -/
theorem wit_CommandEntries :
    let s : State := poke 0x100000 [0x0600000100000000, 0, 0, 0, 0, 0, 0, 0]
      (served.updJob 1 (fun j => { j with routes := j.routes.set 255 0xFFC0000000000000 }))
    let i := entry 3 0x200000 1 255 0x300000
    let tagged : State := { s with
      places := s.places.set 0 { onePlacement 7 with job := 1 }
      ops := s.ops.set 7 { vi := 0, job := 1, rcb := 2, image := oneTileImage (KMap.ofList [[0x105, 4, 0, 0]]) {} }
      jobs := s.jobs.upd 1 {} (fun j => { j with routes := j.routes.set 255 0xFF80000000000005 })
      tiles := s.tiles.set 0 { s.tile 0 with anchor := some 0 } }
    let t := entry 7 5 0x100000 0 0
    let n := entry 7 5 0x100040 0 0
    let cmd (code : Nat) (e : Entry) : QCmd :=
      { id := s.sched.ids, w0 := wd (code * 2 ^ 56), w1 := e.w1, w2 := e.w2, w3 := e.w3, w4 := e.w4, by_ := .front 0 0, epoch := 0 }
    (s.rcb 0 1).map (·.level) = some 1 ∧ i.w2 ≠ 0 ∧ i.w2.toNat ≤ 4096 ∧ i.w1.toNat % 128 = 0 ∧ i.w4.toNat % 64 = 0 ∧
    s.routeTo 0 1 (i.w3.toNat % 256) = some (.hamper 0) ∧ 0 < 64 ∧
    (s.newId.2.injectFrom i s.sched.ids (s.effective 0 1 5) i.w2.toNat i.w1.toNat i.w4.toNat).1 = none ∧ s.net = [] ∧
    ((after (exec (.inject i) s)).net.map (fun r => (r.src, r.body.r.job, r.cmd))) = [(0xFFF, 1, some s.sched.ids)] ∧
    (after (exec (.inject i) s)).fe.map (·.wait) = [.arriving s.sched.ids] ∧
    goes (makeMove (.command 0) (after (exec (.inject i) s))) (after (exec (.inject i) s)) ∧
    (after (makeMove (.command 0) { after (exec (.inject i) s) with net := [] })).fe = [] ∧
    tagged.routeTo 0 1 255 = some (.tag 0 5 0) ∧ (after (exec (.inject i) tagged)).fe = [] ∧
    (after (exec (.inject i) tagged)).net.length = 1 ∧
    s.newId.2.cmdRefusal (cmd 0x99 (entry 6 0 0x100000000 8 0)) (wd (2 ^ 60 + 15 * 2 ^ 56)) 0 1 = 0 ∧
    s.newId.2.cmdRefusal (cmd 0xAA (entry 4 0 0 0x10000 0)) (wd (2 ^ 60 + 15 * 2 ^ 56)) 0 1 = 0 ∧
    s.newId.2.cmdRefusal (cmd 0xAB (entry 5 0 0 0 0)) (wd (7 * 2 ^ 60 + 15 * 2 ^ 56)) 0 1 = 0 ∧
    t.w2.toNat % 64 = 0 ∧ got (s.feRead 0 t.w2 64) (fun b _ => timedOk (entryOfBytes 0 0 b)) ∧
    got (s.feRead 0 n.w2 64) (fun b _ => !timedOk (entryOfBytes 0 0 b)) ∧
    ((after (exec (.timed t) s)).fe.map (fun f => match f.wait with | .timed w _ => w | _ => 0)) = [5] := by
  decide +kernel

/-- QueryEntries: an answer that can be written, for each kind. -/
theorem wit_QueryEntries :
    let p := after (exec (.place (entry 2 0x40080001 0xF000800000000000 0 0)) registered)
    let e (k w3 : Word) : Entry := entry 8 k 0x200000 w3 0
    (e 0 0).w2.toNat % 8 = 0 ∧ got (served.feKeys 0 0x200000 1152 true) (fun ks u => !u.badWrite ks) ∧
    got (served.feKeys 0 0x200000 8 true) (fun ks u => !u.badWrite ks) ∧
    got (p.feKeys 0 0x200000 32 true) (fun ks u => !u.badWrite ks) ∧ (p.placeOf 0x40080001).map (·.2.vi) = some 0 ∧
    got (served.feKeys 0 0x200000 16 true) (fun ks u => !u.badWrite ks) ∧ (served.rcb 0 2).isSome = true ∧
    (after (exec (.queryRcbUsage (e 2 2)) ((served.updVi 0 (fun v => { v with cq := {} })).updRcb 0 2
      (fun r => { r with tiles := 3 })))).readWord (keysFrom 0x200000 8) = 0x0060000000000000 := by
  decide +kernel

/-- A register write of VI 0 in the focus of a machine. -/
def writing (off : Nat) (v : Word) (s : State) : State :=
  { s with sched := { s.sched with focus := { s.sched.focus with wr := { vi := 0, port := 0, off := off, v := v } } } }

/-- QueueRegisters: a write through a port that is down; descriptor words of queue 15; a doorbell below and at the entry
count; a completion head. -/
theorem wit_QueueRegisters :
    let down : State := { (writing 0x1078 1 served) with dev := { served.dev with portsDown := [0] } }
    let q (en : Bool) (s : State) : State := s.updVi 0 (fun v => { v with sq := v.sq.set 15 { w1 := 0x4000000000000000, en := en } })
    let d (off : Nat) (v : Word) (en : Bool) : State := writing off v (q en served)
    let c : State := (writing 0x10F8 15 served).updVi 0 (fun v => { v with cq := v.cq.set 15 { w1 := 0x4000000000000000 } })
    down.regServed down.sched.focus.wr = false ∧ goes (exec .sqDoorbell down) down ∧
    (d 0x1F0 0x5000 false).regServed (d 0x1F0 0x5000 false).sched.focus.wr = true ∧ 15 < 16 ∧ 0x1F0 = 0x100 + 16 * 15 ∧
    (((d 0x1F0 0x5000 false).vi 0).sq.getD 15 {}).en = false ∧
    ((after (exec .queueDescriptorWrite (d 0x1F0 0x5000 false))).vi 0).sq.getD 15 {} =
      { w0 := 0x5000, w1 := 0x4000000000000000 } ∧
    0x1F8 = 0x108 + 16 * 15 ∧ (0x4000800000000000 : Word).getLsbD 47 = true ∧
    descOk false (((d 0x1F8 0x4000800000000000 false).vi 0).sq.getD 15 {}).w0 0x4000800000000000 = true ∧
    (((after (exec .queueDescriptorWrite (d 0x1F8 0x4000800000000000 false))).vi 0).sq.getD 15 {}).en = true ∧
    0x1078 = 0x1000 + 8 * 15 ∧ ((d 0x1078 15 true).ordAt 0 0).lost = false ∧ ((d 0x1078 15 true).ordAt 0 0).writes = [] ∧
    (((d 0x1078 15 true).vi 0).sq.getD 15 {}).en = true ∧ (15 : Word).toNat % 2 ^ 16 < (((d 0x1078 15 true).vi 0).sq.getD 15 {}).size ∧
    (((after (exec .sqDoorbell (d 0x1078 15 true))).vi 0).sq.getD 15 {}).tail = 15 ∧
    (((d 0x1078 16 true).vi 0).sq.getD 15 {}).size ≤ (16 : Word).toNat % 2 ^ 16 ∧ (((d 0x1078 16 true).vi 0).sq.getD 15 {}).busy = false ∧
    (((after (exec .sqDoorbell (d 0x1078 16 true))).vi 0).sq.getD 15 {}).en = false ∧ 0x10F8 = 0x1080 + 8 * 15 ∧ 15 ≠ 0 ∧
    c.regServed c.sched.focus.wr = true ∧ ((after (exec .cqDoorbell c)).vi 0).cq.getD 15 {} = { w1 := 0x4000000000000000, head := 15 } := by
  decide +kernel

/-- QueueRegisters: a completion head, and a descriptor, of a full queue for which a command that has ended waits. -/
theorem wit_QueueRegisters_ended :
    let f : FeCmd := { e := entry 8 3 0 0 0, wait := .ended 8 5, started := 0, sqHead := 9 }
    let q : RingQ := { (served.vi 0).cq.getD 0 {} with head := 0 }
    let at_ (off : Nat) (v : Word) : State :=
      { (writing off v served).updVi 0 (fun v => { v with cq := v.cq.set 0 q }) with fe := [f] }
    let c := at_ 0x1080 1
    let u := c.updVi 0 (fun v => { v with cq := v.cq.set 0 { q with head := 1 } })
    c.regServed c.sched.focus.wr = true ∧ (1 : Word).toNat % 2 ^ 16 < q.size ∧ f.wait = .ended 8 5 ∧ c.fe.count f = 1 ∧
    c.entryRoom 0 0 = false ∧ u.entryRoom 0 0 = true ∧ (after (exec .cqDoorbell c)).fe = [] ∧ served.dev.owed = [] ∧
    0x208 < 0x310 ∧ 0x100 ≤ 0x208 ∧ (after (exec .queueDescriptorWrite (at_ 0x208 0x4005800000000000))).fe = [] := by
  decide +kernel

/-- ControlRegisters: a served write; a window descriptor that is accepted and one that overlaps; DOMCTL in its three
forms, with an instance that waits on a trap. -/
theorem wit_ControlRegisters :
    let w0 := writing 0x10400 0x40003 served
    let w1 (l : Word) : State := (writing 0x10018 l served).updVi 0 (fun v => { v with winw0 := v.winw0.set 1 0x40003 })
    let t (v : Word) : State := (writing 0x50 v (on (blk [0]))).updCore 0 (fun c => { c with
      insts := c.insts.set 31 { pk := 0, tag := 0, set := 0, prio := 0, seq := 0, block := 0, status := .trapped } })
    w0.regServed w0.sched.focus.wr = true ∧ 0x10400 / 8 % 2 = 0 ∧ 0x10018 / 8 % 2 = 1 ∧
    windowOk ((w1 0x10).vi 0).wind 1 { w0 := 0x40003, w1 := 0x10 } = false ∧
    windowOk ((w1 0).vi 0).wind 1 { w0 := 0x40003, w1 := 0 } = true ∧
    ((after (exec .windowDescriptorWrite (w1 0))).vi 0).wind.find? 1 = some { w0 := 0x40003, w1 := 0 } ∧
    ((after (exec .windowDescriptorWrite (w1 0x10))).vi 0).wind.find? 1 = none ∧
    ((after (exec .invreqBoth (writing 0x80 0x300000007 served))).vi 0).inv.map (fun q => (q.kind, q.seq)) = [(3, 7)] ∧
    (t 0x10000).regServed (t 0x10000).sched.focus.wr = true ∧ (0x10000 : Word).getLsbD 16 = true ∧
    (0x20000 : Word).getLsbD 17 = true ∧ (0x40000 : Word).getLsbD 18 = true ∧
    ((t 0x20000).places.find? 0).map (fun p => (p.vi, p.domain, p.tiles)) = some (0, 0, [0]) ∧
    (((after (exec .domctlResume (t 0x20000))).core 0).insts.find? 31).map (·.status) = some .ready ∧
    ((after (exec .domctlAbort (t 0x40000))).core 0).insts.find? 31 = none := by
  decide +kernel

/-- DeviceRegisters: values at and past the ends of their ranges; a spare tile, a halted core; amounts of each sign; a
leaf left; the states of a firmware update. -/
theorem wit_DeviceRegisters :
    let r (off : Nat) (v : Word) : State := writing off v served
    let spare (v : Word) : State := (r 0x4100 v).updTile 1151 (fun x => { x with state := .spare })
    let halted (v : Word) : State := (r 0x4100 v).updCore 1151 (fun c => { c with halted := true })
    let fw (f : FwState) (v : Word) : State := { (r 0x4400 v) with dev := { (r 0x4400 v).dev with fwstate := f } }
    (r 0x4000 3200).regServed (r 0x4000 3200).sched.focus.wr = true ∧ (after (exec .registerWrite (r 0x4000 800))).dev.pcap = 800 ∧
    (after (exec .registerWrite (r 0x4000 3201))).dev.pcap = 3200 ∧ (after (exec .registerWrite (r 0x4210 0))).dev.cethr = 1024 ∧
    (after (exec .registerWrite (r 0x4300 2))).dev.fepol = 2 ∧ (r 0x4300 2).dev.vfQueue = false ∧
    1151 < 1152 ∧ ((spare 1151).tile 1151).state = .spare ∧ ((after (exec .tilecmdAdmit (spare 1151))).tile 1151).state = .enabled ∧
    ((spare 1150).tile 1150).state ≠ .spare ∧ (after (exec .tilecmdAdmit (spare 1150))).dev.tileResult = 1 ∧ 1152 ≤ 1152 ∧
    ((halted 1151).core 1151).halted = true ∧ ((after (exec .tilecmdRestart (halted 1151))).core 1151).halted = false ∧
    ((r 0x4100 5).tile 5).state = .enabled ∧ ((after (exec .tilecmdWithdraw (r 0x4100 5))).tile 5).state = .withdrawn ∧
    goes (exec .tadjStep (r 0 0x3FFFFFFFFFFFFFFF)) (r 0 0x3FFFFFFFFFFFFFFF) ∧ (after (exec .tadjStep (r 0 5))).clk.time = 5 ∧
    (r 0 0).dev.leaf < 2 ^ 20 ∧ (r 0 0).dev.owed = [] ∧ (fw .idle 60000).dev.fwstate = .idle ∧
    (after (exec .fwctlStart (fw .idle 60000))).dev.fwstate = .verifying ∧ (fw .canary 0).dev.fwstate = .canary ∧
    (after (exec .fwctlCommit (fw .canary 0))).dev.fwstate = .committing ∧
    (after (exec .fwctlRevert (fw .canary 0))).dev.fwreason = 6 ∧ goes (exec .fwctlRevert (fw .idle 0)) (fw .idle 0) := by
  decide +kernel

/-- DeviceRegisters: the package number with the links off and on; a time source and one out of range; the last nonce register and
route entry; a restart of a core that runs, a withdrawal of a tile that is withdrawn, and an exhausted key. -/
theorem wit_DeviceRegisters_more :
    let r (off : Nat) (v : Word) : State := writing off v served
    let dev (f : Dev → Dev) (s : State) : State := { s with dev := f s.dev }
    let on_ := dev (fun d => { d with lnkctl := 1 }) (r 0x4008 7)
    let done := (r 0x4100 5).updTile 5 (fun x => { x with state := .withdrawn })
    let spent := dev (fun d => { d with leaf := 2 ^ 20 }) (r 0x4060 1)
    let u (off : Nat) (v : Word) : State := after (exec .registerWrite (r off v))
    (r 0x4008 7).regServed (r 0x4008 7).sched.focus.wr = true ∧ (r 0x4008 7).dev.lnkctl = 0 ∧ (u 0x4008 7).dev.pkgid = 7 ∧
    on_.dev.lnkctl ≠ 0 ∧ goes (exec .registerWrite on_) on_ ∧ goes (exec .registerWrite (r 0x4020 3)) (r 0x4020 3) ∧
    (u 0x4020 0x52).dev.timesrc.toNat % 4 = 2 ∧ (u 0x4020 0x52).dev.timesrc.toNat / 2 ^ 4 = 5 ∧
    (u 0x4058 0x1122334455667788).dev.nonce.getD 31 0 = 0x11 ∧ (u 0x4058 0x1122334455667788).dev.nonce.getD 23 0 = 0 ∧
    (u 0x49FE 0xABCD).dev.rtbl.getD 255 0 = 0xABCD ∧ ((r 0x4100 5).core 5).halted = false ∧
    (after (exec .tilecmdRestart (r 0x4100 5))).dev.tileResult = 1 ∧ (done.tile 5).state = .withdrawn ∧
    (after (exec .tilecmdWithdraw done)).dev.tileResult = 1 ∧ 2 ^ 20 ≤ spent.dev.leaf ∧ (∀ o ∈ spent.dev.owed, o.1 = false) ∧
    (after (exec .attestation spent)).dev.leaf = 2 ^ 20 ∧ ((after (exec .attestation spent)).vi 0).cq ≠ (spent.vi 0).cq := by
  decide +kernel

/-! ### Witnesses: steps, hampers, regions, instances -/

/-- StepRunsInstruction: a block in progress, the next block of an instance, a slot, a command, a register write and an
event, each at the head of the agenda. -/
theorem wit_StepRunsInstruction :
    let s := State.reset.withCoreWord 0x3A000000
    let r : BlockRun := ((s.core 0).run).getD (blk [])
    let n := s.updCore 0 (fun c => { c with run := none })
    let x := n.instOf 0 r
    let u := ((({ n with sched := { n.sched with agenda := [], moves := n.sched.moves + 1 } } : State).judgeFirst 0 0).setRun 0
      (n.blockAt 0 0 x))
    let c := State.reset.withSlotWord 0x81FF4BF080000000
    let c0 : State := { c with sched := { c.sched with agenda := [], moves := c.sched.moves + 1 } }
    let f : FeCmd := { e := entry 8 3 0 0 0, wait := .ready, started := 0, sqHead := 9 }
    s.sched.agenda = [.core 0] ∧ (s.core 0).run = some r ∧ r.pos < r.len ∧
    decodeCore (r.reg (fld (s.currentWord 0 r) 18 14)).toNat (s.currentWord 0 r) = .ok .endI ∧
    (n.core 0).run = none ∧ (n.core 0).halted = false ∧ n.nextInst 0 = some (0, x) ∧ 0 < (n.blockAt 0 0 x).len ∧
    u.currentInstr 0 (n.blockAt 0 0 x) = .ok .endI ∧ goes (step n) (after (exec .endI (u.focusOn 0 0 0))) ∧
    c.sched.agenda = [.cell 0 0] ∧ c0.cellLive 0 0 (c0.cellsPaused 0) = true ∧ c0.selectSlot 0 0 = some 0 ∧
    decodeSlot (c0.slotWordAt 0 0 0) = .ok (.lit { srcA := 31, srcB := 29, dstA := 5, dstB := 31, tagAct := 0, trig := 0x80000000 }) ∧
    [f][0]? = some f ∧ f.wait = .ready ∧ decodeEntry f.e = .ok (.queryTime f.e) ∧
    decodeEntry { f.e with w7 := 1 } = .error .badCommand := by
  decide +kernel

/-- SlotSelection: two instances of one priority, and one more urgent that waits on a trap. -/
theorem wit_InstanceOrder :
    let i (p q : Nat) (st : InstStatus) : Inst := { pk := 0, tag := 0, set := 0, prio := p, seq := q, block := 0, status := st }
    let s := (State.reset.withCoreWord 0).updCore 0 (fun c => { c with
      run := none, insts := KMap.ofList [i 1 7 .ready, i 1 6 .ready, i 0 5 .trapped] })
    s.nextInst 0 = some (1, i 1 6 .ready) ∧ s.loadedOn 0 = some 0 ∧ State.reset.nextInst 0 = none := by
  decide +kernel

/-- StepKeepsForm, ResetKeepsForm: a state of the invariant whose step answers a next state. -/
theorem wit_StepKeepsForm :
    let s := State.reset.withCoreWord 0x3A000000
    s.Inv ∧ (match step s with | .next _ => true | _ => false) = true := by
  unfold State.Inv; decide +kernel

/-- ErrorRecords: a record with every field at its greatest value; an error queue that is disabled, one that is full, and one at
its last entry; a log with room and one that is full. -/
theorem wit_ErrorRecords :
    let r : ErrRec :=
      { vi := 63, severity := 3, unit := 255, code := 255, domain := 65535, tile := 2047, vtile := 255, cell := 127, slot := 63,
        ctx := 3, inst := 63, lsid := 63, loc := 9, count := 2 ^ 32 - 1, detail := 2 ^ 32, row := 255 }
    let d (head : Nat) (en : Bool) : RingQ := { w0 := 0x2000, w1 := 0x1000000000000000, en := en, head := head, tail := 1 }
    let s (head : Nat) (en : Bool) : State := State.reset.updVi 0 (fun v => { v with errq := d head en, errSeq := 5 })
    let l (n : Nat) : State := { State.reset with dev := { State.reset.dev with logq := d 0 true, logCount := n } }
    (r.words (2 ^ 23 - 1) true 0).map (·.toNat) = [2 ^ 64 - 1, 2 ^ 64 - 2 ^ 18, 9, 0, 2 ^ 64 - 2 ^ 32, 0, 0, 0xFF000000] ∧
    (d 0 true).size = 2 ∧ (s 0 true).Inv ∧ ((s 0 false).toErrQueue 0 r).mem = (s 0 false).mem ∧
    (((s 0 false).toErrQueue 0 r).vi 0).errstat = 1 ∧ (((s 0 true).toErrQueue 0 r).vi 0).errstat = 1 ∧
    (s 1 true).Inv ∧ (((s 1 true).toErrQueue 0 r).vi 0).errq = { d 1 true with tail := 0, phase := false } ∧
    ((s 1 true).toErrQueue 0 r).mem.getN (hostKey 0 (0x2000 + 64)) 16 = bytesOf ((r.words 5 true 0).take 2) ∧
    (l 1).Inv ∧ ((l 1).toLog r).dev.logCount = 2 ∧ ((l 2).toLog r).dev.logCount = 2 ∧ ((l 2).toLog r).dev.logstat = 1 ∧
    ((State.reset.report { severity := 2, domain := 7 }).vi 0).held = [7] := by
  unfold State.Inv; decide +kernel

/-- The operator of `on` with a hamper of two-row tiles that time out after 1 us, payload 1 and fire tag 5, with banks 10
and 11, at a cycle. -/
def hampered (cycle : Nat) (h : Hamper) : State :=
  let s := on (blk [0])
  let im : Image := { oneTileImage (KMap.ofList [[0x105, 4, 0, 0] ++ oneBlock [0x3A000000]]) {} with oper := 0x020049FE00200028 }
  let s : State := { s with
    clk := { s.clk with cycle := cycle }, ops := s.ops.set 0 { vi := 0, job := 0, rcb := 0, image := im } }
  s.updPlace 0 (fun p => { p with hbanks := 0xC00, hamper := h })

/-- A record of a kind, weight generation and draft count. -/
def record (kind gen count : Nat) : Rec :=
  { r := { h0 := wd (gen * 2 ^ 40), h1 := wd (count * 2 ^ 18), ah := wd (kind * 2 ^ 62), rw := 0, carry := Vector.replicate 12 0 }
    pay := [] }

/-- HamperEvents: a record that joins the forming tile, fills it, finds none, and comes of another generation; one that
begins a draft group. -/
theorem wit_HamperEvents_enter :
    let f (n : Nat) : Hamper := { forming := some { rows := List.replicate n (record 0 3 0), tileSlot := 0 } }
    let s := hampered 939 (f 1)
    let p := (s.places.find? 0).getD (onePlacement 0)
    let c := s.hamperCtx 0 p
    let e := hampered 939 {}
    s.places.find? 0 = some p ∧ p.hamper = f 1 ∧ p.hamper.waiting < 256 ∧ p.hamper.groups = [] ∧ (record 0 3 0).r.kind ≠ 2 ∧
    (record 0 3 0).r.wgen = 3 ∧ c.par.height = 2 ∧ 1 + 1 = c.par.height ∧
    c.due { rows := [record 0 3 0, { record 0 3 0 with at_ := 939 }], tileSlot := 0 } = false ∧
    ((s.enterHamper 0 (record 0 3 0)).map (fun u => (u.places.find? 0).map (fun p => p.hamper.closed.map (·.cause)))) =
      some (some [1]) ∧
    c.free p.hamper = some 1 ∧ (record 0 2 0).r.wgen = 2 ∧
    ((s.enterHamper 0 (record 0 2 0)).map (fun u => (u.places.find? 0).map (fun p => p.hamper.closed.map (·.cause)))) =
      some (some [8]) ∧
    ((e.enterHamper 0 (record 0 3 0)).map (fun u => (u.places.find? 0).map (fun p => p.hamper.forming.map (·.rows.length)))) =
      some (some (some 1)) ∧
    (record 2 3 2).r.kind = 2 ∧ 2 ≤ (record 2 3 2).r.draftCount ∧
    ((e.enterHamper 0 (record 2 3 2)).map (fun u => (u.places.find? 0).map (fun p => p.hamper.groups.map (·.count)))) =
      some (some [2]) := by
  decide +kernel

/-- HamperEvents: records of the network for the hamper, one too long; one that waits; the timeout not yet over and over;
a group collecting; a tile that has waited, noted or not. -/
theorem wit_HamperEvents_wait :
    let n (l : Nat) : NetRec := { body := { record 0 3 0 with r := { (record 0 3 0).r with h1 := wd (l * 2 ^ 52) } },
                                  dest := .hamper 0, src := 5 }
    let s : State := { hampered 939 {} with net := [n 1, n 2] }
    let z : State := { hampered 939 {} with net := [n 2] }
    let w := hampered 939 { net := [record 0 3 0] }
    let d (c : Nat) : State := hampered c { forming := some { rows := [record 0 3 0], tileSlot := 0 } }
    let g (c : Nat) : State := hampered c { groups := [{ id := 1, seqSlot := 0, count := 2, recs := [record 2 3 2], tileSlot := 0 }] }
    let x (c : Nat) (b : Bool) : State := hampered c { closed := [{ rows := [record 0 3 0], cause := 1, at_ := 0, tileSlot := 0, noted := b }] }
    let p (s : State) : Placement := (s.places.find? 0).getD (onePlacement 0)
    s.net[0]? = some (n 1) ∧ s.netFirst 0 (n 1) = true ∧ s.tooLong (p s) (n 1).body = false ∧ (p s).hamper.net = [] ∧
    z.tooLong (p z) (n 2).body = true ∧ ((after (exec (.hamperRecordArrival 0) s)).places.find? 0).map (fun p => p.hamper.waiting) = some 1 ∧
    (p w).hamper.net = [record 0 3 0] ∧ ((after (exec (.hamperAdmit 0) w)).places.find? 0).map (fun p => p.hamper.net) = some [] ∧
    ((d 940).hamperCtx 0 (p (d 940))).due { rows := [record 0 3 0], tileSlot := 0 } = true ∧
    ((d 939).hamperCtx 0 (p (d 939))).due { rows := [record 0 3 0], tileSlot := 0 } = false ∧ goes (exec (.hamperTimeout 0) (d 939)) (d 939) ∧
    ((after (exec (.hamperTimeout 0) (d 940))).places.find? 0).map (fun p => p.hamper.closed.map (·.cause)) = some [2] ∧
    ((p (g 940)).hamper.groups.find? (fun g => g.seqSlot == 0)).map (·.count) = some 2 ∧ 0 + usCycles 1 ≤ 940 ∧ 939 < 0 + usCycles 1 ∧
    ((after (exec (.draftGroupTimeout 0 0) (g 940))).places.find? 0).map (fun p => p.hamper.groups.length) = some 0 ∧
    (p (x 61603840 false)).hamper.closed[0]?.map (·.noted) = some false ∧ 0 + usCycles 65536 ≤ 61603840 ∧
    ((after (exec (.hamperStarved 0 0) (x 61603840 false))).places.find? 0).map (fun p => p.hamper.closed.map (·.noted)) = some [true] ∧
    goes (exec (.hamperStarved 0 0) (x 61603839 false)) (x 61603839 false) ∧ goes (exec (.hamperStarved 0 0) (x 61603840 true)) (x 61603840 true) := by
  decide +kernel

/-- HamperEvents: a closed tile that fires, and a record delivered to a route tag. -/
theorem wit_HamperEvents_fire :
    let s := hampered 5 { closed := [{ rows := [record 0 3 0, record 0 3 0], cause := 1, at_ := 0, tileSlot := 1 }] }
    let n : NetRec := { body := record 0 3 0, dest := .tag 0 5 0, src := 9 }
    let t : State := { s with net := [n] }
    let full := t.updCore 0 (fun c => { c with sets := KMap.ofList (List.range 16) })
    let spent := t.updHamper 0 (fun h => { h with closed := (List.range 16).map (fun j =>
      { rows := [record 0 3 0], cause := 1, at_ := 0, tileSlot := j }) })
    let p := (s.places.find? 0).getD (onePlacement 0)
    let u := after (exec (.hamperFire 0) s)
    s.freeSetOf p.tiles = some 0 ∧ (s.parOf p).binding ≠ 1 ∧ s.mayFire 0 p = true ∧ p.tiles = [0] ∧ p.tiles.Nodup ∧
    p.tiles.contains p.anchor = true ∧ s.bad = [] ∧ (record 0 3 0).r.kind ≠ 2 ∧ (u.core 0).sets.find? 0 = some s.sched.ids ∧
    ((u.core 0).k.getD 0 {}).getD 1 0 = 2 ∧ ((u.core 0).k.getD 0 {}).getD 3 0 = ownTileAddr (10 * 0x20000 + 12288) ∧
    t.net[0]? = some n ∧ t.netFirst 0 n = true ∧ t.tooLong p n.body = false ∧ t.freeSetOf [0] = some 0 ∧
    t.tagPlace 0 p = some 0 ∧ t.slotBase p 0 = 10 * 0x20000 ∧ t.setsSpent 0 p [0] = false ∧
    ((after (exec (.routeTagDelivery 0) t)).core 0).arrivals.map (fun a => (a.tag, a.kind, a.src)) = [(5, 1, 9)] ∧
    full.freeSetOf [0] = none ∧ goes (exec (.routeTagDelivery 0) full) full ∧ spent.tagPlace 0 ((spent.places.find? 0).getD (onePlacement 0)) = none ∧
    goes (exec (.routeTagDelivery 0) spent) spent := by
  decide +kernel

/-- HamperEvents: a record born in this cycle and one before it; the cycle in which a rotation slot of the operator begins. -/
theorem wit_HamperEvents_cycle :
    let n (born : Nat) : NetRec := { body := { record 0 3 0 with out := false, born := born }, dest := .hamper 0, src := 5 }
    let s (born : Nat) : State := { hampered 939 {} with net := [n born] }
    let b : State := { s 0 with rots := (s 0).rots.set 0 { active := some 0, began := 939 } }
    let w : State := { hampered 939 { net := [record 0 3 0] } with rots := b.rots }
    let p := ((s 0).places.find? 0).getD (onePlacement 0)
    (n 938).body.born < (s 938).clk.cycle ∧ (s 938).slotBegan 0 p = false ∧
    ((after (exec (.hamperRecordArrival 0) (s 938))).net = []) ∧ goes (exec (.hamperRecordArrival 0) (s 939)) (s 939) ∧
    (b.rots.getD p.die {}).active = some 0 ∧ (b.rots.getD p.die {}).began = b.clk.cycle ∧
    goes (exec (.hamperRecordArrival 0) b) b ∧ goes (exec (.hamperAdmit 0) w) w := by
  decide +kernel

/-- HamperEvents: a tile that timed out in this cycle and a record of another generation; a tile that took a record in this cycle
and would have to close for another; a timeout that leaves the record of its own cycle out. -/
theorem wit_HamperEvents_merge :
    let now : Rec := { record 0 3 0 with at_ := 939 }
    let s := hampered 939 { closed := [{ rows := [record 0 3 0], cause := 2, at_ := 939, tileSlot := 0 }] }
    let w := hampered 939 { forming := some { rows := [now], tileSlot := 0 } }
    let f : Forming := { rows := [record 0 3 0, { now with at_ := 940 }], tileSlot := 0 }
    let l := hampered 940 { forming := some f }
    let c := l.hamperCtx 0 ((l.places.find? 0).getD (onePlacement 0))
    let closes (u : State) : Option (List (Nat × Nat)) := (u.places.find? 0).map (fun p => p.hamper.closed.map (fun x => (x.cause, x.rows.length)))
    ((s.enterHamper 0 (record 0 2 0)).map closes) = some (some [(10, 1)]) ∧ ((s.enterHamper 0 (record 0 3 0)).map closes) = some (some [(2, 1)]) ∧
    (w.enterHamper 0 (record 0 2 0)).isNone = true ∧ (∃ q ∈ [now], q.at_ = w.clk.cycle) ∧
    c.due f = true ∧ f.rows.filter (fun q => !f.late l.clk.cycle q) ≠ [] ∧ f.rows.filter (f.late l.clk.cycle) ≠ [] ∧
    (l.places.find? 0).map (fun p => c.free p.hamper) = some (some 1) ∧ closes (after (exec (.hamperTimeout 0) l)) = some [(2, 1)] ∧
    ((after (exec (.hamperTimeout 0) l)).places.find? 0).map (fun p => p.hamper.forming.map (fun f => (f.tileSlot, f.rows.length))) =
      some (some (1, 1)) := by
  decide +kernel

/-- A closed tile of one row of generation 3. -/
def closedTile : Closed := { rows := [record 0 3 0], cause := 1, at_ := 0, tileSlot := 0 }

/-- A second operator of tile 0's region, in slot 1, of a class, with a hamper; the first one of class 2. -/
def pair (cls : Nat) (h : Hamper) (s : State) : State :=
  let p : Placement := { onePlacement 1 with slot := 1, cls := cls, order := 1, hamper := h }
  ({ s with
    places := s.places.set 1 p
    ops := s.ops.set 1 { vi := 0, job := 0, rcb := 0, image := oneTileImage {} {} } })

/-- The core of tile 0 with no instance. -/
def idle (s : State) : State := s.updCore 0 (fun c => { c with insts := {}, run := none })

/-- RegionEvents: a region that is busy, one that is free with no candidate, with one, and with a rotation turn. -/
theorem wit_RegionEvents_schedule :
    let busy := hampered 0 {}
    let none_ := idle (hampered 0 {})
    let one := idle (pair 2 { closed := [closedTile] } (hampered 0 {}))
    let r := (idle (hampered 0 { closed := [closedTile] }))
    let rot : State := { r with ops := r.ops.set 0 { vi := 0, job := 0, rcb := 0, image :=
      { oneTileImage {} {} with oper := 0x02004A0000200028 } } }
    busy.regionFree 0 = false ∧ goes (exec (.schedulerEvaluation 0) busy) busy ∧ none_.regionFree 0 = true ∧
    (none_.region 0).draining = none ∧ none_.rotationTurn (0 / 144) = none ∧
    (∀ q ∈ none_.regionOps 0, none_.candidate 0 q = false) ∧ goes (exec (.schedulerEvaluation 0) none_) none_ ∧
    one.regionFree 0 = true ∧ one.rotationTurn 0 = none ∧ (one.regionOps 0).map (one.candidate 0) = [false, true] ∧
    ((after (exec (.schedulerEvaluation 0) one)).region 0).loaded = some 1 ∧
    (rot.rotationTurn 0).map Prod.fst = some 0 ∧ keyAnchor 0 = 0 ∧ (rot.places.find? 0).map rot.isHeld = some false := by
  decide +kernel

/-- RegionEvents: a pre-emption of an operator of class 1, and of class 2 with nothing live, with live work and no save
area, and with live work and one; a region behind another of its die. -/
theorem wit_RegionEvents_preempt :
    let s (cls : Nat) (save : BitVec 12) (live : Bool) : State :=
      let u := (pair 0 { closed := [closedTile] } (hampered 0 {})).updPlace 0 (fun p => { p with cls := cls, save := save })
      if live then u else idle u
    let p (s : State) : Placement := (s.places.find? 0).getD (onePlacement 0)
    let q (n : Nat) (s : State) : Placement := { (s.places.find? n).getD (onePlacement n) with x := 1 }
    let two := (((({ s 2 0 true with places := ((s 2 0 true).places.set 4 (q 0 (s 2 0 true))).set 5 (q 1 (s 2 0 true)) } : State).updRegion
      0 (fun r => { r with loadedAt := 5 }))).updRegion 1 (fun r => { r with loaded := some 4 }))
    (s 2 0 true).preemptFirst 0 = true ∧ two.preemptFirst 0 = false ∧ goes (exec (.preemption 0) two) two ∧
    ((s 2 0 true).region 0).loaded = some 0 ∧ ((s 2 0 true).preemptFor 0).map Prod.fst = some 1 ∧ (1 : Nat) ≠ 0 ∧
    (p (s 1 0 true)).cls < 2 ∧ goes (exec (.preemption 0) (s 1 0 true)) (s 1 0 true) ∧
    2 ≤ (p (s 2 0 true)).cls ∧ ((s 2 0 true).region 0).draining = none ∧
    (s 2 0 false).liveGroups 0 = [] ∧ (s 2 0 false).instancesOf 0 (p (s 2 0 false)) = 0 ∧ (s 2 0 false).fabricBusy 0 = false ∧
    ((after (exec (.preemption 0) (s 2 0 false))).region 0).loaded = some 1 ∧
    (s 2 0 true).instancesOf 0 (p (s 2 0 true)) ≠ 0 ∧ (p (s 2 0 true)).save = 0 ∧
    ((after (exec (.preemption 0) (s 2 0 true))).region 0).draining = some 0 ∧ (p (s 2 3 true)).save ≠ 0 := by
  decide +kernel

/-- RegionEvents: a rotation slot that begins, and one that is fed; a load and bank transitions that end. -/
theorem wit_RegionEvents_rotation :
    let h := hampered 5 { closed := [closedTile] }
    let im : Image := { oneTileImage {} {} with oper := 0x02004A0000200028 }
    let s : State := ({ h with ops := h.ops.set 0 { vi := 0, job := 0, rcb := 0, image := im } }).updVi 0 (fun v => { v with
      slice := 2, handles := KMap.ofList [noEntry, { w0 := 0x800000, w1 := 0x10000, w2 := 5, w3 := 0 }] })
    let p := (s.places.find? 0).getD (onePlacement 0)
    let a : State := { s with rots := s.rots.set 0 { active := some 0, gen := 3, turn := some 0 } }
    (s.rots.getD 0 {}).active = none ∧ s.rotationTurn 0 = some (0, p) ∧ p.hamper.forming = none ∧
    (∀ q ∈ p.hamper.closed, q.at_ ≠ s.clk.cycle) ∧
    p.hamper.closed.map (fun c => (c.rows.head?.map (·.r.wgen)).getD 0) = [3] ∧ p.weightHandle 3 = 0x4000000 ∧
    (match (s.deref (p.weightHandle 3) 1 false p.vi).1 with | .ready e => decide (e.bound = 5) | _ => false) = true ∧
    ((after (exec (.rotationSlot 0) s)).rots.getD 0 {}).active = some 0 ∧ (a.rots.getD 0 {}).active = some 0 ∧
    p.northCells.Nodup ∧ (∀ c ∈ p.northCells, ((a.cellAt c.1 c.2).xin.getD 0 []).length < 4) ∧
    (a.region (keyAnchor 0)).loaded = some 0 ∧ (a.places.find? 0) = some p := by
  decide +kernel

theorem wit_RegionEvents_load :
    let c : CfglRun := { pk := 0, mask := 15, active := 3, data := false, tag := 5, set := 0 }
    let s := (on (blk [0])).updTile 0 (fun x => { x with cfgl := some c })
    let b (m t : BankMode) (r : Nat) : State := scratch [1] (on (blk [0])) |>.updBank 0 0 (fun _ =>
      { mode := m, trans := some { target := t, ready := r, pk := 0, tag := 5, set := 0 } })
    let ring := (b .fifo .scratch 0).updCell 0 63 (fun x => { x with
      ring := x.ring.set 3 [⟨0, 0, 0⟩], ctxs := x.ctxs.set 0 { r1 := 0x8000000100000000 } })
    (s.tile 0).cfgl = some c ∧ (s.places.find? 0).map (fun p => (s.imageOf p).map (·.bad)) = some (some false) ∧
    ((after (exec (.cfglComplete 0) s)).core 0).arrivals.map (fun a => (a.tag, a.kind, a.msg)) = [(5, 10, 0)] ∧
    63 < 64 ∧ 3 < 4 ∧ bitOf 15 3 = true ∧ ((after (exec (.cfglComplete 0) s)).cellAt 0 63).active = 3 ∧
    (b .scratch .fifo 1).clk.cycle < 1 ∧ goes (exec (.bankTransitionComplete 0 0) (b .scratch .fifo 1)) (b .scratch .fifo 1) ∧
    ring.ringsHold 0 0 = true ∧ goes (exec (.bankTransitionComplete 0 0) ring) ring ∧ (b .fifo .scratch 0).ringsHold 0 0 = false ∧
    (b .cache .scratch 0).stuckSectors 0 = [] ∧
    (after (exec (.bankTransitionComplete 0 0) (b .scratch .cache 0))).byteAt (tileKey 0 0) = 0 ∧
    (after (exec (.bankTransitionComplete 0 0) (b .scratch .scratch 0))).byteAt (tileKey 0 0) = 1 := by
  decide +kernel

/-- InstanceEvents: a tag that is blocked; an arrival of a tag behind one of another; a THOLD whose time has come and one
whose time has not; SYSC of every kind of code. -/
theorem wit_InstanceEvents :
    let a (t : Nat) : Arrival := { tag := t, kind := 2, msg := 7, src := 0, detail := 1, set := 0, cycle := 0 }
    let s := (grouped (blk [0])).updCore 0 (fun c => { c with
      arrivals := [a 6, a 5], tholds := [{ time := 0, tag := 5, set := 0, pk := 0 }, { time := 1, tag := 5, set := 0, pk := 0 }] })
    let b := s.updCore 0 (fun c => { c with blocked := 0x8000000000000000 })
    let q (code : Nat) (v : Word) : State := { s with syscs := [{ tile := 0, pk := 0, set := 0, tag := 5, code := code, val := v }] }
    let p := (s.places.find? 0).getD (onePlacement 0)
    (b.core 0).blocked.getLsbD 63 = true ∧ goes (exec (.taskLaunch 0 63) b) b ∧ (s.core 0).arrivals[1]? = some (a 5) ∧
    ((s.core 0).arrivals[0]?).map (·.tag) = some 6 ∧ s.tagOwner 0 5 = some 0 ∧
    ((s.imageOf p).map (fun im => im.task ((p.vtOf 0).getD 0) 5)) = some (some (1, 4)) ∧ (s.core 0).halted = false ∧
    (s.core 0).blocked.getLsbD 5 = false ∧ (s.core 0).insts.find? 31 = none ∧ s.mayStart 0 0 p (a 5) = true ∧
    (0 : Word).toNat ≤ s.clk.time.toNat ∧ s.clk.time.toNat < (1 : Word).toNat ∧
    ((after (exec (.tholdExpiry 0 0) s)).core 0).arrivals.map (·.kind) = [2, 2, 8] ∧ goes (exec (.tholdExpiry 0 1) s) s ∧
    (s.places.find? 0).isSome = true ∧ ((after (exec (.syscReply 0) (q 0 0))).core 0).arrivals.map (·.msg) = [7, 7, 0xFFFFFFFFFFFFFFFF] ∧
    ((after (exec (.syscReply 0) (q 2 9))).vi 0).inv.map (fun q => (q.kind, q.seq)) = [(2, 9)] ∧
    ((after (exec (.syscReply 0) (q 3 0))).core 0).arrivals.map (·.kind) = [2, 2, 9] := by
  decide +kernel

/-- RegionEvents: a feed with room in cells that are not paused; a load and a transition whose arrival would stand outside a full
arrival store, and where it would not. -/
theorem wit_RegionEvents_held :
    let c : CfglRun := { pk := 0, mask := 15, active := 3, data := false, tag := 5, set := 0 }
    let a (d : Nat) : Arrival := { tag := 5, kind := 10, msg := 0, src := 0, detail := d, set := 0, cycle := 0 }
    let full (d : Nat) (s : State) : State := s.updCore 0 (fun c => { c with arrivals := List.replicate 257 (a d) })
    let s := (on (blk [0])).updTile 0 (fun x => { x with cfgl := some c })
    let b := s.updBank 0 11 (fun _ => { mode := .scratch, trans := some { target := .fifo, ready := 0, pk := 0, tag := 5, set := 0 } })
    let held (d : Nat) (s : State) : Bool := s.sendsHeld 0 (fun a => a.kind == 10 && a.detail == d)
    (on (blk [0])).cellsPaused 0 = false ∧ held 0 s = false ∧ held 0 (full 0 s) = true ∧
    goes (exec (.cfglComplete 0) (full 0 s)) (full 0 s) ∧ held 1 b = false ∧ held 1 (full 1 b) = true ∧
    goes (exec (.bankTransitionComplete 0 11) (full 1 b)) (full 1 b) ∧
    ((after (exec (.bankTransitionComplete 0 11) b)).tile 0).bank 11 = { mode := .fifo, trans := none } := by
  decide +kernel

/-- InstanceEvents: a THOLD and a SYSC answer whose arrival would stand outside a full arrival store. -/
theorem wit_InstanceEvents_held :
    let a (k : Nat) : Arrival := { tag := 5, kind := k, msg := 0, src := 0, detail := 0, set := 0, cycle := 0 }
    let s (k : Nat) : State := { (grouped (blk [0])).updCore 0 (fun c => { c with
        arrivals := List.replicate 257 (a k), tholds := [{ time := 0, tag := 5, set := 0, pk := 0 }] }) with
      syscs := [{ tile := 0, pk := 0, set := 0, tag := 5, code := 3, val := 0 }] }
    (s 8).sendsHeld 0 (fun a => a.kind == 8 && a.tag == 5) = true ∧ goes (exec (.tholdExpiry 0 0) (s 8)) (s 8) ∧
    (s 9).sendsHeld 0 (fun a => a.kind == 8 && a.tag == 5) = false ∧
    (s 9).sendsHeld 0 (fun a => a.kind == 9 && a.tag == 5) = true ∧ goes (exec (.syscReply 0) (s 9)) (s 9) := by
  decide +kernel

/-! ### Witnesses: what cells, streams, commands, hosts, links and firmware do on their own -/

/-- CellEvents: a scale token at a bound head; a beat of a chain head with its partial, of a full channel, and with the
forward channel without room. -/
theorem wit_CellEvents_beat :
    let k : Token := { tok [fwOne] 0 with scale := true }
    let s := cellS [] (fun x => inbox 0 k (inbox 3 k (x.setCtx (fun c => { c with bindA := some 8, bindB := some 11 }))))
    let act (v : BitVec 8) : Token := { tok [fwOne, fwOne, fwOne, fwOne, fwOne, fwOne, fwOne, fwOne] 0 with valid := v }
    let b (d : Fw) (g : Cell → Cell) : State := cellS [] (fun x => g { x with
      sys := some d, xin := x.xin.set 3 [act 1, act 0x80, act 0, act 0xFF],
      planeA := { rows := KMap.ofList (List.replicate 32 (mkLanes (fun _ => fwOne))), cs := mkLanes (fun _ => fwOne) } })
    let full (s : State) : State := s.updCell 0 8 (fun y => { y with xin := y.xin.set 0 (List.replicate 4 (tok [] 0)) })
    let h : Fw := 0x9081000000
    let n : Fw := 0x8881000000
    let part (x : Cell) : Cell := inbox 0 { tok [fwOne] 2 with valid := 0x80 } x
    s.head 0 0 8 = some k ∧ k.scale = true ∧ (s.cellAt 0 0).trapped = false ∧ (s.tile 0).cfgl = none ∧
    (s.loadedOn 0).isSome = true ∧ (s.cellAt 0 0).bindAt ≤ s.clk.cycle ∧ (s.cellAt 0 0).ctx.bindA = some 8 ∧
    lane (cellAfter (.scaleLatch 0 0 0) s).latA 0 = fwOne ∧ s.head 0 0 11 = some k ∧
    lane (cellAfter (.scaleLatch 0 0 1) s).latB 0 = fwOne ∧
    ((b h id).cellAt 0 0).sys = some h ∧ (b h id).cellsPaused 0 = false ∧ 4 ≤ (((b h id).cellAt 0 0).xin.getD 3 []).length ∧
    ((b h id).slotHead 0 0 11).isSome = true ∧ (b h id).beatNorth 0 0 (h.getLsbD 36) = some none ∧ h.getLsbD 35 = false ∧
    (b h id).room 0 0 2 ≠ 0 ∧ (full (b h id)).room 0 0 2 = 0 ∧
    goes (exec (.systolicBeat 0 0) (full (b h id))) ((full (b h id)).noteRing 0 0 2) ∧
    (((after (exec (.systolicBeat 0 0) (b h id))).cellAt 0 8).xin.getD 0 []).map (fun k => (k.valid, lane k.lanes 7)) =
      [(0x81, 0x402A000000)] ∧
    n.getLsbD 36 = false ∧ n.getLsbD 35 = true ∧ (b n part).room 0 0 1 = 4 ∧ ((b n id).beatNorth 0 0 false) = none ∧
    ((b n part).beatNorth 0 0 false).isSome = true ∧
    (((after (exec (.systolicBeat 0 0) (b n part))).cellAt 0 8).xin.getD 0 []).map (fun k => (k.valid, k.tag, lane k.lanes 7)) =
      [(0x80, 2, 0x402A000000)] ∧
    (((after (exec (.systolicBeat 0 0) (b n part))).cellAt 0 1).xin.getD 3 []).map (·.valid) = [1, 0x80, 0, 0xFF] := by
  decide +kernel

/-- CellEvents: updates at an owner of a word that reads and of one that cannot; ORDTs that wait, that stand behind one to
another destination, and that go out. -/
theorem wit_CellEvents_memory :
    let u (op : UpdOp) (v : Fw) : Update := { op := op, addr := 8, val := v, src := 0, firing := 0, lane := 0 }
    let s (op : UpdOp) (v : Fw) : State := scratch [0, 0, 0, 0, 0, 0, 0, 0, 0xFE, 0xFF, 0xFF, 0xFF]
      (cellS [] (fun x => { x with port := [u op v] }))
    let z : State := { s .add 1 with bad := [granuleOf (tileKey 0 8)] }
    let word (op : UpdOp) (v : Fw) : Nat := (after (exec (.ownerUpdateApply 0 0) (s op v))).readWord (keysFrom (tileKey 0 8) 4)
    let q (w : List Nat) (d : Nat) : PendOrdt := { dsts := [d, 31], tag := 2, waits := w }
    let o (l : List PendOrdt) (e : List Nat) : State := cellS [] (fun x => { x with pendOrdt := l, ecmds := e })
    (s .add 1).Inv ∧ z.Inv ∧ ((s .add 1).cellAt 0 0).port = [u .add 1] ∧ ((s .add 1).cellAt 0 0).portStuck = false ∧
    ((s .add 1).cellAt 0 0).ownerNext ≤ (s .add 1).clk.cycle ∧ (s .fadd 1).badRead (keysFrom (tileKey 0 8) 8) = false ∧
    z.badRead (keysFrom (tileKey 0 8) 4) = true ∧ (cellAfter (.ownerUpdateApply 0 0) z).portStuck = true ∧
    word .add 3 = 1 ∧ word .min 1 = 0xFFFFFFFE ∧ word .max 1 = 1 ∧ word .or 1 = 0xFFFFFFFF ∧ word .tas 32 = 0xFFFFFFFF ∧
    ((o [q [5] 8] [5]).cellAt 0 0).openMemory.contains 5 = true ∧
    goes (exec (.orderingTokenEmit 0 0 0) (o [q [5] 8] [5])) (o [q [5] 8] [5]) ∧
    (∀ d ∈ (q [5] 9).dsts, d ≠ 31 → d ∉ (q [] 8).dsts) ∧ (o [q [5] 9, q [6] 8] [5]).room 0 0 0 ≠ 0 ∧
    ((o [q [5] 9, q [6] 8] [5]).cellAt 0 0).openMemory.contains 6 = false ∧
    (((after (exec (.orderingTokenEmit 0 0 1) (o [q [5] 9, q [6] 8] [5]))).cellAt 0 0).agOut.getD 0 []).map (·.tag) = [2] := by
  unfold State.Inv; decide +kernel

/-- CellEvents: a ring with a head; carry and drain sweeps at a cell with and without tokens, one late; loop releases
before and after the last iteration; a region without a move for 2^20 cycles, with and without a token. -/
theorem wit_CellEvents_switch :
    let r : Ctx := { slots := {}, r0 := 0, r1 := 0x8000000100000000 }
    let ring : State := (cellS [] (fun x => { x with ring := x.ring.set 3 [⟨0, 0, 1⟩], ctxs := x.ctxs.set 0 r })).writeKeys
      (keysFrom (tileKey 0 64) 64) (tok [7] 1).slotBytes
    let w (carry : Bool) : Sweep := { ctx := 2, carry := carry, start := 0 }
    let at_ (n : Nat) (s : State) : State := { s with clk := { s.clk with cycle := n } }
    let s (carry : Bool) (g : Cell → Cell) : State := (cellS [] g).updRegion 0 (fun r => { r with sweeps := [w carry] })
    let held : Cell → Cell := inbox 0 (tok [] 0)
    let c1 : State := at_ 65537 (((s false id).updCell 0 0 (fun x => { x with sweepDone := 1, switchedAt := 1 })).updCell 0 1 held)
    let l (rel : Nat) : State := (cellS [] (fun x => { x with ctxs := x.ctxs.set 0 { x.ctx with r2 := 0 } })).updOpr 0 0 (fun o =>
      { o with lcu := o.lcu.set 3 { count := 2, tag := 9, mask := 1, running := true, released := rel, done := KMap.ofList [rel] } })
    let tags (s : State) : List (Nat × Nat) := (s.core 0).arrivals.map (fun a => (a.tag, a.kind))
    let q (n : Nat) (g : Cell → Cell) : State := at_ n (cellS [] g)
    (ring.cellAt 0 0).ring.getD 3 [] = [⟨0, 0, 1⟩] ∧ (ring.outQueue 0 0 3).length < 4 ∧
    ring.badRead ((⟨0, 0, 1⟩ : RingSlot).keys 0) = false ∧ ring.link 0 0 3 ≠ .closed ∧
    ((after (exec (.spillRingRefill 0 0 3) ring)).outQueue 0 0 3).map (fun k => (k.tag, lane k.lanes 0)) = [(1, 7)] ∧ ((ring.cellAt 0 0).ctx.spill 3).isSome = true ∧
    (s true held).sweepDue 0 0 = some (w true) ∧ ((s true held).cellAt 0 0).undrained 0 = 1 ∧
    (cellAfter (.cellSwitch 0 0) (s true held)).active = 2 ∧ (s false held).sweepDue 0 0 = some (w false) ∧
    goes (exec (.cellSwitch 0 0) (s false held)) (s false held) ∧ ((s false id).cellAt 0 0).undrained 0 = 0 ∧
    (cellAfter (.cellSwitch 0 0) (s false id)).active = 2 ∧ c1.sweepDue 0 1 = some (w false) ∧
    (c1.cellAt 0 1).undrained c1.clk.cycle ≠ 0 ∧ c1.sweepFrom 0 1 ≠ [] ∧ (∀ y ∈ c1.sweepFrom 0 1, y.switchFor (c1.cellAt 0 1).sweepDone + 65536 ≤ c1.clk.cycle) ∧
    ((after (exec (.drainStall 0 1) c1)).cellAt 0 1).drainNoted = true ∧
    (l 1).lcuRoom 0 3 = true ∧ (l 2).lcuRoom 0 3 = true ∧ ((l 2).loadedOn 0).map keySlot = some 0 ∧
    tags (after (exec (.lcuRelease 0 0 3) (l 1))) = [] ∧ tags (after (exec (.lcuRelease 0 0 3) (l 2))) = [(9, 6)] ∧
    ((q (2 ^ 20) held).region 0).loaded = some 0 ∧ ((q (2 ^ 20) held).region 0).lastMove + 2 ^ 20 ≤ 2 ^ 20 ∧
    ((after (exec (.regionStall 0) (q (2 ^ 20) held))).region 0).stallNoted = true ∧
    goes (exec (.regionStall 0) (q (2 ^ 20) id)) (q (2 ^ 20) id) := by
  decide +kernel

/-- CellEvents: a beat whose sums overflow with and without their trap enabled, one whose forwarding has no room, an update whose
bank has left its mode, and two cells with tokens in a region that stands still. -/
theorem wit_CellEvents_trap :
    let act : Token := { tok (List.replicate 8 (fwInf false)) 0 with valid := 0xFF }
    let h : Fw := 0x9081000000
    let n : Fw := 0x8881000000
    let b (d : Fw) (en : Word) : State := cellS [] (fun x => { inbox 0 { tok [fwOne] 2 with valid := 0x80 } (x.setCtx (fun c => { c with r2 := en })) with
      sys := some d, xin := (inbox 0 { tok [fwOne] 2 with valid := 0x80 } x).xin.set 3 (List.replicate 4 act)
      planeA := { rows := {}, cs := mkLanes (fun _ => fwOne) } })
    let tight : State := (b n 0).updCell 0 1 (fun y => { y with xin := y.xin.set 3 [tok [] 0] })
    let p : State := ((scratch [] (cellS [] (fun x => { x with port :=
      [{ op := .add, addr := 8, val := 1, src := 0, firing := 0, lane := 0 }] }))).updBank 0 0 (fun b => { b with mode := .cache }))
    let q : State := { (cellS [] id).updCell 0 5 (inbox 0 (tok [] 0)) |>.updCell 0 7 (inbox 0 (tok [] 0)) with clk := { (cellS [] id).clk with cycle := 2 ^ 20 } }
    let flags (s : State) (n : Nat) : BitVec 5 := (beatOut (s.cellAt 0 0) (((s.cellAt 0 0).xin.getD 3 []).take 4) none n).2
    ((flags (b h 0x7C00000) 0) &&& ((b h 0x7C00000).cellAt 0 0).ctx.trapEn) ≠ 0 ∧ (b h 0x7C00000).beatNorth 0 0 (h.getLsbD 36) = some none ∧
    (cellAfter (.systolicBeat 0 0) (b h 0x7C00000)).trapped = true ∧ (cellAfter (.systolicBeat 0 0) (b h 0)).trapped = false ∧
    (((cellAfter (.systolicBeat 0 0) (b h 0x7C00000)).xin.getD 3 []).length) = 4 ∧ (((cellAfter (.systolicBeat 0 0) (b h 0)).xin.getD 3 []).length) = 0 ∧
    tight.room 0 0 2 ≠ 0 ∧ tight.room 0 0 1 = 3 ∧ goes (exec (.systolicBeat 0 0) tight) (tight.noteRing 0 0 1) ∧
    p.Inv ∧ (p.cellAt 0 0).port ≠ [] ∧ p.windowByteOk 0 8 = false ∧ (cellAfter (.ownerUpdateApply 0 0) p).portStuck = true ∧
    ((after (exec (.ownerUpdateApply 0 0) p)).cellAt 0 0).port.length = 1 ∧
    (q.places.find? 0).map (fun p => p.tiles) = some [0] ∧ (∀ k < 5, (q.cellAt 0 k).holdsToken = false) ∧
    goes (exec (.regionStall 0) q) ((q.updRegion 0 (fun r => { r with stallNoted := true })).cellRecord 0 5 0x3F 0 0x0A 0 0) := by
  unfold State.Inv; decide +kernel

/-- An own-tile stream of the words given, of the operator on tile 0. -/
def ownStream (w0 w1 w2 w3 : Word) : Stream :=
  { id := 8, w0 := w0, w1 := w1, w2 := w2, w3 := w3, pk := 0, tag := 5, set := 0, tab := 0, entry := none }

/-- The machine whose tile 0 holds bytes, with address generator a in a state. -/
def agS (b : List Byte) (a : Nat) (g : Ag) : State := (scratch b (on (blk [0]))).updAg 0 a (fun _ => g)

/-- StreamEvents: heads that start, whose position does not reach its cell, and that wait for a handoff of 0, 1 and 16. -/
theorem wit_StreamEvents_start :
    let x := ownStream 0x4008000020000000 0xFE000000FFE00000 0x0000010000800000 0
    let d := ownStream 0x400AF00000000000 0xFE000000FFE00000 0x0000010000800000 0
    let q (x : Stream) : Ag := { queue := [.stream x] }
    let wide : State := ((agS [] 2 (q x)).updPlace 0 (fun p => { p with w := 2 })).updTile 1 (fun y => { y with anchor := some 0 })
    let hf (n : Nat) : State := (agS [] 7 (q d)).hfSet 0 0 7 n
    (((agS [] 7 (q x)).tile 0).ag 7).run = none ∧ (((agS [] 7 (q x)).tile 0).ag 7).queue = [.stream x] ∧
    (agS [] 7 (q x)).streamHere 0 x = true ∧ x.hfPop = false ∧ x.direct = false ∧ (agS [] 7 (q x)).positionsOk 0 7 x = true ∧
    x.space = 2 ∧ goes (exec (.streamStart 0 7) (agS [] 7 (q x))) (agS [] 7 { run := some { s := x } }) ∧
    wide.streamHere 0 x = true ∧ wide.positionsOk 0 2 x = false ∧
    ((((after (exec (.streamStart 0 2) wide)).tile 0).ag 2).run.map (fun r => (r.err, r.fin))) = some (1, true) ∧
    d.hfPop = true ∧ d.hfPopIdx = 7 ∧ d.direct = true ∧ (hf 0).hfCount 0 (keySlot d.pk) 7 = 0 ∧
    goes (exec (.streamStart 0 7) (hf 0)) (hf 0) ∧ (hf 16).hfCount 0 (keySlot d.pk) 7 = 16 ∧
    (after (exec (.streamStart 0 7) (hf 16))).hfCount 0 0 7 = 15 ∧ (after (exec (.streamStart 0 7) (hf 1))).hfCount 0 0 7 = 0 := by
  decide +kernel

/-- StreamEvents: a load of three INT8 elements, a scale before it, a store of one lane, and a direct load. -/
theorem wit_StreamEvents_transfer :
    let s (b : List Byte) (a : Nat) (r : StreamRun) : State := agS b a { run := some r }
    let x := ownStream 0x4108000020000000 0xFE000000FFE00000 0x0000010000300000 0
    let l := s [1, 0xFF, 3] 0 { s := x }
    let y := ownStream 0x4208000020000000 0xFE000000FFE00000 0x0000010000300000 8
    let sc := s [1, 0xFF, 3, 0, 0, 0, 0, 0, 127] 0 { s := y }
    let z := ownStream 0x4118000020000000 0xFE000000FFE00000 0x0000010000300000 0
    let k : Token := { tok [7, 8, 9] 0 with valid := 2 }
    let st := (s [1, 1, 1] 0 { s := z }).updCell 0 0 (fun c => { c with agOut := c.agOut.set 0 [k] })
    let d := ownStream 0x400A000000000040 0xFE000000FFE00000 0x0000010000300000 0
    let di := s [4, 5, 6] 0 { s := d }
    let head (s : State) : List (Nat × Nat × Bool) := ((s.cellAt 0 0).xin.getD 0 []).map
      (fun k => (k.valid.toNat, (lane k.lanes 1).toNat, k.scale))
    agCell 0 ({ s := x } : StreamRun).pos = (0, 0) ∧ l.streamHere 0 x = true ∧ x.space ≠ 1 ∧ l.link 0 0 0 = .ag 0 ∧
    x.isStore = false ∧ x.direct = false ∧ x.scale = 0 ∧
    got (l.streamRead 0 0 x ({ s := x } : StreamRun).groupAddr 3 1) (fun b _ => b == [1, 0xFF, 3]) = true ∧
    head (after (exec (.streamTransfer 0 0) l)) = [(7, 0xFFFFFFFF, false)] ∧ y.scale = 1 ∧
    ({ s := y } : StreamRun).scaled.getD 0 0 ≠ ({ s := y } : StreamRun).blockMark ∧
    got (sc.streamRead 0 0 y ({ s := y } : StreamRun).scaleAddr 1 1) (fun b _ => b == [127]) = true ∧
    head (after (exec (.streamTransfer 0 0) sc)) = [(0xFF, 0x3FF8000000, true)] ∧ z.isStore = true ∧
    (st.cellAt 0 0).agOut.getD 0 [] = [k] ∧ got (st.storeGroup 0 0 z ({ s := z } : StreamRun).groupAddr 3 k) (fun fl _ => fl == 0) = true ∧
    (after (exec (.streamTransfer 0 0) st)).mem.getN (tileKey 0 0) 3 = [1, 8, 1] ∧ d.direct = true ∧
    got (di.streamRead 0 0 d (d.rowAddr 0 + wd 0) 3 1) (fun b s1 => b == [4, 5, 6] && s1.mem.wf && s1.scratchCode 0 0x40 3 == 0) = true ∧
    (after (exec (.streamTransfer 0 0) di)).mem.getN (tileKey 0 0x40) 3 = [4, 5, 6] := by
  decide +kernel

/-- StreamEvents: completions with a push that waits, one that goes, and an error; a held table operation; a time-out. -/
theorem wit_StreamEvents_end :
    let x := ownStream 0x40080FA020000000 0xFE000000FFE00000 0x0000010000300000 0
    let done (e : Nat) : StreamRun := { s := x, row := 1, err := e, fin := true }
    let s (e n : Nat) : State := (agS [] 0 { run := some (done e) }).hfSet 0 0 7 n
    let msgs (s : State) : List (Nat × Word) := (s.core 0).arrivals.map (fun a => (a.tag, a.msg))
    let held (o : CteOp) (old : Bool) : State :=
      agS [] 0 { run := if old then some (done 0) else none, held := [o], act := 0, swapId := 9 }
    let st (c : Nat) : State :=
      let s := agS [] 0 { run := some { s := x, stall := some 7 } }
      let s := s.updVi 63 (fun v => { v with handles := v.handles.set (hIndex x.w1) ⟨0x100000000000, 0, 0, 0⟩ })
      { s with clk := { s.clk with cycle := c } }
    x.hfPush = true ∧ x.hfPushIdx = 7 ∧ x.doneKind = 2 ∧ goes (exec (.streamCompletion 0 0) (s 0 16)) (s 0 16) ∧
    (after (exec (.streamCompletion 0 0) (s 0 15))).hfCount 0 0 7 = 16 ∧
    msgs (after (exec (.streamCompletion 0 0) (s 0 15))) = [(5, 0x10000000000)] ∧
    msgs (after (exec (.streamCompletion 0 0) (s 0x13 16))) = [] ∧
    ((((after (exec (.streamCompletion 0 0) (s 0x13 16))).tile 0).oprAt 0).agstat.getD 0 0) = 0x10000001300 ∧
    (((held .swap false).tile 0).ag 0).olderStreams = false ∧ (((held .swap true).tile 0).ag 0).olderStreams = true ∧
    (((after (exec (.codeTableApply 0 0) (held .swap false))).tile 0).ag 0).act = 1 ∧
    (((after (exec (.codeTableApply 0 0) (held (.write 255 6) false))).tile 0).ag 0).tab1.getD 255 0 = 6 ∧
    (st 6).cmds.find? 8 = none ∧ ((st 6).streamAt 8).map (fun y => (y.1, y.2.1)) = some (0, 0) ∧
    ((st 6).places.find? 0).map (·.pageTimeout) = some 0 ∧ ((st 6).plainEntry x.w1).tier = 1 ∧ goes (exec (.pageTimeout 8) (st 7)) (st 7) ∧
    ((((after (exec (.pageTimeout 8) (st 8))).tile 0).ag 0).run.map (fun r => (r.err, r.fin))) = some (0x1F, true) := by
  decide +kernel

/-- A machine with 256 arrivals in tile 0's store and one of a kind and detail behind them. -/
def crowded (kind detail : Nat) (s : State) : State :=
  let a : Arrival := { tag := 5, kind := 0, msg := 0, src := 0, detail := 0, set := 0, cycle := 0 }
  s.updCore 0 (fun c => { c with arrivals := List.replicate 256 a ++ [{ a with kind := kind, detail := detail }] })

/-- StreamEvents: a generator whose last arrival finds no room, and the stream of an evicted operator. InstanceEvents: an
arrival behind 256. CommandEvents: a queue whose last arrival finds no room. -/
theorem wit_StreamEvents_held :
    let x := ownStream 0x4108000020000000 0xFE000000FFE00000 0x0000010000300000 0
    let s := crowded 3 7 (agS [] 7 { queue := [.stream x] })
    let g := crowded 4 7 (grouped (blk [0]))
    let e := (agS [1, 2, 3] 0 { run := some { s := x } }).updRegion 0 (fun r => { r with evicted := r.evicted.set 0 default })
    s.agHeld 0 7 = true ∧ goes (exec (.streamStart 0 7) s) s ∧ s.sendsHeld 0 (fun a => a.kind == 3 && a.detail == 6) = false ∧
    (s.storeFill 0 ((s.core 0).arrivals.take 256)).1 = 192 ∧ 256 ≤ (g.storeFill 0 ((g.core 0).arrivals.take 256)).1 ∧
    g.sendsHeld 0 (fun a => a.kind == 4 && a.detail == 7) = true ∧
    ((e.region (keyAnchor 0)).evicted.find? 0).isSome = true ∧
    ((after (exec (.streamTransfer 0 0) e)).tile 0).cells = (e.tile 0).cells := by
  decide +kernel

/-- A command image with the issuer and identifier 7. -/
def qcmd (w0 w1 w2 w3 w4 : Word) (i : Issuer) : QCmd :=
  { id := 7, w0 := w0, w1 := w1, w2 := w2, w3 := w3, w4 := w4, by_ := i, epoch := 0 }

/-- A started command of the operator on tile 0, queue 7. -/
def running (c : QCmd) : RunCmd :=
  { c := c, tile := 0, pk := 0, q := 7, vi := 0, job := 0, domain := 0, timeout := 0, eq := 0x1F00000000000000, started := 5 }

/-- The machine on which commands run, at a cycle, over a tile store with bytes. -/
def cmdS (cycle : Nat) (l : List RunCmd) (b : List Byte) : State :=
  let s := scratch b (on (blk [0]))
  { s with clk := { s.clk with cycle := cycle }, cmds := { items := l.map (fun r => (r.c.id, r)) } }

/-- A COPY of 8 bytes in the tile's own store, with an arrival of its completion. -/
def copyCmd (w0 : Word) : QCmd := qcmd w0 0xFE000000FFE00000 0xFE000000FFE00040 8 0 (.core 0 5)

/-- CommandEvents: a PUBL behind a started command, handoffs of 0 and 1, an accepted and a refused start, the data work of a
COPY, and its completion with a handoff push that waits. -/
theorem wit_CommandEvents_local :
    let q (c : QCmd) (l : List RunCmd) : State := (cmdS 9 l (leBytes 8 0x1122334455667788)).updOpr 0 0 (fun o => { o with
      queues := o.queues.set 7 { items := [c] }, eq := o.eq.set 7 0x1F00000000000000 })
    let publ := qcmd 0x9A00000000000000 0 0 0 0 (.core 0 5)
    let w0 : Word := 0x9900008000000000
    let bad := copyCmd 0x9900008100000000
    let pop := copyCmd 0x9900F08000000000
    let done (w : Word) (n : Nat) : State := (cmdS 9 [{ running (copyCmd w) with res := some { count := n } }] []).hfSet 0 0 7 16
    let s := q (copyCmd w0) []
    let d := cmdS 9 [running (copyCmd w0)] (leBytes 8 0x1122334455667788)
    (s.queueAt 0 0 7).items = [copyCmd w0] ∧ (s.tile 0).anchor = some 0 ∧ placeKey 0 0 = 0 ∧ (s.places.find? 0).isSome = true ∧
    publ.code = 0x9A ∧ goes (exec (.commandStart 0 0 7) (q publ [running (copyCmd w0)])) (q publ [running (copyCmd w0)]) ∧
    pop.hfPop = true ∧ pop.hfPopIdx = 7 ∧ (q pop []).hfCount 0 0 7 = 0 ∧
    goes (exec (.commandStart 0 0 7) (q pop [])) (q pop []) ∧
    (after (exec (.commandStart 0 0 7) ((q pop []).hfSet 0 0 7 1))).cmds.items.map (fun x => (x.1, x.2.res)) = [(7, none)] ∧
    (after (exec (.commandStart 0 0 7) ((q pop []).hfSet 0 0 7 1))).hfCount 0 0 7 = 0 ∧ (copyCmd w0).hfPop = false ∧
    (after (exec (.commandStart 0 0 7) s)).cmds.items.map (fun x => (x.1, x.2.started, x.2.res)) = [(7, 9, none)] ∧
    (after (exec (.commandStart 0 0 7) (q bad []))).cmds.items.map (fun x => x.2.res.map (fun r => (r.err, r.refused))) =
      [some (1, true)] ∧
    d.cmds.find? 7 = some (running (copyCmd w0)) ∧ isColl 0x99 = false ∧ d.suspended (running (copyCmd w0)) = false ∧
    d.stallLasts (running (copyCmd w0)) = false ∧
    (match (d.workOn (running (copyCmd w0)) (d.workUnits (running (copyCmd w0)))).1 with
      | .ends _ (.done r _ _) => decide (r.err = 0) | _ => false) = true ∧
    (after (exec (.commandCompletion 7) d)).readWord (keysFrom (tileKey 0 0x40) 8) = 0x1122334455667788 ∧
    (copyCmd 0x99000F8000000000).hfPush = true ∧ (copyCmd 0x99000F8000000000).hfPushIdx = 7 ∧
    goes (exec (.commandCompletion 7) (done 0x99000F8000000000 8)) (done 0x99000F8000000000 8) ∧ (copyCmd w0).done = 2 ∧
    2 ^ 24 - 1 < 2 ^ 24 ∧ ((after (exec (.commandCompletion 7) (done w0 (2 ^ 24 - 1)))).core 0).arrivals.map
      (fun a => (a.tag, a.kind, a.msg, a.detail)) = [(5, 4, 0x990000FFFFFF0000, 7)] := by
  decide +kernel

/-- CommandEvents: an MV whose page is absent stalls; its time-out, in its cycle and before. -/
theorem wit_CommandEvents_stall :
    let c := qcmd 0xA000008041000400 0x4000000 0xFE000000FFE00000 0xFE000000FFE00040 0x0200002000020000 (.core 0 5)
    let rc : RunCmd := { running c with path := 1, eq := 0x6F00000000000000 }
    let absent (s : State) : State := s.updVi 0 (fun v => { v with
      slice := 2, handles := KMap.ofList [noEntry, { w0 := 0x100000800000, w1 := 0x10000, w2 := 5, w3 := 0 }] })
    let s := absent (cmdS 9 [rc] [])
    let t (n : Nat) : State := absent (cmdS n [{ rc with stall := some 9, stallH := c.w1 }] [])
    c.code = 0xA0 ∧ s.suspended rc = false ∧ s.stallLasts rc = false ∧
    (match (s.workOn rc (s.workUnits rc)).1 with | .ends _ (.stalled h) => h == c.w1 | _ => false) = true ∧
    (t 9).stallLasts { rc with stall := some 9, stallH := c.w1 } = true ∧ goes (exec (.commandCompletion 7) (t 9)) (t 9) ∧
    (after (exec (.commandCompletion 7) s)).cmds.items.map (fun x => x.2.stall) = [some 9] ∧
    ((t 9).plainEntry c.w1).tier ≠ 0 ∧ goes (exec (.pageTimeout 7) (t 9)) (t 9) ∧
    ((after (exec (.pageTimeout 7) (t 10))).core 0).arrivals.map (fun a => a.msg) = [0xA000010000001F00] := by
  decide +kernel

/-- CommandEvents: a collective of one party that takes its contribution, that has them all, in time and late, that waits,
and that ends, for a tile core and for a cell. -/
theorem wit_CommandEvents_coll :
    let c := qcmd 0xA500008000030000 0 0 0xFE000000FFE00040 0x0001000000000001 (.core 0 5)
    let lost : QCmd := { c with w3 := 0xFE000000FFE40000 }
    let x : Contribution := { vi := 0, job := 0, group := 3, p := 1, k := 0, idx := 0, data := [0x3FF8000000] }
    let s (n : Nat) (g : KMap (List Word)) : State := { cmdS n [{ running c with got := g }] [] with pool := [x] }
    let full := s 5 (KMap.ofList [[0x3FF8000000]])
    let byCell : State := cmdS 5 [running { c with by_ := .cell 0 1 }] []
    isColl c.code = true ∧ (running c).got.find? 0 = none ∧ c.w0.fld 31 16 = 3 ∧ c.w4.fld 63 48 = 1 ∧
    (after (exec (.collectiveContribution 7 0) (s 5 {}))).cmds.items.map (fun y => y.2.got.find? 0) = [some [0x3FF8000000]] ∧
    (match (performColl ({ running c with got := KMap.ofList [[0x3FF8000000]] }) full).1 with
      | .lands l => decide (l.bytes = bytesOf [0x3FF8000000]) | _ => false) = true ∧
    (match (performColl ({ running lost with got := KMap.ofList [[0x3FF8000000]] }) full).1 with
      | .done r _ _ => decide (r.err ≠ 0) | _ => false) = true ∧
    (after (exec (.commandCompletion 7) (after (exec (.collectiveResult 7) full)))).readWord (keysFrom (tileKey 0 0x40) 8) =
      0x3FF8000000 ∧
    goes (exec (.collectiveResult 7) (s 5 {})) (s 5 {}) ∧ goes (exec (.collectiveTimeout 7) (s 4 {})) (s 4 {}) ∧
    (s 5 {}).setGroup 0 = none ∧ goes (exec (.collectiveResult 7) { full with clk := { full.clk with cycle := 6 } })
      { full with clk := { full.clk with cycle := 6 } } ∧
    (after (exec (.collectiveTimeout 7) byCell)).cmds = {} ∧
    ((after (exec (.collectiveTimeout 7) (s 5 {}))).core 0).arrivals.map (fun a => a.msg) = [0xA500000000000600] := by
  decide +kernel

/-- CommandEvents: a weight switch with a record of the old generation left and with none, late; an engine that fails. -/
theorem wit_CommandEvents_switch :
    let c := qcmd 0xAB00008010000000 255 0 0 0 (.core 0 5)
    let rc := running c
    let st (s : State) : State := s.updStage (jobKey 0 0 * 256 + 255) (fun _ =>
      { gen := 1, switch := some 7, old := 3, since := 0, noted := false })
    let r : TokenRec := { h0 := 0x3FF00000000, h1 := 0, ah := 0, rw := 0, carry := Vector.replicate 12 0 }
    let old (s : State) : State := { s with net := [{ body := { r := r, pay := [] }, dest := .hamper 0, src := 0 }] }
    let s := st (cmdS 9 [rc] [])
    let late := old (st (cmdS (usCycles 100000) [rc] []))
    s.cmds.find? 7 = some rc ∧ c.code = 0xAB ∧ c.w1.fld 7 0 = 255 ∧ s.genCount 0 0 255 3 = 0 ∧ late.genCount 0 0 255 3 = 1 ∧
    goes (exec (.wswitchDrained 7) late) late ∧ (s.stage (jobKey 0 0 * 256 + 255)).switch = some 7 ∧
    (after (exec (.wswitchDrained 7) s)).cmds = {} ∧ (late.stage (jobKey 0 0 * 256 + 255)).noted = false ∧
    ((after (exec (.switchWaiting 7) late)).stage (jobKey 0 0 * 256 + 255)).noted = true ∧
    7 * 32 + 31 ∉ s.dev.failedEngines ∧ (∀ x ∈ s.cmds.items, 255 ∉ x.2.engs) ∧
    (after (exec (.engineFailed 7 31) s)).dev.failedEngines = [255] ∧
    goes (exec (.engineFailed 7 31) { s with dev := { s.dev with failedEngines := [255] } })
      { s with dev := { s.dev with failedEngines := [255] } } := by
  decide +kernel

/-- A machine that serves VI 5, with submission queue q of VI 5, in host memory, as described, and completion queue 0. -/
def hosted (cycle q : Nat) (d : RingQ) : State :=
  let s := State.reset.updVi 5 (fun v => { v with
    enable := true, sq := v.sq.set q d, cq := KMap.ofList [{ w0 := 0x1000, w1 := 0x4005000000000000, en := true }] })
  { s with clk := { s.clk with cycle := cycle }, dev := { s.dev with ready := true } }

/-- A submission queue of 16 entries at 0x10000 in host memory, at its last entry, with one command. -/
def sqd : RingQ := { w0 := 0x10000, w1 := 0x4000000000000000, en := true, head := 15, tail := 0, port := 1 }

/-- HostQueueEvents: the VI to serve with one other VI; a TIMED before its stamp, at it, and with every core busy; a vector that is masked, that
is early, and that sends. -/
theorem wit_HostQueueEvents :
    let s := hosted 9 15 sqd
    let f (n : Word) (c : Nat) : State := { hosted 9 15 sqd with
      clk := { (hosted 9 15 sqd).clk with time := wd c }
      fe := [{ e := entry 7 n 0x100000 0 0, wait := .timed n (entry 8 3 0 0 0), started := 0, sqHead := 9 }] }
    let busy (s : State) : State := { s with fe := s.fe ++ List.replicate 4 { e := entry 8 3 0 0 0, wait := .ready, started := 0, sqHead := 9 } }
    let v (cycle : Nat) (mask : Word) (last : Nat) : State := (hosted cycle 15 sqd).updVi 5 (fun v => { v with
      msix := v.msix.set 511 mask, vecPend := v.vecPend.set 255 (0, 1), vecLast := v.vecLast.set 255 last })
    s.viToServe = some (3, 5) ∧ nextInTurn (s.vi 5).lastSq ((List.range 16).filter (fun q => s.queueReady 5 q)) = some 15 ∧
    sqd.inDevice = false ∧ 4 ≠ 5 ∧ goes (exec (.commandService 4) s) s ∧ (after (exec (.commandService 5) s)).fe.length = 1 ∧
    (((after (exec (.commandService 5) s)).vi 5).sq.find? 15).map (fun q => (q.head, q.busy)) = some (0, true) ∧
    (after (exec (.commandService 5) s)).dev.servedVi.getD 3 63 = 5 ∧
    goes (exec (.timedLaunch 0) (f 10 9)) (f 10 9) ∧
    (after (exec (.timedLaunch 0) (f 10 10))).fe.map (fun f => (f.wait == .ready, f.e.w0)) = [(true, 0x080000000000004D)] ∧
    (f 10 10).coresBusy false < 4 ∧ 4 ≤ (busy (f 10 10)).coresBusy false ∧ goes (exec (.timedLaunch 0) (busy (f 10 10))) (busy (f 10 10)) ∧
    ((v 9 0x100000000 0).vi 5).masked 255 = true ∧ goes (exec (.msixMessage 5 255) (v 9 0x100000000 0)) (v 9 0x100000000 0) ∧
    ((v 9 0 9).vi 5).masked 255 = false ∧ (v 9 0 9).clk.cycle < 9 + usCycles 1 ∧
    goes (exec (.msixMessage 5 255) (v 9 0 9)) (v 9 0 9) ∧
    (after (exec (.msixMessage 5 255) (v (9 + usCycles 1) 0 9))).outs = [.msix 5 255 1] := by
  decide +kernel

/-- HostQueueEvents: an invalidation that a stream of the old entry holds up, and one that a posted write does; one of translations, one of entries, and one
that SYSC asked for; a read that is not answered; a port that goes down under a busy and an idle queue and beside another. -/
theorem wit_HostQueueEvents_inv :
    let e : HEntry := { w0 := 0x800000, w1 := 0, w2 := 5, w3 := 0 }
    let q (k n : Nat) (c : Option SyscReq) : InvReq := { kind := k, seq := 77, n := n, sysc := c }
    let x : Stream := { ownStream 0x4004000020000000 0x1400000004000000 0x0000010000800000 0 with entry := some e }
    let s (r : InvReq) : State := (agS [] 0 {}).updVi 5 (fun v => { v with
      inv := [r, q 3 9 none], tlb := [{ unit := 0, page := 1, tr := default, age := 0 }, { unit := 0, page := 2, tr := default, age := 1 }]
      hOld := v.hOld.set 1 [(0, e)], windOld := [(0, {})] })
    let held := (s (q 2 0 none)).updAg 0 0 (fun a => { a with queue := [.stream x] })
    let posted := (s (q 1 0 none)).updOrd 5 1 (fun _ => { writes := [{ keys := [5], data := [7], die := 0, flag := false, since := 0 }] })
    let call : SyscReq := { tile := 0, pk := 0, set := 0, tag := 6, code := 1, val := 77 }
    let two : State := (hosted 9 15 sqd).updVi 5 (fun v => { v with sq := (v.sq.set 14 { sqd with busy := true }).set 13 { sqd with port := 0 } })
    let down := after (exec (.hostPortDown 1) two)
    hVi 0x1400000004000000 = 5 ∧ ((s (q 1 0 none)).vi 5).inv = [q 1 0 none, q 3 9 none] ∧ held.oldInUse 5 = true ∧
    goes (exec (.invalidationComplete 5) held) held ∧ (s (q 2 0 none)).oldInUse 5 = false ∧ (s (q 1 0 none)).translatedHeld 5 = false ∧
    posted.translatedHeld 5 = true ∧ goes (exec (.invalidationComplete 5) posted) posted ∧
    ((after (exec (.invalidationComplete 5) (s (q 1 0 none)))).vi 5).tlb.map (·.page) = [2] ∧
    ((after (exec (.invalidationComplete 5) (s (q 1 0 none)))).vi 5).invdone = 77 ∧
    ((after (exec (.invalidationComplete 5) (s (q 2 0 none)))).vi 5).hOld.getD 1 [] = [] ∧
    ((after (exec (.invalidationComplete 5) (s (q 2 0 none)))).vi 5).windOld.length = 1 ∧
    ((after (exec (.invalidationComplete 5) (s (q 1 0 (some call))))).vi 5).invdone = 0 ∧
    ((after (exec (.invalidationComplete 5) (s (q 1 0 (some call))))).core 0).arrivals.map (fun a => (a.tag, a.kind, a.msg)) =
      [(6, 9, 77)] ∧
    (hosted 9 15 sqd).queueReady 5 15 = true ∧
    (((after (exec (.hostReadTimeout 5 15) (hosted 9 15 sqd))).vi 5).sq.find? 15).map (·.failed) = some true ∧
    1 ∉ two.dev.portsDown ∧ goes (exec (.hostPortDown 1) down) down ∧
    [13, 14, 15].map (fun k => ((down.vi 5).sq.find? k).map (fun q => (q.en, q.stop))) =
      [some (true, false), some (true, true), some (false, false)] := by
  decide +kernel

/-- HostAccessEvents: writes, flags and reads of VI 0 at the end of its aperture's page, past what is mapped, by a port that
is down, with an earlier write outstanding, and after a loss. -/
theorem wit_HostAccessEvents :
    let r (w f : Bool) (off : Nat) : BarAccess :=
      { vi := 0, port := 1, off := off, write := w, len := 1, data := [0xAB], flag := f, poison := false }
    let s := mapped State.reset
    let w (f : Bool) (k : Nat) : InWrite := { keys := [k], data := [7], die := 0, flag := f, since := 0 }
    let o (l : List InWrite) (b : Bool) : State := s.updOrd 0 1 (fun _ => { writes := l, lost := b })
    let down : State := { s with dev := { s.dev with portsDown := [1] } }
    let late : State := { o [w true 5, w false 6, w true 7] false with clk := { s.clk with cycle := usCycles 100 } }
    down.regServed { vi := 0, port := 1 } = false ∧ goes (exec (.bar2Access (r true false 0)) down) down ∧
    goes (exec (.bar2Access (r true false (2 ^ 38))) s) s ∧ 0x10FFFF + 1 ≤ 2 ^ 38 ∧
    s.regServed { vi := 0, port := 1 } = true ∧ s.aperture 0 0x10FFFF = 0x10FFFF ∧
    got (s.resolveDv false none 0 0x10FFFF 1 false true) (fun ks _ => ks == [0x10FFFF]) = true ∧
    ((after (exec (.bar2Access (r true false 0x10FFFF)) s)).ordAt 0 1).writes.map (fun w => (w.keys, w.data)) = [([0x10FFFF], [0xAB])] ∧
    ((o [] true).ordAt 0 1).lost = true ∧ ((after (exec (.bar2Access (r true true 0)) (o [] true))).ordAt 0 1).discarded = 1 ∧
    (after (exec (.bar2Access (r true true 0x10FFFF)) s)).byteAt 0x10FFFF = 0xAB ∧
    ((after (exec (.bar2Access (r true true 0)) (o [w false 6] false))).ordAt 0 1).writes.length = 2 ∧
    (after (exec (.bar2Access (r false false 0)) (o [] true))).outs = [.completerAbort 0 1] ∧
    goes (exec (.bar2Access (r false false 0)) (o [w false 6] false)) (o [w false 6] false) ∧
    s.badWrite [0x10FFFF] = false ∧
    got (s.resolveDv false none 0 0x10FFFF 1 true false) (fun ks u => ks == [0x10FFFF] && !u.badRead ks) = true ∧
    (after (exec (.bar2Access (r false false 0x10FFFF)) (s.writeKeys [0x10FFFF] [9]))).outs = [.readData 0 1 [9]] ∧
    got (s.resolveDv false none 0 0x40000000 1 true false) (fun _ _ => true) = false ∧
    (after (exec (.bar2Access (r false false 0x40000000)) s)).outs = [.readData 0 1 [0xFF]] ∧
    goes (exec (.completionFlagForward 1 0) (o [w false 6] false)) (o [w false 6] false) ∧
    (after (exec (.completionFlagForward 1 0) (o [w true 5, w false 6] false))).byteAt 5 = 7 ∧
    ((after (exec (.completionFlagForward 1 0) (o [w true 5] true))).ordAt 0 1).discarded = 1 ∧
    ((late.ordAt 0 1).writes[1]?).map (fun w => (w.flag, w.since + usCycles 100)) = some (false, late.clk.cycle) ∧
    ((late.ordAt 0 1).writes[0]?).map (·.flag) = some true := by
  decide +kernel

/-- HostAccessEvents: a completion flag that lies in two groups of 64 bytes, as it comes and as it is performed. -/
theorem wit_HostAccessEvents_parts :
    let r : BarAccess := { vi := 0, port := 1, off := 0x10FFFF, write := true, len := 2, data := [0xAB, 0xCD], flag := true, poison := false }
    let s := mapped State.reset
    let u := after (exec (.bar2Access r) s)
    let w : InWrite := { keys := [0x10FFFF, 0x110000], data := [0xAB, 0xCD], die := 0, flag := true, since := 0 }
    let o : State := s.updOrd 0 1 (fun _ => { writes := [w], lost := false })
    let v := after (exec (.completionFlagForward 1 0) o)
    got (s.resolveDv false none 0 0x10FFFF 2 false true) (fun ks u => ks == w.keys && !u.badWrite ks) = true ∧
    (u.ordAt 0 1).writes.map (·.keys) = [w.keys] ∧ u.byteAt 0x10FFFF = 0 ∧
    (w.keys.takeWhile (fun k => k / 64 == w.keys.headD 0 / 64)).length = 1 ∧
    v.byteAt 0x10FFFF = 0xAB ∧ v.byteAt 0x110000 = 0 ∧ (v.ordAt 0 1).writes.map (fun w => (w.keys, w.data)) = [([0x110000], [0xCD])] := by
  decide +kernel

/-- LinkAndTimeEvents: time that stops at a hamper's timeout, and whose next step closes the tile first. -/
theorem wit_LinkAndTimeEvents_pass :
    let s (c : Nat) : State := hampered c { forming := some { rows := [record 0 3 0], tileSlot := 0 } }
    let u := after (makeMove (.tick 5) (s 938))
    let v := after (makeMove (.tick 5) u)
    u.clk.cycle = 940 ∧ (u.places.find? 0).map (fun p => p.hamper.closed.length) = some 0 ∧
    v.clk.cycle = 945 ∧ (v.places.find? 0).map (fun p => p.hamper.closed.map (fun x => (x.cause, x.at_))) = some [(2, 940)] ∧
    ((s 938).places.find? 0).map (fun p => p.hamper.forming.map Forming.oldest) = some (some 0) := by
  decide +kernel

/-- LinkAndTimeEvents: a cycle of time; a link that trains and one that may not, and that fails; time that follows the link
and time that does not; power above, at and below the cap. -/
theorem wit_LinkAndTimeEvents :
    let s := State.reset
    let d (f : Dev → Dev) : State := { s with dev := f s.dev }
    let up := d (fun d => { d with lnkctl := 0x8000, lnkstat := 0x8000 })
    let l (lost : Bool) (t2 : Word) : State := d (fun d => { d with timesrc := 2, timeLost := lost, ptpT1 := 100, ptpT2 := t2, ptpT3 := 10 })
    let late : State := { l false 0 with clk := { s.clk with cycle := usCycles 3000000 } }
    s.clk.slew = 0 ∧ (s.tick 47).clk.time = 800 ∧ (s.tick 1).clk.time = 17 ∧ 15 < 16 ∧ up.dev.lnkstat.getLsbD 15 = true ∧
    (after (exec (.linkTrained 15) (d (fun d => { d with lnkctl := 0x8000 })))).dev.lnkstat = 0x8000 ∧
    (after (exec (.linkTrained 14) (d (fun d => { d with lnkctl := 0x8000 })))).dev.lnkstat = 0 ∧
    (after (exec (.linkTrainingLost 15) up)).dev.lnkstat = 0 ∧ goes (exec (.linkTrainingLost 15) s) s ∧
    3 ∉ s.dev.linksDown ∧
    (after (exec (.atticLinkDown 3) s)).dev.linksDown = [3] ∧ s.linkTime = false ∧ goes (exec .timeSourceLost s) s ∧
    (l false 0).linkTime = true ∧ (after (exec (.ptpMessage (.delayResp 20)) (l false 1708))).clk.slew = -799 * 470000 ∧
    (after (exec (.ptpMessage (.delayResp 20)) (l false 1708))).dev.timeLocked = true ∧
    (after (exec (.ptpMessage (.delayResp 20)) (l false 1710))).dev.timeLocked = false ∧
    late.dev.lastSync + usCycles 3000000 ≤ late.clk.cycle ∧ (after (exec .timeSourceLost late)).dev.timeLost = true ∧
    (l true 0).dev.timeLost = true ∧ (after (exec (.timeRelock 16000000) (l true 0))).clk.slew = 16000000 * 470000 ∧
    (after (exec (.timeRelock 16000001) (l true 0))).clk.time = 16000001 ∧ s.dev.pcap = 3200 ∧
    (after (exec (.throttle 3201) s)).dev.throttle = true ∧ goes (exec (.throttle 3200) s) s ∧
    (after (exec (.powerBelowCap 3199) (d (fun d => { d with throttle := true })))).dev.throttle = false ∧
    goes (exec (.powerBelowCap 3200) s) s := by
  decide +kernel

/-- A fabric-path MV of the operator on tile 0, which its cells stand still for (R282). -/
def pausing (s : State) : State :=
  { s with cmds := { items := [(7, { running (qcmd 0xA000008041000400 0 0 0 0 (.core 0 5)) with path := 0 })] } }

/-- CellEvents: cells that stand still, whose outputs, ordering tokens, sweeps and loops wait; a body whose arrival would stand
outside a full arrival store. -/
theorem wit_CellEvents_paused :
    let o : State := cellS [] (fun x => { x with pendOrdt := [{ dsts := [8, 31], tag := 2, waits := [] }] })
    let k := tok [7] 1
    let b : LcuBody := { count := 2, tag := 9, mask := 0, running := true, released := 2, done := {} }
    let l : State := (cellS [] id).updOpr 0 0 (fun o => { o with lcu := o.lcu.set 3 b })
    let a : Arrival := { tag := 9, kind := 6, msg := 0, src := 0, detail := 3, set := 0, cycle := 0 }
    let full := l.updCore 0 (fun c => { c with arrivals := List.replicate 257 a })
    let held (s : State) : Bool := s.sendsHeld 0 (fun a => a.kind == 6 && a.tag == 9 && a.detail == 3)
    (pausing o).cellsPaused 0 = true ∧ o.cellsPaused 0 = false ∧ (pausing o).heldOut 0 0 0 = true ∧ o.heldOut 0 0 0 = false ∧
    goes (exec (.orderingTokenEmit 0 0 0) (pausing o)) (pausing o) ∧
    ((after (exec (.orderingTokenEmit 0 0 0) o)).cellAt 0 0).pendOrdt = [] ∧
    ((((pausing o).deliver 0 0 8 k).cellAt 0 0).agOut.getD 0 []) = [] ∧ l.cellsPaused 0 = false ∧ held l = false ∧
    held full = true ∧ goes (exec (.lcuRelease 0 0 3) full) full ∧
    ((after (exec (.lcuRelease 0 0 3) l)).core 0).arrivals.map (fun a => (a.tag, a.kind)) = [(9, 6)] := by
  decide +kernel

/-- StreamEvents: a generator whose cells stand still, the stream of an operator that is switched out, and pages published in time
and late. -/
theorem wit_StreamEvents_away :
    let x := ownStream 0x4108000020000000 0xFE000000FFE00000 0x0000010000300000 0
    let s := agS [1, 2, 3] 0 { run := some { s := x } }
    let e := s.updRegion 0 (fun r => { r with loaded := some 9, aside := r.aside.set 0 default })
    let st (c at_ : Nat) : State :=
      let s := agS [] 0 { run := some { s := x, stall := some 7 } }
      let s := s.updVi 63 (fun v => { v with
        handles := v.handles.set (hIndex x.w1) ⟨0x800000, 0, 0, 0⟩, pubAt := v.pubAt.set (hIndex x.w1) [at_, 6] })
      { s with clk := { s.clk with cycle := c } }
    s.loadedOn 0 = some 0 ∧ (pausing s).cellsPaused 0 = true ∧ (pausing s).channelsHeld 0 x = true ∧ s.channelsHeld 0 x = false ∧
    goes (exec (.streamTransfer 0 0) (pausing s)) (pausing s) ∧ ((e.region 0).away 0).isSome = true ∧ ((s.region 0).away 0).isNone = true ∧
    ((after (exec (.streamTransfer 0 0) e)).tile 0).cells = (e.tile 0).cells ∧
    (((after (exec (.streamTransfer 0 0) e)).tile 0).ag 0).run ≠ some { s := x } ∧
    goes (exec (.pageTimeout 8) (st 9 7)) (st 9 7) ∧
    ((((after (exec (.pageTimeout 8) (st 9 8))).tile 0).ag 0).run.map (fun r => (r.err, r.fin))) = some (0x1F, true) := by
  decide +kernel

/-- CommandEvents: a command of a cell behind an update of that cell that is not applied; an MV whose bytes land group by group; a
page published late; a time-out after some units. -/
theorem wit_CommandEvents_units :
    let c : QCmd := { copyCmd 0x9900008000000000 with by_ := .cell 0 1, after := [3] }
    let q (u : List PendUpd) : State := ((cmdS 9 [] (leBytes 8 0x1122334455667788)).updOpr 0 0 (fun o => { o with
      queues := o.queues.set 7 { items := [c] }, eq := o.eq.set 7 0x1F00000000000000 })).updCell 0 0 (fun x => { x with pendUpd := u })
    let u : PendUpd := { id := 3, lq := none, left := 1, tok := tok [] 0 }
    let sc := qcmd 0xA900008000000000 0xFE000000FFE00000 0 0xFE000000FFE00040 0 (.core 0 5)
    let l : Landing := { addr := 0xFE000000FFE00040, al := 8, bytes := List.replicate 80 5, pos := 1, cnt := 2, fl := 0, ok := some { count := 2 } }
    let rc : RunCmd := { running sc with land := some l }
    let s := cmdS 9 [rc] []
    let one := after (exec (.commandCompletion 7) s)
    let m := qcmd 0xA000008041000400 0x4000000 0xFE000000FFE00000 0xFE000000FFE00040 0x0200002000020000 (.core 0 5)
    let mv : RunCmd := { running m with path := 1, eq := 0x6F00000000000000, stall := some 9, stallH := m.w1, cnt := 3 }
    let t (cycle at_ : Nat) : State := (cmdS cycle [mv] []).updVi 0 (fun v => { v with
      slice := 2, handles := KMap.ofList [noEntry, { w0 := 0x800000, w1 := 0x10000, w2 := 5, w3 := 0 }], pubAt := v.pubAt.set 1 [8, at_] })
    (q [u]).updatesBefore 0 0 c = true ∧ goes (exec (.commandStart 0 0 7) (q [u])) (q [u]) ∧ (q []).updatesBefore 0 0 c = false ∧
    (after (exec (.commandStart 0 0 7) (q []))).cmds.items.length = 1 ∧ rc.land ≠ none ∧ s.suspended rc = false ∧ s.stallLasts rc = false ∧
    (match (s.workOn rc (s.workUnits rc)).1 with
      | .more _ => true
      | .ends _ (.done ..) => true
      | _ => false) = true ∧
    (∃ n < 80, one.mem.getN (tileKey 0 (0x40 + n)) 1 = [5]) ∧
    hIndex m.w1 = 1 ∧ goes (exec (.pageTimeout 7) (t 20 9)) (t 20 9) ∧
    ((after (exec (.pageTimeout 7) (t 20 10))).core 0).arrivals.map (fun a => a.msg) = [0xA000010000031F00] := by
  decide +kernel

/-- CommandEvents: a sharded sample whose token lands, and a collective that lands at its time-out. -/
theorem wit_CommandEvents_land :
    let c := qcmd 0xA800008000030000 0 0 0 0x0001000000000001 (.core 0 5)
    let w (rc : RunCmd) : RunCmd := { rc with words := [0, 0x200000000000000, 0, 0] }
    let rc : RunCmd := w { running c with got := KMap.ofList [[0x0000000500000009]] }
    let s : State := cmdS 5 [rc] []
    let l : Landing := { addr := 0xFE000000FFE00040, al := 4, bytes := [9], pos := 0, cnt := 0, fl := 0 }
    let z : State := cmdS 9 [{ rc with land := some l }] []
    (∀ i, i < 1 → (rc.got.find? i).isSome = true) ∧ isColl c.code = true ∧ rc.land = none ∧
    goes (exec (.collectiveResult 7) z) z ∧ goes (exec (.collectiveTimeout 7) z) z ∧
    (match (performColl rc s).1 with
      | .lands _ => true
      | _ => false) = true ∧ (after (exec (.collectiveResult 7) s)).cmds.items.map (fun y => y.2.land.isSome) = [true] := by
  decide +kernel

/-- CommandEvents: a command on the cellar path before an engine that is full and one that has room. -/
theorem wit_CommandEvents_engine :
    let rc : RunCmd := { running (copyCmd 0xA000008041000400) with path := 3, engs := [0] }
    let other (j : Nat) : RunCmd := { running { copyCmd 0xA000008041000400 with id := 20 + j } with path := 1, engs := [0] }
    let s (n : Nat) : State := cmdS 9 ([rc] ++ (List.range n).map other) []
    rc.c.id = 7 ∧ (s 16).cmds.find? 7 = some rc ∧ rc.res = none ∧ (s 16).dev.failedEngines = [] ∧
    16 ≤ (s 16).engineFill 0 ∧ (s 15).engineFill 0 < 16 ∧ goes (exec (.commandCompletion 7) (s 16)) { s 16 with cmds := (s 16).cmds.set 7 rc } ∧
    ((after (exec (.commandCompletion 7) (s 15))).cmds.find? 7).map (·.path) = some 1 := by
  decide +kernel

/-- HostQueueEvents: an answer of SYSC that would stand outside a full arrival store. FirmwareEvents: a takeover whose copy shows
one command as started and another queue position, and no operator that the table has. -/
theorem wit_FirmwareEvents_takeover :
    let a : Arrival := { tag := 6, kind := 9, msg := 0, src := 0, detail := 1, set := 0, cycle := 0 }
    let call : SyscReq := { tile := 0, pk := 0, set := 0, tag := 6, code := 1, val := 77 }
    let s : State := ((on (blk [0])).updCore 0 (fun c => { c with arrivals := List.replicate 257 a })).updVi 5 (fun v => { v with
      inv := [{ kind := 1, seq := 77, n := 0, sysc := some call }] })
    let f : FeCmd := { e := entry 8 3 0 0 0, wait := .ready, started := 0, sqHead := 9 }
    let r : State := served.updVi 0 (fun v => { v with cq := {} })
    let t : State := { r with
      dev := { r.dev with ready := true }, fe := [f], copy := { fe := [f], heads := KMap.mk [(0, 1)] }
      places := r.places.set 0 (onePlacement 7), ops := r.ops.set 7 { vi := 0, job := 0, rcb := 0, image := oneTileImage {} {} } }
    let u := after (exec .complexTakeover t)
    s.sendsHeld 0 (fun a => a.kind == 9 && a.tag == 6) = true ∧ goes (exec (.invalidationComplete 5) s) s ∧
    t.dev.ready = true ∧ ((t.vi 0).sq.find? 0).map (·.canary) = some false ∧ u.fe = [] ∧
    ((u.vi 0).sq.find? 0).map (fun q => (q.head, q.busy)) = some (1, false) ∧ u.copy.fe = [] ∧ u.ops = {} ∧
    u.places.find? 0 = none ∧ t.copyTable.copy.places.keys = [0] := by
  decide +kernel

/-- FirmwareEvents: self-tests of a free tile and of a placed one; an update in each state, with an image that cannot be
read, and a canary command 100 ms old; a takeover before the part is ready. The parts that ask whether an image of the
store verifies are open. -/
theorem wit_FirmwareEvents :
    let s := State.reset
    let d (f : Dev → Dev) : State := { s with dev := f s.dev }
    let canary (n : Nat) : State := { d (fun d => { d with ready := true, fwstate := .canary, fwctl := 1, fwSince := 0 }) with
      clk := { s.clk with cycle := n }, fe := [{ e := entry 8 3 0 0 0, wait := .ready, started := 0, sqHead := 0, canary := true }] }
    (s.tile 0).state = .enabled ∧ (s.tile 0).anchor = none ∧ (after (exec (.selfTest [0]) s)).dev.srcause = 2 ∧
    goes (exec (.selfTest [1152]) s) s ∧ ((on (blk [0])).tile 0).anchor ≠ none ∧
    goes (exec (.selfTest [0]) (on (blk [0]))) (on (blk [0])) ∧ s.dev.fwstate ≠ .verifying ∧
    goes (exec .standbyImageChecked s) s ∧
    got (d (fun d => { d with fwstate := .verifying, fwlen := 8 })).readFirmware (fun _ _ => true) = false ∧
    (after (exec .standbyImageChecked (d (fun d => { d with fwstate := .verifying, fwlen := 8 })))).dev.fwstate = .refused ∧
    (canary 0).canaryWindow = usCycles 1000 ∧ goes (exec .canaryWindowEnd (canary 5)) (canary 5) ∧
    (after (exec .canaryWindowEnd (canary (usCycles 1000)))).dev.fwstate = .committing ∧
    ((after (exec .heartbeatLost (canary 5))).dev.fwstate, (after (exec .heartbeatLost (canary 5))).dev.fwreason) = (.reverted, 3) ∧
    (after (exec .standbyAssertion (canary 5))).dev.fwreason = 5 ∧ (∃ f ∈ (canary (usCycles 100000)).fe,
      f.canary = true ∧ f.wait = .ready ∧ f.started + usCycles 100000 ≤ (canary (usCycles 100000)).clk.cycle) ∧
    (after (exec .canaryCommandHung (canary (usCycles 100000)))).dev.fwreason = 4 ∧ goes (exec .heartbeatLost s) s ∧
    (after (exec .canaryWindowEnd (d (fun d => { d with fwstate := .committing })))).dev.activeB = true ∧
    goes (exec .complexTakeover s) s ∧ (after (exec .complexTakeover (canary 5))).dev.activeB = true ∧
    (after (exec .complexTakeover (canary 5))).fe.length = 1 := by
  decide +kernel

end Sys2Proof.Tests
end

section
/-! PROOFS. The integer instructions of cells: a firing of a lane operation, and what each operation on 32-bit words is as a
number modulo 2^32 (R180 to R185). -/

namespace Sys2Proof.Machine

/-! ### Firings -/

/-- The OR of some flags avoids the enabled traps where the start and each flag avoid them. -/
theorem foldl_or_and_eq_zero_iff (fl : Nat → BitVec 5) (en a : BitVec 5) (l : List Nat) :
    l.foldl (fun a i => a ||| fl i) a &&& en = 0 ↔ a &&& en = 0 ∧ ∀ i ∈ l, fl i &&& en = 0 := by
  induction l generalizing a with
  | nil => simp
  | cons i l ih =>
    have split_or : (a ||| fl i) &&& en = 0 ↔ a &&& en = 0 ∧ fl i &&& en = 0 := by
      rw [BitVec.and_or_distrib_right]; exact BitVec.or_eq_zero_iff
    rw [List.foldl_cons, ih, split_or, List.forall_mem_cons, and_assoc]

/-- No flag of a firing has its trap enabled exactly where none of its executing lanes raises such a flag (R88). -/
theorem Firing.anyFlag_and_eq_zero_iff (fr : Firing) (fl : Nat → BitVec 5) (en : BitVec 5) :
    fr.anyFlag fl &&& en = 0 ↔ ∀ l ∈ fr.lanes, fl l &&& en = 0 := by
  unfold Firing.anyFlag
  rw [foldl_or_and_eq_zero_iff]
  simp

/-- A firing whose flags have no trap enabled takes effect (R88). -/
theorem State.finishFiring_of_untrapped {s : State} {fr : Firing} {fl : Nat → BitVec 5}
    (h : ∀ l ∈ fr.lanes, fl l &&& fr.x.ctx.trapEn = 0) (act : State → State) :
    s.finishFiring fr fl act = (act ((s.takeHeads fr).raiseFlags fr fl)).endFiring fr := by
  have hz := (fr.anyFlag_and_eq_zero_iff fl _).2 h
  simp [State.finishFiring, hz]

/-- A firing that raises a flag whose trap is enabled does nothing but trap (R88, R403). -/
theorem State.finishFiring_of_trapped {s : State} {fr : Firing} {fl : Nat → BitVec 5}
    (h : ∃ l ∈ fr.lanes, fl l &&& fr.x.ctx.trapEn ≠ 0) (act : State → State) :
    s.finishFiring fr fl act = s.cellTrap fr 1 0 (fr.anyFlag fl) 0 := by
  have hnz : fr.anyFlag fl &&& fr.x.ctx.trapEn ≠ 0 := fun hz => by
    obtain ⟨l, hl, hne⟩ := h
    exact hne ((fr.anyFlag_and_eq_zero_iff fl _).1 hz l hl)
  unfold State.finishFiring
  exact if_pos (by simpa using hnz)

/-- An instruction that is a lane operation gives that operation's values and flags. -/
theorem firesLanes_laneOp {i : Instr} {op : Nat} {f : CellF} {s : State} {g : State → Firing → Nat → Fw × BitVec 5}
    (hi : exec i s = laneOp op f g s) :
    FiresLanes i op f s (fun k => (g s (s.firing op f) k).1) (fun k => (g s (s.firing op f) k).2) := by
  intro ready
  rw [hi, laneOp, fire_ready ready]
  constructor
  · intro h; rw [State.finishFiring_of_untrapped h]; rfl
  · intro h; rw [State.finishFiring_of_trapped h]

/-! ### The operands as 32-bit words (R181) -/

/-- The low word of lane i of a source of the focused slot. -/
def State.laneWord (s : State) (v i : Nat) : BitVec 32 := low32 (s.laneFw v i)

theorem State.laneNat_eq_toNat (s : State) (v i : Nat) : s.laneNat v i = (s.laneWord v i).toNat := by
  simp [State.laneNat, State.laneWord, State.laneFw, low32]

theorem State.laneInt_eq_toInt (s : State) (v i : Nat) : s.laneInt v i = (s.laneWord v i).toInt := by
  unfold State.laneInt
  rw [State.laneNat_eq_toNat, BitVec.toInt_eq_toNat_cond]
  split <;> split <;> omega

/-- A 32-bit result in a lane is the number it stands for modulo 2^32, with bits [39:32] zero. -/
theorem setWidth_ofInt (x : Int) : (BitVec.ofInt 32 x).setWidth 40 = laneOfInt x := by
  apply BitVec.eq_of_toNat_eq
  simp only [laneOfInt, BitVec.toNat_setWidth, BitVec.toNat_ofInt]
  omega

/-- An instruction of form B gives in each lane the number v its operation stands for. -/
theorem firesLanes_intOp2 {i : Instr} {op : Nat} {f : CellF} {s : State} {g : BitVec 32 → BitVec 32 → BitVec 32}
    {v : BitVec 32 → BitVec 32 → Int} (hg : ∀ a b, g a b = BitVec.ofInt 32 (v a b)) (hi : exec i s = intOp2 op f g s) :
    FiresLanes i op f s (fun k => laneOfInt (v (s.laneWord f.srcA k) (s.laneWord f.srcB k))) (fun _ => 0) := by
  simp only [← setWidth_ofInt, ← hg]
  exact firesLanes_laneOp hi

/-- An instruction of form U gives in each lane the number v its operation stands for. -/
theorem firesLanes_intOp1 {i : Instr} {op : Nat} {f : CellF} {s : State} {g : BitVec 32 → BitVec 32}
    {v : BitVec 32 → Int} (hg : ∀ a, g a = BitVec.ofInt 32 (v a)) (hi : exec i s = intOp1 op f g s) :
    FiresLanes i op f s (fun k => laneOfInt (v (s.laneWord f.srcA k))) (fun _ => 0) := by
  simp only [← setWidth_ofInt, ← hg]
  exact firesLanes_laneOp hi

/-! ### The operations as numbers (R185) -/

theorem ofInt_toNat (a : BitVec 32) : BitVec.ofInt 32 a.toNat = a := by simp

theorem add_eq_ofInt (a b : BitVec 32) : a + b = BitVec.ofInt 32 (a.toNat + b.toNat) := by
  simp [BitVec.ofInt_add]

theorem sub_eq_ofInt (a b : BitVec 32) : a - b = BitVec.ofInt 32 (a.toNat - b.toNat) := by
  apply BitVec.eq_of_toNat_eq
  rw [BitVec.toNat_sub, BitVec.toNat_ofInt]
  omega

theorem mul_eq_ofInt (a b : BitVec 32) : a * b = BitVec.ofInt 32 (a.toNat * b.toNat) := by
  simp [BitVec.ofInt_mul]

/-- Bits [63:32] of a 64-bit number. -/
theorem high_word_eq_ofInt (p : Int) : ((BitVec.ofInt 64 p) >>> 32).setWidth 32 = BitVec.ofInt 32 (p.fdiv (2 ^ 32)) := by
  apply BitVec.eq_of_toNat_eq
  rw [Int.fdiv_eq_ediv_of_nonneg _ (by decide)]
  simp only [BitVec.toNat_setWidth, BitVec.toNat_ushiftRight, BitVec.toNat_ofInt, Nat.shiftRight_eq_div_pow]
  omega

theorem mulh_eq_ofInt (a b : BitVec 32) :
    ((a.signExtend 64 * b.signExtend 64) >>> 32).setWidth 32 = BitVec.ofInt 32 ((a.toInt * b.toInt).fdiv (2 ^ 32)) := by
  rw [← high_word_eq_ofInt, BitVec.ofInt_mul]; rfl

theorem and_eq_ofInt (a b : BitVec 32) : a &&& b = BitVec.ofInt 32 (a.toNat &&& b.toNat : Nat) := by
  rw [← BitVec.toNat_and, ofInt_toNat]

theorem or_eq_ofInt (a b : BitVec 32) : a ||| b = BitVec.ofInt 32 (a.toNat ||| b.toNat : Nat) := by
  rw [← BitVec.toNat_or, ofInt_toNat]

theorem xor_eq_ofInt (a b : BitVec 32) : a ^^^ b = BitVec.ofInt 32 (a.toNat ^^^ b.toNat : Nat) := by
  rw [← BitVec.toNat_xor, ofInt_toNat]

theorem andn_eq_ofInt (a b : BitVec 32) : a &&& ~~~b = BitVec.ofInt 32 (a.toNat &&& (2 ^ 32 - 1 - b.toNat) : Nat) := by
  rw [and_eq_ofInt, BitVec.toNat_not]

theorem shl_eq_ofInt (a b : BitVec 32) : (if b.toNat < 32 then a <<< b.toNat else 0) =
    BitVec.ofInt 32 (if b.toNat < 32 then a.toNat * 2 ^ b.toNat else 0) := by
  split
  · apply BitVec.eq_of_toNat_eq
    rw [BitVec.toNat_shiftLeft, Nat.shiftLeft_eq, BitVec.toNat_ofInt]
    norm_cast
  · rfl

theorem shr_eq_ofInt (a b : BitVec 32) : (if b.toNat < 32 then a >>> b.toNat else 0) =
    BitVec.ofInt 32 (if b.toNat < 32 then (a.toNat / 2 ^ b.toNat : Nat) else 0) := by
  split
  · rw [← Nat.shiftRight_eq_div_pow, ← BitVec.toNat_ushiftRight, ofInt_toNat]
  · rfl

theorem sar_eq_ofInt (a b : BitVec 32) :
    a.sshiftRight (min b.toNat 31) = BitVec.ofInt 32 (a.toInt.fdiv (2 ^ min b.toNat 31)) := by
  rw [Int.fdiv_eq_ediv_of_nonneg _ (by positivity), ← BitVec.ofInt_toInt (x := a.sshiftRight _), BitVec.toInt_sshiftRight,
    Int.shiftRight_eq_div_pow]
  norm_cast

theorem min_eq_ofInt (a b : BitVec 32) : (if a.toInt ≤ b.toInt then a else b) = BitVec.ofInt 32 (min a.toInt b.toInt) := by
  rw [min_def]; split <;> rw [BitVec.ofInt_toInt]

theorem max_eq_ofInt (a b : BitVec 32) : (if a.toInt ≤ b.toInt then b else a) = BitVec.ofInt 32 (max a.toInt b.toInt) := by
  rw [max_def]; split <;> rw [BitVec.ofInt_toInt]

theorem minu_eq_ofInt (a b : BitVec 32) :
    (if a.toNat ≤ b.toNat then a else b) = BitVec.ofInt 32 (min a.toNat b.toNat : Nat) := by
  rw [min_def]; split <;> rw [ofInt_toNat]

theorem maxu_eq_ofInt (a b : BitVec 32) :
    (if a.toNat ≤ b.toNat then b else a) = BitVec.ofInt 32 (max a.toNat b.toNat : Nat) := by
  rw [max_def]; split <;> rw [ofInt_toNat]

/-- The bits that a rotation takes round the end stand below the ones it moves up, so their OR is their sum. -/
theorem toNat_rotateLeft_eq_add (a : BitVec 32) {r : Nat} (h : r < 32) :
    (a.rotateLeft r).toNat = a.toNat * 2 ^ r % 2 ^ 32 + a.toNat / 2 ^ (32 - r) := by
  have low : a.toNat / 2 ^ (32 - r) < 2 ^ r := by
    rw [Nat.div_lt_iff_lt_mul (Nat.two_pow_pos _), ← Nat.pow_add, Nat.add_sub_cancel' h.le]; exact a.isLt
  have high : a.toNat * 2 ^ r % 2 ^ 32 = (a.toNat % 2 ^ (32 - r)) <<< r := by
    rw [Nat.shiftLeft_eq, ← Nat.mul_mod_mul_right, ← Nat.pow_add, Nat.sub_add_cancel h.le]
  rw [BitVec.toNat_rotateLeft, Nat.mod_eq_of_lt h, Nat.shiftLeft_eq, Nat.shiftRight_eq_div_pow, high,
    Nat.shiftLeft_add_eq_or_of_lt low]

theorem rot_eq_ofInt (a b : BitVec 32) : a.rotateLeft (b.toNat % 32) =
    BitVec.ofInt 32 (a.toNat * 2 ^ (b.toNat % 32) + (a.toNat / 2 ^ (32 - b.toNat % 32) : Nat)) := by
  have h : b.toNat % 32 < 32 := Nat.mod_lt _ (by decide)
  have bound := (a.rotateLeft (b.toNat % 32)).isLt
  apply BitVec.eq_of_toNat_eq
  rw [← Nat.mod_eq_of_lt bound, toNat_rotateLeft_eq_add a h, Nat.mod_add_mod, BitVec.toNat_ofInt]
  norm_cast

/-- The leading zero bits and the significant bits of a word make up its 32 bits. -/
theorem clz32_add_size (a : BitVec 32) : clz32 a + Nat.size a.toNat = 32 := by
  unfold clz32
  cases hfind : (List.range 32).find? (fun i => a.getLsbD (31 - i)) with
  | none =>
    have zero : a = 0 := by
      apply BitVec.eq_of_getLsbD_eq
      intro j hj
      have := List.find?_eq_none.1 hfind (31 - j) (List.mem_range.2 (by omega))
      simpa [show 31 - (31 - j) = j by omega] using this
    simp [zero]
  | some i =>
    obtain ⟨top, hi, above⟩ := List.find?_range_eq_some.1 hfind
    rw [List.mem_range] at hi
    have lower : 31 - i < Nat.size a.toNat := Nat.lt_size.2 (Nat.ge_two_pow_of_testBit top)
    have upper : Nat.size a.toNat ≤ 32 - i := by
      refine Nat.size_le.2 (Nat.lt_pow_two_of_testBit _ fun j hj => ?_)
      by_cases hj32 : j < 32
      · have := above (31 - j) (by omega)
        simpa [show 31 - (31 - j) = j by omega, BitVec.testBit_toNat] using this
      · exact BitVec.getLsbD_of_ge a j (by omega)
    simp only [Option.getD_some]
    omega

theorem clz_eq_ofInt (a : BitVec 32) : BitVec.ofNat 32 (clz32 a) = BitVec.ofInt 32 (32 - (Nat.size a.toNat : Int)) := by
  have h := clz32_add_size a
  rw [← BitVec.ofInt_natCast, show (clz32 a : Int) = 32 - Nat.size a.toNat by omega]

theorem popc_eq_ofInt (a : BitVec 32) : BitVec.ofNat 32 (popc32 a) =
    BitVec.ofInt 32 ((Finset.range 32).filter (fun j => a.toNat.testBit j = true)).card := by
  have count : popc32 a = ((Finset.range 32).filter (fun j => a.toNat.testBit j = true)).card := by
    rw [popc32, ← List.toFinset_range, ← List.toFinset_filter, List.toFinset_card_of_nodup (List.nodup_range.filter _)]
    rfl
  rw [count, BitVec.ofInt_natCast]

/-- The two halves that PACK joins do not overlap. -/
theorem pack_eq_ofInt (a b : BitVec 32) : (b <<< 16) ||| (a &&& 0xFFFF#32) =
    BitVec.ofInt 32 (b.toNat % 2 ^ 16 * 2 ^ 16 + a.toNat % 2 ^ 16 : Nat) := by
  have high : b.toNat <<< 16 % 2 ^ 32 = (b.toNat % 2 ^ 16) <<< 16 := by
    simp only [Nat.shiftLeft_eq]; omega
  have low : a.toNat &&& 0xFFFF = a.toNat % 2 ^ 16 := Nat.and_two_pow_sub_one_eq_mod _ 16
  apply BitVec.eq_of_toNat_eq
  rw [BitVec.ofInt_natCast, BitVec.toNat_ofNat, Nat.mod_eq_of_lt (by omega), BitVec.toNat_or, BitVec.toNat_shiftLeft,
    BitVec.toNat_and, high, BitVec.toNat_ofNat, Nat.mod_eq_of_lt (by decide : 0xFFFF < 2 ^ 32), low,
    ← Nat.shiftLeft_add_eq_or_of_lt (Nat.mod_lt _ (by decide)), Nat.shiftLeft_eq]

/-! ### The obligation -/

/-- Settles O22: each instruction is a lane operation on the low words, and each operation is its number modulo 2^32. -/
theorem cellInteger : Obligations.CellInteger := by
  intro s f
  simp only [State.laneNat_eq_toNat, State.laneInt_eq_toInt]
  exact ⟨(firesLanes_intOp2 add_eq_ofInt (exec_cellAdd f s) :),
    (firesLanes_intOp2 sub_eq_ofInt (exec_cellSub f s) :),
    (firesLanes_intOp2 mul_eq_ofInt (exec_cellMul f s) :),
    (firesLanes_intOp2 mulh_eq_ofInt (exec_cellMulh f s) :),
    (firesLanes_intOp2 and_eq_ofInt (exec_cellAnd f s) :),
    (firesLanes_intOp2 or_eq_ofInt (exec_cellOr f s) :),
    (firesLanes_intOp2 xor_eq_ofInt (exec_cellXor f s) :),
    (firesLanes_intOp2 andn_eq_ofInt (exec_cellAndn f s) :),
    (firesLanes_intOp2 shl_eq_ofInt (exec_cellShl f s) :),
    (firesLanes_intOp2 shr_eq_ofInt (exec_cellShr f s) :),
    (firesLanes_intOp2 sar_eq_ofInt (exec_cellSar f s) :),
    (firesLanes_intOp2 rot_eq_ofInt (exec_cellRot f s) :),
    (firesLanes_intOp2 min_eq_ofInt (exec_cellMin f s) :),
    (firesLanes_intOp2 max_eq_ofInt (exec_cellMax f s) :),
    (firesLanes_intOp2 minu_eq_ofInt (exec_minu f s) :),
    (firesLanes_intOp2 maxu_eq_ofInt (exec_maxu f s) :),
    (firesLanes_intOp1 clz_eq_ofInt (exec_cellClz f s) :),
    (firesLanes_intOp1 popc_eq_ofInt (exec_cellPopc f s) :),
    (firesLanes_intOp2 pack_eq_ofInt (exec_pack f s) :)⟩

end Sys2Proof.Machine
end

section
/-! PROOFS. The words of the R and I formats: what each operation on 64-bit words computes, and how an immediate reads
alone and after PFX (R165, R237, R238). -/

namespace Sys2Proof.Machine

/-! ### Words that write one register -/

/-- A register-to-register word writes what its operation f has on the two registers. -/
theorem writes_regOp {i : Instr} {s : State} {t : Nat} {r : BlockRun} {d a b : Nat} {f : Word → Word → Word} {v : Word}
    (h : s.Runs t r) (hm : r.mayWrite d) (hi : exec i s = regOp d a b f s) (hf : f (r.reg a) (r.reg b) = v) :
    Writes i s t r d v := by
  rw [Writes, hi, regOp_runs h hm, hf]

/-- An immediate word writes what its operation f has on the register and the immediate. -/
theorem writes_immOp {i : Instr} {s : State} {t : Nat} {r : BlockRun} {d a n : Nat} {f : Word → Word → Word} {v : Word}
    (h : s.Runs t r) (hm : r.mayWrite d) (hi : exec i s = immOp d a n f s) (hf : f (r.reg a) (r.imm n) = v) :
    Writes i s t r d v := by
  rw [Writes, hi, immOp_runs h hm, hf]

/-! ### Sums, products and bitwise words as numbers -/

theorem wd_toNat (x : Word) : wd x.toNat = x := by rw [wd, BitVec.ofNat_toNat, BitVec.setWidth_eq]

theorem add_eq_wd (x y : Word) : x + y = wd (x.toNat + y.toNat) := by
  rw [wd, BitVec.ofNat_add]; exact congrArg₂ (· + ·) (wd_toNat x).symm (wd_toNat y).symm

theorem mul_eq_wd (x y : Word) : x * y = wd (x.toNat * y.toNat) := by
  rw [wd, BitVec.ofNat_mul]; exact congrArg₂ (· * ·) (wd_toNat x).symm (wd_toNat y).symm

theorem sub_eq_ofInt_toInt (x y : Word) : x - y = BitVec.ofInt 64 (x.toInt - y.toInt) :=
  BitVec.eq_of_toInt_eq (by rw [BitVec.toInt_sub, BitVec.toInt_ofInt])

theorem add_eq_ofInt_toInt (x y : Word) : x + y = BitVec.ofInt 64 (x.toInt + y.toInt) :=
  BitVec.eq_of_toInt_eq (by rw [BitVec.toInt_add, BitVec.toInt_ofInt])

/-- Bits [127:64] of the signed product are its quotient by 2^64 rounded down. -/
theorem mulh_eq_ofInt_fdiv (x y : Word) :
    BitVec.ofInt 64 (x.toInt * y.toInt / 2 ^ 64) = BitVec.ofInt 64 ((x.toInt * y.toInt).fdiv (2 ^ 64)) := by
  rw [Int.fdiv_eq_ediv_of_nonneg _ (by decide)]

theorem and_eq_wd (x y : Word) : x &&& y = wd (x.toNat &&& y.toNat) := by rw [← BitVec.toNat_and, wd_toNat]

theorem or_eq_wd (x y : Word) : x ||| y = wd (x.toNat ||| y.toNat) := by rw [← BitVec.toNat_or, wd_toNat]

theorem xor_eq_wd (x y : Word) : x ^^^ y = wd (x.toNat ^^^ y.toNat) := by rw [← BitVec.toNat_xor, wd_toNat]

theorem andn_eq_wd (x y : Word) : x &&& ~~~y = wd (x.toNat &&& (2 ^ 64 - 1 - y.toNat)) := by
  rw [and_eq_wd, BitVec.toNat_not]

theorem adds_eq_wd (n : Nat) (x y : Word) : x + y <<< n = wd (x.toNat + y.toNat * 2 ^ n) := by
  apply BitVec.eq_of_toNat_eq
  rw [wd, BitVec.toNat_ofNat, BitVec.toNat_add, BitVec.toNat_shiftLeft, Nat.shiftLeft_eq, Nat.add_mod_mod]

/-! ### Compares, minimum and maximum -/

theorem boolWord_eq_ite {c : Bool} {p : Prop} [Decidable p] (h : c = true ↔ p) : boolWord c = if p then 1 else 0 := by
  unfold boolWord; simp only [h]

theorem boolWord_beq (x y : Word) : boolWord (x == y) = if x.toNat = y.toNat then 1 else 0 :=
  boolWord_eq_ite (by rw [beq_iff_eq, BitVec.toNat_inj])

theorem boolWord_beq_toInt (x y : Word) : boolWord (x == y) = if x.toInt = y.toInt then 1 else 0 :=
  boolWord_eq_ite (by rw [beq_iff_eq, BitVec.toInt_inj])

theorem boolWord_bne (x y : Word) : boolWord (x != y) = if x.toNat = y.toNat then 0 else 1 := by
  rw [boolWord_eq_ite (bne_iff_ne.trans (not_congr BitVec.toNat_inj.symm)), ite_not]

theorem boolWord_slt (x y : Word) : boolWord (x.slt y) = if x.toInt < y.toInt then 1 else 0 :=
  boolWord_eq_ite BitVec.slt_iff_toInt_lt

theorem boolWord_sle (x y : Word) : boolWord (x.sle y) = if x.toInt ≤ y.toInt then 1 else 0 :=
  boolWord_eq_ite BitVec.sle_iff_toInt_le

theorem boolWord_ult (x y : Word) : boolWord (x.ult y) = if x.toNat < y.toNat then 1 else 0 :=
  boolWord_eq_ite (by rw [BitVec.ult_eq_decide, decide_eq_true_iff])

theorem boolWord_ule (x y : Word) : boolWord (x.ule y) = if x.toNat ≤ y.toNat then 1 else 0 :=
  boolWord_eq_ite (by rw [BitVec.ule_eq_decide, decide_eq_true_iff])

theorem toInt_min (x y : Word) : (if y.slt x then y else x).toInt = min x.toInt y.toInt := by
  by_cases less : y.toInt < x.toInt
  · rw [if_pos (BitVec.slt_iff_toInt_lt.2 less), min_eq_right less.le]
  · rw [if_neg (mt BitVec.slt_iff_toInt_lt.1 less), min_eq_left (not_lt.1 less)]

theorem toInt_max (x y : Word) : (if x.slt y then y else x).toInt = max x.toInt y.toInt := by
  by_cases less : x.toInt < y.toInt
  · rw [if_pos (BitVec.slt_iff_toInt_lt.2 less), max_eq_right less.le]
  · rw [if_neg (mt BitVec.slt_iff_toInt_lt.1 less), max_eq_left (not_lt.1 less)]

/-! ### Shifts and the rotation -/

/-- A shift left by n moves bit k - n to bit k, and a count of 64 or more leaves nothing. -/
theorem getLsbD_shl (x : Word) (n : Nat) {k : Nat} (hk : k < 64) :
    (if n ≥ 64 then 0 else x <<< n).getLsbD k = (decide (n ≤ k) && x.getLsbD (k - n)) := by
  split
  · have past : ¬ n ≤ k := by omega
    simp [past]
  · have within : (!decide (k < n)) = decide (n ≤ k) := by rw [← decide_not, decide_eq_decide]; exact Nat.not_lt
    simp only [BitVec.getLsbD_shiftLeft, hk, decide_true, Bool.true_and, within]

theorem getLsbD_shr (x : Word) (n k : Nat) : (if n ≥ 64 then 0 else x >>> n).getLsbD k = x.getLsbD (k + n) := by
  split
  · rw [BitVec.getLsbD_of_ge x (k + n) (by omega)]
    exact BitVec.getLsbD_zero
  · rw [BitVec.getLsbD_ushiftRight, Nat.add_comm]

theorem toInt_sshiftRight_eq_fdiv (x : Word) (n : Nat) : (x.sshiftRight n).toInt = x.toInt.fdiv (2 ^ n) := by
  rw [BitVec.toInt_sshiftRight, Int.shiftRight_eq_div_pow, Int.fdiv_eq_ediv_of_nonneg _ (by positivity)]
  norm_cast

/-- A rotation by n takes bit k to bit k + n modulo 64: round the end where k + n mod 64 passes it, straight up otherwise. -/
theorem getLsbD_rot (x : Word) (n : Nat) {k : Nat} (hk : k < 64) :
    (x.rotateLeft (n % 64)).getLsbD ((k + n) % 64) = x.getLsbD k := by
  rw [BitVec.getLsbD_rotateLeft]
  by_cases wraps : 64 ≤ k + n % 64
  · have low : (k + n) % 64 < n % 64 % 64 := by omega
    have source : 64 - n % 64 % 64 + (k + n) % 64 = k := by omega
    simp only [low, decide_true, cond_true, source]
  · have high : ¬ (k + n) % 64 < n % 64 % 64 := by omega
    have source : (k + n) % 64 - n % 64 % 64 = k := by omega
    have inside : (k + n) % 64 < 64 := by omega
    simp only [high, inside, decide_false, decide_true, cond_false, source, Bool.true_and]

/-! ### Bit counts -/

theorem leadingZeros_le (n w : Nat) : leadingZeros n w ≤ n := by
  unfold leadingZeros; split <;> omega

/-- Above the leading zeros' end no bit of a word is set. -/
theorem getLsbD_leadingZeros_above (x : Word) {k : Nat} (hk : 64 - leadingZeros 64 x.toNat ≤ k) :
    x.getLsbD k = false := by
  rw [← BitVec.testBit_toNat]
  apply Nat.testBit_eq_false_of_lt
  unfold leadingZeros at hk
  split at hk
  next zero => rw [zero]; positivity
  next nonzero =>
    have top : x.toNat.log2 < 64 := (Nat.log2_lt nonzero).2 x.isLt
    exact (Nat.log2_lt nonzero).1 (by omega)

/-- Where the leading zeros end stands a set bit. -/
theorem getLsbD_leadingZeros_top (x : Word) (h : leadingZeros 64 x.toNat < 64) :
    x.getLsbD (63 - leadingZeros 64 x.toNat) = true := by
  unfold leadingZeros at h ⊢
  split at h
  next => omega
  next nonzero =>
    have top : x.toNat.log2 < 64 := (Nat.log2_lt nonzero).2 x.isLt
    have place : 63 - (64 - 1 - x.toNat.log2) = x.toNat.log2 := by omega
    rw [if_neg nonzero, place, ← BitVec.testBit_toNat]
    exact Nat.testBit_log2 nonzero

theorem bitOf_eq_testBit (w i : Nat) : bitOf w i = w.testBit i := by
  rw [bitOf, Nat.testBit_eq_decide_div_mod_eq, beq_eq_decide]

theorem popCount_eq_card (x : Word) :
    popCount 64 x.toNat = ((Finset.range 64).filter (fun k => x.getLsbD k = true)).card := by
  have bits : bitOf x.toNat = x.getLsbD := funext fun k => by rw [bitOf_eq_testBit, BitVec.testBit_toNat]
  rw [popCount, bits, ← List.toFinset_range, ← List.toFinset_filter,
    List.toFinset_card_of_nodup (List.nodup_range.filter _)]

/-! ### Quotients and remainders -/

theorem eq_neg_one_of_toInt {y : Word} (h : y.toInt = -1) : y = -1#64 := BitVec.eq_of_toInt_eq h

theorem eq_intMin_of_toInt {x : Word} (h : x.toInt = -2 ^ 63) : x = BitVec.intMin 64 := BitVec.eq_of_toInt_eq h

theorem sdiv64_eq_sdiv {x y : Word} (hy : y ≠ 0) : sdiv64 x y = x.sdiv y := by
  rw [sdiv64, if_neg hy]
  exact BitVec.eq_of_toInt_eq (by rw [BitVec.toInt_ofInt, BitVec.toInt_sdiv])

theorem srem64_eq_srem {x y : Word} (hy : y ≠ 0) : srem64 x y = x.srem y := by
  rw [srem64, if_neg hy, ← BitVec.toInt_srem, BitVec.ofInt_toInt]

/-- A quotient that fits is the one truncated toward zero: only -2^63 by -1 does not fit. -/
theorem toInt_sdiv64 {x y : Word} (hy : y ≠ 0) (fits : ¬(y.toInt = -1 ∧ x.toInt = -2 ^ 63)) :
    (sdiv64 x y).toInt = x.toInt.tdiv y.toInt := by
  rw [sdiv64_eq_sdiv hy]
  apply BitVec.toInt_sdiv_of_ne_or_ne
  by_contra! edge
  exact fits (by rw [edge.1, edge.2]; decide)

theorem toInt_srem64 {x y : Word} (hy : y ≠ 0) : (srem64 x y).toInt = x.toInt.tmod y.toInt := by
  rw [srem64_eq_srem hy, BitVec.toInt_srem]

/-- The quotient -2^63 by -1 wraps back to the dividend (R237). -/
theorem sdiv64_overflow {x y : Word} (hy : y.toInt = -1) (hx : x.toInt = -2 ^ 63) : sdiv64 x y = x := by
  rw [eq_neg_one_of_toInt hy, eq_intMin_of_toInt hx, sdiv64_eq_sdiv (by decide), BitVec.intMin_sdiv_neg_one]

theorem srem64_neg_one (x : Word) {y : Word} (hy : y.toInt = -1) : srem64 x y = 0 := by
  have nonzero : y ≠ 0 := fun zero => by simp [zero] at hy
  apply BitVec.eq_of_toInt_eq
  rw [toInt_srem64 nonzero, hy, Int.tmod_neg, Int.tmod_one]; rfl

theorem ofNat_toNat_div (x y : Word) : BitVec.ofNat 64 (x.toNat / y.toNat) = x / y := by
  rw [← BitVec.toNat_udiv]; exact wd_toNat _

theorem ofNat_toNat_mod (x y : Word) : BitVec.ofNat 64 (x.toNat % y.toNat) = x % y := by
  rw [← BitVec.toNat_umod]; exact wd_toNat _

/-! ### The immediate (R165) -/

/-- A field alone or extended by PFX stands for a number of at most 38 bits, which the word of the immediate holds. -/
theorem toInt_imm {r : BlockRun} {i : Nat} (hi : i < 2 ^ 14) (hp : ∀ h, r.pfx = some h → h < 2 ^ 24) :
    (r.imm i).toInt = extended 14 r.pfx i := by
  cases hr : r.pfx with
  | none =>
    simp only [BlockRun.imm, hr, signed, extended, Nat.mod_eq_of_lt hi]
    apply BitVec.toInt_ofInt_eq_self (by decide) <;> split <;> omega
  | some h =>
    have hh := hp h hr
    have fits : h * 2 ^ 14 + i < 2 ^ 38 := by omega
    have sign : h * 2 ^ 14 + i < 2 ^ 37 ↔ h < 2 ^ 23 := by omega
    simp only [BlockRun.imm, hr, signed, extended, Nat.mod_eq_of_lt fits, Nat.add_one_sub_one, sign]
    push_cast
    apply BitVec.toInt_ofInt_eq_self (by decide) <;> split <;> omega

/-! ### The obligations -/

/-- Settles O1: each word is a register operation, and each operation is its number, its bits or its quotient. -/
theorem wordOperations : Obligations.WordOperations := by
  intro s t r d a b h hm x y n
  refine ⟨writes_regOp h hm (exec_add d a b s) (add_eq_wd x y),
    writes_regOp h hm (exec_sub d a b s) (sub_eq_ofInt_toInt x y),
    writes_regOp h hm (exec_mul d a b s) (mul_eq_wd x y),
    writes_regOp h hm (exec_mulh d a b s) (mulh_eq_ofInt_fdiv x y),
    writes_regOp h hm (exec_mulhu d a b s) rfl,
    writes_regOp h hm (exec_and d a b s) (and_eq_wd x y),
    writes_regOp h hm (exec_or d a b s) (or_eq_wd x y),
    writes_regOp h hm (exec_xor d a b s) (xor_eq_wd x y),
    writes_regOp h hm (exec_andn d a b s) (andn_eq_wd x y),
    fun n _ => writes_regOp h hm (exec_adds d a b n s) (adds_eq_wd n x y),
    writes_regOp h hm (exec_cseq d a b s) (boolWord_beq x y),
    writes_regOp h hm (exec_csne d a b s) (boolWord_bne x y),
    writes_regOp h hm (exec_cslt d a b s) (boolWord_slt x y),
    writes_regOp h hm (exec_csle d a b s) (boolWord_sle x y),
    writes_regOp h hm (exec_csltu d a b s) (boolWord_ult x y),
    writes_regOp h hm (exec_csleu d a b s) (boolWord_ule x y),
    ⟨_, writes_regOp h hm (exec_min d a b s) rfl, toInt_min x y⟩,
    ⟨_, writes_regOp h hm (exec_max d a b s) rfl, toInt_max x y⟩,
    ⟨_, writes_regOp h hm (exec_shl d a b s) rfl, fun _ => getLsbD_shl x n⟩,
    ⟨_, writes_regOp h hm (exec_shr d a b s) rfl, fun k _ => getLsbD_shr x n k⟩,
    ⟨_, writes_regOp h hm (exec_sar d a b s) rfl, toInt_sshiftRight_eq_fdiv x (min n 63)⟩,
    ⟨_, writes_regOp h hm (exec_rot d a b s) rfl, fun _ => getLsbD_rot x n⟩,
    ⟨_, leadingZeros_le 64 x.toNat, writes_regOp h hm (exec_clz d a s) rfl,
      fun _ => getLsbD_leadingZeros_above x, getLsbD_leadingZeros_top x⟩,
    ?popc, ?byZero, ?overflow, ?signed, ?unsigned⟩
  case popc =>
    rw [← popCount_eq_card x]
    exact writes_regOp h hm (exec_popc d a s) rfl
  case byZero =>
    intro zero
    exact ⟨writes_regOp h hm (exec_div d a b s) (if_pos zero), writes_regOp h hm (exec_divu d a b s) (if_pos zero),
      writes_regOp h hm (exec_rem d a b s) (if_pos zero), writes_regOp h hm (exec_remu d a b s) (if_pos zero)⟩
  case overflow =>
    intro hy hx
    exact ⟨writes_regOp h hm (exec_div d a b s) (sdiv64_overflow hy hx),
      writes_regOp h hm (exec_rem d a b s) (srem64_neg_one x hy)⟩
  case signed =>
    intro nonzero fits
    refine ⟨_, _, writes_regOp h hm (exec_div d a b s) rfl, writes_regOp h hm (exec_rem d a b s) rfl,
      toInt_sdiv64 nonzero fits, toInt_srem64 nonzero, ?_⟩
    rw [toInt_sdiv64 nonzero fits, toInt_srem64 nonzero]
    exact (Int.tdiv_mul_add_tmod _ _).symm
  case unsigned =>
    intro nonzero
    refine ⟨x / y, x % y, writes_regOp h hm (exec_divu d a b s) ((if_neg nonzero).trans (ofNat_toNat_div x y)),
      writes_regOp h hm (exec_remu d a b s) ((if_neg nonzero).trans (ofNat_toNat_mod x y)), ?_, ?_⟩
    · rw [BitVec.toNat_udiv, BitVec.toNat_umod, Nat.div_add_mod']
    · rw [BitVec.toNat_umod]
      exact Nat.mod_lt _ (Nat.pos_of_ne_zero fun zero => nonzero (BitVec.eq_of_toNat_eq zero))

/-- Settles O2: each word is an operation on the immediate, which reads as the number of its field, alone and after PFX. -/
theorem immediateWords : Obligations.ImmediateWords := by
  intro s t r d a i h hm hi hp x m
  have imm_toInt : (r.imm i).toInt = m := toInt_imm hi hp
  have imm_eq : r.imm i = BitVec.ofInt 64 m := by rw [← imm_toInt, BitVec.ofInt_toInt]
  refine ⟨writes_immOp h hm (exec_addi d a i s) ?_,
    writes_immOp h hm (exec_andi d a i s) (congrArg (x &&& ·) imm_eq),
    writes_immOp h hm (exec_ori d a i s) (congrArg (x ||| ·) imm_eq),
    writes_immOp h hm (exec_xori d a i s) (congrArg (x ^^^ ·) imm_eq),
    writes_immOp h hm (exec_cslti d a i s) ?_,
    writes_immOp h hm (exec_cseqi d a i s) ?_,
    writes_immOp h hm (exec_li d i s) imm_eq, fun short => ?_⟩
  · rw [add_eq_ofInt_toInt, imm_toInt]
  · rw [boolWord_slt, imm_toInt]
  · rw [boolWord_beq_toInt, imm_toInt]
  · have count : i % 64 = i := Nat.mod_eq_of_lt short
    refine ⟨⟨_, writes_regOp h hm (exec_shli d a i s) rfl, ?_⟩, ⟨_, writes_regOp h hm (exec_shri d a i s) rfl, ?_⟩,
      ⟨_, writes_regOp h hm (exec_sari d a i s) rfl, ?_⟩⟩
    · rw [count, BitVec.toNat_shiftLeft, Nat.shiftLeft_eq]
    · rw [count, BitVec.toNat_ushiftRight, Nat.shiftRight_eq_div_pow]
    · rw [count, toInt_sshiftRight_eq_fdiv]

end Sys2Proof.Machine
end
